-- ==== Sys2Proof/Word.lean ====
section
/-!
DEFINITION. The word types of the Decty (spec 00 R3, R4) and their plainest arithmetic.
-/
namespace Sys2Proof

/-- A register, a code word, an instruction word (03 R42). -/
abbrev Word := BitVec 32

/-- The content of a register pair, a virtual address, a doubleword of a descriptor (00 R3). -/
abbrev DWord := BitVec 64

/-- The unit of memory (00 R3). -/
abbrev Byte := BitVec 8

/-- A set of lanes of a gang: bit i is lane i (07 R133). -/
abbrev LaneMask := BitVec 32

/-- Every lane of a gang. -/
def allLanes : LaneMask := BitVec.allOnes 32

/-- The 64-bit value of a register pair: the even register holds bits 31-0 (00 R3). -/
def pairOf (lo hi : Word) : DWord := hi ++ lo

/-- Bits 31-0 of a 64-bit value. -/
def loWord (d : DWord) : Word := d.truncate 32

/-- Bits 63-32 of a 64-bit value. -/
def hiWord (d : DWord) : Word := (d >>> 32).truncate 32

/-- A truth value as a word: 1 or 0. -/
def boolWord (b : Bool) : Word := if b then 1 else 0

end Sys2Proof
end

