-- ==== Sys2Proof/Machine/AList.lean ====
section
/-!
DEFINITION. Sparse data by key in one canonical form: keys strictly rising, no entry equal to what an unlisted
key reads as. Memory, registers, queues and tables of the machine are held this way.
-/
namespace Sys2Proof.Machine

/-- A sparse map from keys to values; an unlisted key reads as a default that its owner names. -/
abbrev AList (α : Type) := List (Nat × α)

/-- The value at key `k`, `dflt` where none is listed. -/
def AList.get {α : Type} (dflt : α) (m : AList α) (k : Nat) : α :=
  match m with
  | [] => dflt
  | (k', v) :: t => if k = k' then v else AList.get dflt t k

/-- Removes every entry at key `k`. -/
def AList.drop {α : Type} (m : AList α) (k : Nat) : AList α :=
  match m with
  | [] => []
  | (k', v) :: t => if k = k' then AList.drop t k else (k', v) :: AList.drop t k

/-- Writes `v` at key `k`, keeping the canonical form: writing the default removes the entry. -/
def AList.set {α : Type} [DecidableEq α] (dflt : α) (m : AList α) (k : Nat) (v : α) : AList α :=
  match m with
  | [] => if v = dflt then [] else [(k, v)]
  | (k', v') :: t =>
    if k < k' then (if v = dflt then AList.drop ((k', v') :: t) k else (k, v) :: (k', v') :: t)
    else if k = k' then (if v = dflt then AList.drop t k else (k, v) :: t)
    else (k', v') :: AList.set dflt t k v

/-- Reads, changes and writes back the value at key `k`. -/
def AList.modify {α : Type} [DecidableEq α] (dflt : α) (m : AList α) (k : Nat) (f : α → α) : AList α :=
  AList.set dflt m k (f (AList.get dflt m k))

/-- Changes every listed value, keeping the canonical form. -/
def AList.mapVals {α : Type} [DecidableEq α] (dflt : α) (f : α → α) (m : AList α) : AList α :=
  m.foldl (fun r p => AList.set dflt r p.1 (f (AList.get dflt m p.1))) []

/-- Every key of `m` is above `lo`, keys rise strictly, and no value is the default. -/
def AList.wfFrom {α : Type} [DecidableEq α] (dflt : α) (lo : Option Nat) (m : AList α) : Bool :=
  match m with
  | [] => true
  | (k, v) :: t =>
    (match lo with | none => true | some b => decide (b < k)) && decide (v ≠ dflt) && AList.wfFrom dflt (some k) t

/-- The canonical form. -/
def AList.wf {α : Type} [DecidableEq α] (dflt : α) (m : AList α) : Bool := AList.wfFrom dflt none m

/-- Memory: bytes by address. -/
abbrev Memory := AList Byte

/-- What a byte that nothing has written reads as: 0 (DESIGN CHOICE, log 2: the spec gives no contents). -/
def Memory.unlisted : Byte := 0

/-- The canonical form of memory. -/
def Memory.wf (m : Memory) : Bool := AList.wf Memory.unlisted m

/-- Reads one byte. -/
def Memory.read (m : Memory) (a : Nat) : Byte := AList.get Memory.unlisted m a

/-- Writes one byte. -/
def Memory.write (m : Memory) (a : Nat) (v : Byte) : Memory := AList.set Memory.unlisted m a v

/-- Reads `n` bytes at rising addresses. -/
def Memory.readBytes (m : Memory) (a : Nat) (n : Nat) : List Byte :=
  (List.range n).map fun i => Memory.read m (a + i)

/-- Writes bytes at rising addresses. -/
def Memory.writeBytes (m : Memory) (a : Nat) (bs : List Byte) : Memory :=
  match bs with
  | [] => m
  | b :: t => Memory.writeBytes (Memory.write m a b) (a + 1) t

/-- The little-endian value of a list of bytes (00 R3). -/
def leNat (bs : List Byte) : Nat :=
  match bs with
  | [] => 0
  | b :: t => b.toNat + 256 * leNat t

/-- The `n` low bytes of a value, least significant first (00 R3). -/
def leBytes (n : Nat) (v : Nat) : List Byte :=
  match n with
  | 0 => []
  | n + 1 => BitVec.ofNat 8 v :: leBytes n (v / 256)

/-- The little-endian value of `n` bytes of memory at `a`. -/
def Memory.readNat (m : Memory) (a : Nat) (n : Nat) : Nat := leNat (Memory.readBytes m a n)

/-- Field of `n` bytes at offset `off` of a structure held as bytes (00 R3). -/
def field (bs : List Byte) (off n : Nat) : Nat := leNat ((bs.drop off).take n)

/-- Bits hi down to lo of a natural number (02 R41). -/
def bits (x hi lo : Nat) : Nat := (x / 2 ^ lo) % 2 ^ (hi + 1 - lo)

end Sys2Proof.Machine
end

