-- ==== Sys2Proof/Syntax.lean ====
section
/-!
DEFINITION. The instructions and the device's events: one constructor per row of spec/opcode_table.json.

A word's operand fields are named as spec 03 Tables 3-1, 3-2, 3-4 and 3-5 name them; reserved fields, which
must be zero (03 R43), have no place here. An event names what it happens to.
-/
namespace Sys2Proof

/-- LR words with two sources (03 Table 3-1). -/
structure LR where
  d : BitVec 5
  a : BitVec 5
  b : BitVec 5
  g : BitVec 3
  h : Bool
  ea : Bool
  eb : Bool
  deriving DecidableEq, Repr

/-- LR words with one source: b and eb reserved. -/
structure LRA where
  d : BitVec 5
  a : BitVec 5
  g : BitVec 3
  h : Bool
  ea : Bool
  deriving DecidableEq, Repr

/-- LC compares (06 R114). -/
structure LC where
  pd : BitVec 3
  comb : BitVec 2
  a : BitVec 5
  b : BitVec 5
  g : BitVec 3
  h : Bool
  ea : Bool
  eb : Bool
  deriving DecidableEq, Repr

/-- PAND, POR, PXOR: a and b name predicates (06 R116). -/
structure LCP where
  pd : BitVec 3
  comb : BitVec 2
  a : BitVec 3
  b : BitVec 3
  g : BitVec 3
  deriving DecidableEq, Repr

/-- PNOT (06 R116). -/
structure LCN where
  pd : BitVec 3
  comb : BitVec 2
  a : BitVec 3
  g : BitVec 3
  deriving DecidableEq, Repr

/-- BALLOT: a names a predicate (05 R98). -/
structure LBal where
  d : BitVec 5
  a : BitVec 3
  g : BitVec 3
  deriving DecidableEq, Repr

/-- LI words with d, a and imm8. -/
structure LI where
  d : BitVec 5
  a : BitVec 5
  imm : BitVec 8
  g : BitVec 3
  deriving DecidableEq, Repr

/-- LI shifts: imm8 bits 7-5 reserved (06 R118). -/
structure LI5 where
  d : BitVec 5
  a : BitVec 5
  imm : BitVec 5
  g : BitVec 3
  deriving DecidableEq, Repr

/-- LW words: no guard (03 R44). -/
structure LW where
  d : BitVec 5
  imm : BitVec 16
  deriving DecidableEq, Repr

/-- MOVS: a names s0-s31 (05 R96). -/
structure LMovs where
  d : BitVec 5
  a : BitVec 5
  g : BitVec 3
  deriving DecidableEq, Repr

/-- MOVSR: imm8 is a special-register number (05 R94). -/
structure LMovsr where
  d : BitVec 5
  imm : BitVec 8
  g : BitVec 3
  deriving DecidableEq, Repr

/-- MOVP (05 R96). -/
structure LMovp where
  d : BitVec 5
  g : BitVec 3
  deriving DecidableEq, Repr

/-- PMOV (05 R96). -/
structure LPmov where
  a : BitVec 5
  g : BitVec 3
  h : Bool
  ea : Bool
  deriving DecidableEq, Repr

/-- LM loads, BMRANK, BMSEL: pol is the cache policy (03 R44). -/
structure LM where
  d : BitVec 5
  a : BitVec 5
  sb : BitVec 5
  g : BitVec 3
  pol : BitVec 2
  deriving DecidableEq, Repr

/-- LM plain stores (09 R203). -/
structure LMSt where
  d : BitVec 5
  a : BitVec 5
  sb : BitVec 5
  g : BitVec 3
  pol : BitVec 2
  ea : Bool
  deriving DecidableEq, Repr

/-- LM words whose mod is a scope code (03 R47). -/
structure LMS where
  d : BitVec 5
  a : BitVec 5
  sb : BitVec 5
  g : BitVec 3
  scope : BitVec 3
  deriving DecidableEq, Repr

/-- PREF (09 R205). -/
structure LMPref where
  a : BitVec 5
  sb : BitVec 5
  g : BitVec 3
  pol : BitVec 2
  deriving DecidableEq, Repr

/-- Global atomics: ord 0 relaxed, 1 acquire, 2 release, 3 both (03 R53). -/
structure LAtom where
  d : BitVec 5
  a : BitVec 5
  sb : BitVec 5
  g : BitVec 3
  scope : BitVec 3
  ord : BitVec 2
  deriving DecidableEq, Repr

/-- FENCE of one kind (10 R220). -/
structure LFence where
  scope : BitVec 3
  g : BitVec 3
  deriving DecidableEq, Repr

/-- LL words (03 R44). -/
structure LL where
  d : BitVec 5
  a : BitVec 5
  imm : BitVec 8
  g : BitVec 3
  deriving DecidableEq, Repr

/-- TEBQ, TEBL: imm8 split into offset and variant (03 R44). -/
structure LTeb where
  d : BitVec 5
  a : BitVec 5
  off : BitVec 6
  var : BitVec 2
  g : BitVec 3
  deriving DecidableEq, Repr

/-- LB branches (07 R141). -/
structure LB where
  imm : BitVec 15
  g : BitVec 3
  pri : BitVec 3
  deriving DecidableEq, Repr

/-- CALLR, JMPR (07 R142). -/
structure LJ where
  a : BitVec 5
  g : BitVec 3
  deriving DecidableEq, Repr

/-- LB words with a guard only (07 Table 7-3). -/
structure LG where
  g : BitVec 3
  deriving DecidableEq, Repr

/-- SETPRI (07 R145). -/
structure LSetpri where
  n : BitVec 3
  g : BitVec 3
  deriving DecidableEq, Repr

/-- TRAP (07 R146). -/
structure LTrap where
  code : BitVec 8
  g : BitVec 3
  deriving DecidableEq, Repr

/-- Barrier words (07 R149). -/
structure LBar where
  a : BitVec 5
  imm : BitVec 8
  g : BitVec 3
  deriving DecidableEq, Repr

/-- RKPUSH (17 R330). -/
structure LRk where
  acc : BitVec 3
  a : BitVec 5
  b : BitVec 5
  g : BitVec 3
  h : Bool
  ea : Bool
  eb : Bool
  deriving DecidableEq, Repr

/-- ACADD (17 R332). -/
structure LAcadd where
  acc : BitVec 3
  a : BitVec 5
  g : BitVec 3
  h : Bool
  ea : Bool
  deriving DecidableEq, Repr

/-- RKTEST (17 R331). -/
structure LRktest where
  pd : BitVec 3
  comb : BitVec 2
  a : BitVec 5
  b : BitVec 5
  g : BitVec 3
  acc : BitVec 3
  deriving DecidableEq, Repr

/-- UR words with m reserved (03 Table 3-5). -/
structure UR where
  d : BitVec 5
  a : BitVec 5
  b : BitVec 5
  c : BitVec 3
  deriving DecidableEq, Repr

/-- UR words that use m bit 0. -/
structure URM where
  d : BitVec 5
  a : BitVec 5
  b : BitVec 5
  c : BitVec 3
  m : Bool
  deriving DecidableEq, Repr

/-- UR words with d and a. -/
structure UDA where
  d : BitVec 5
  a : BitVec 5
  c : BitVec 3
  deriving DecidableEq, Repr

/-- UI words. -/
structure UI where
  d : BitVec 5
  a : BitVec 5
  imm : BitVec 8
  c : BitVec 3
  deriving DecidableEq, Repr

/-- USHLI (06 R128). -/
structure UI5 where
  d : BitVec 5
  a : BitVec 5
  imm : BitVec 5
  c : BitVec 3
  deriving DecidableEq, Repr

/-- UW words: no guard. -/
structure UW where
  d : BitVec 5
  imm : BitVec 16
  deriving DecidableEq, Repr

/-- UCMP and BTTEST: d names a condition bit (07 R147, 15 R301). -/
structure UCab where
  cd : BitVec 3
  a : BitVec 5
  b : BitVec 5
  c : BitVec 3
  deriving DecidableEq, Repr

/-- CSEGQ (08 R177). -/
structure UCa where
  cd : BitVec 3
  a : BitVec 5
  c : BitVec 3
  deriving DecidableEq, Repr

/-- UMOVSR (06 R129). -/
structure UMovsr where
  d : BitVec 5
  imm : BitVec 8
  c : BitVec 3
  deriving DecidableEq, Repr

/-- UBRA (07 R148). -/
structure UB where
  imm : BitVec 15
  c : BitVec 3
  deriving DecidableEq, Repr

/-- UR words with a and b. -/
structure UAB where
  a : BitVec 5
  b : BitVec 5
  c : BitVec 3
  deriving DecidableEq, Repr

/-- UR words with a. -/
structure UA where
  a : BitVec 5
  c : BitVec 3
  deriving DecidableEq, Repr

/-- RTPIN (19 R350). -/
structure UD where
  d : BitVec 5
  c : BitVec 3
  deriving DecidableEq, Repr

/-- MEND (16 R320). -/
structure UC where
  c : BitVec 3
  deriving DecidableEq, Repr

/-- UTRAP (21 R373). -/
structure UImm where
  imm : BitVec 8
  c : BitVec 3
  deriving DecidableEq, Repr

/-- WAITC: threshold and class (10 R227). -/
structure UWaitc where
  n : BitVec 5
  cls : BitVec 3
  c : BitVec 3
  deriving DecidableEq, Repr

/-- QBIND (05 R105). -/
structure UQbind where
  q : BitVec 2
  a : BitVec 5
  c : BitVec 3
  deriving DecidableEq, Repr

/-- RCLAIM, RTAKE: m names the condition bit (19 R359). -/
structure URing where
  d : BitVec 5
  a : BitVec 5
  b : BitVec 5
  c : BitVec 3
  m : BitVec 3
  deriving DecidableEq, Repr

/-- ACDECL of one mode (17 R329). -/
structure UAcdecl where
  acc : BitVec 3
  order : Bool
  key : Bool
  fgate : Bool
  k : BitVec 6
  c : BitVec 3
  deriving DecidableEq, Repr

/-- ACCLR names an accumulator, MZERO a tile. -/
structure UAcc where
  acc : BitVec 3
  c : BitVec 3
  deriving DecidableEq, Repr

/-- ACST, ACMRG, ACRAISE. -/
structure UAccA where
  acc : BitVec 3
  a : BitVec 5
  c : BitVec 3
  deriving DecidableEq, Repr

/-- ACCMP (17 R333). -/
structure UAccmp where
  acc : BitVec 3
  a : BitVec 5
  c : BitVec 3
  m : BitVec 3
  deriving DecidableEq, Repr

/-- ACRD (17 R335). -/
structure UAcrd where
  d : BitVec 5
  a : BitVec 5
  acc : BitVec 3
  c : BitVec 3
  deriving DecidableEq, Repr

/-- MPOST (16 R314). -/
structure UMpost where
  t : BitVec 3
  a : BitVec 5
  b : BitVec 5
  c : BitVec 3
  deriving DecidableEq, Repr

/-- Whose PAGE fault the scheduler thread disposes of (09 R192, 08 R403, 11 R235). -/
inductive PageTarget
  | gang (h g : Nat)
  | fetch (f : Nat)
  | crec (l : Nat)
  deriving DecidableEq, Repr

/-- A frontier entry, named by one of its lanes, or a matrix stream (21 R370). -/
inductive AgentRef
  | entry (h g lane : Nat)
  | stream (k i : Nat)
  deriving DecidableEq, Repr

/-- Where an uncorrectable error strikes (21 R378, R379). -/
inductive PoisonTarget
  | memory (word : Nat)
  | l1 (core ctx vline word : Nat)
  | guest (die pline word : Nat)
  | tlb (k ctx vbase : Nat)
  | scratchpad (h word : Nat)
  | register (h g lane entry : Nat)
  | queue (h q n lane : Nat)
  | spill (h word : Nat)
  | tile (k t element : Nat)
  | accum (h g n : Nat)
  | code (core slot word : Nat)
  | streamCode (k slot word : Nat)
  deriving DecidableEq, Repr

/-- A versioned link or interface (23 R401). -/
inductive LinkRef
  | viaduct (edge : Nat)
  | fabric (port : Nat)
  | kernelAbi
  deriving DecidableEq, Repr

/-- The arguments of a control command, as its 128-byte entry gives them (23 Table 23-2). -/
structure ControlCmd where
  ctx : Nat
  vbase : Nat
  length : Nat
  die : Nat
  nonce : List Byte
  address : Nat
  imageLen : Nat
  tolerance : Nat
  reply : Option Nat
  deriving DecidableEq, Repr

/-- One word of a lane's data, from 0 (10 R213). -/
structure LaneWord where
  lane : Nat
  word : Nat
  deriving DecidableEq, Repr

/-- A chunk of a transfer, and how many chunks its engine has issued by then (15 R297). -/
structure ChunkIssue where
  chunk : Nat
  issued : Nat
  deriving DecidableEq, Repr

/-- A ring of a die and the value written to its first register (19 Table 19-6). -/
structure RingValue where
  ring : Nat
  value : DWord
  deriving DecidableEq, Repr

/-- What the resident kernel puts into a context descriptor (03 R49, 09 R182, 21 R367, R368, R370). -/
structure ContextDesc where
  map : Nat
  handlerMask : Word
  watchdog : Nat
  roots : List (Nat × Nat)
  spillLimit : Nat
  logBase : Nat
  logLen : Nat
  deriving DecidableEq, Repr

/-- One constructor per row of spec/opcode_table.json, in its order. -/
inductive Instr
  | iadd (w : LR)
  | isub (w : LR)
  | imul (w : LR)
  | imulhi (w : LR)
  | imulhu (w : LR)
  | imad (w : LR)
  | imin (w : LR)
  | imax (w : LR)
  | iminu (w : LR)
  | imaxu (w : LR)
  | and (w : LR)
  | or (w : LR)
  | xor (w : LR)
  | andn (w : LR)
  | shl (w : LR)
  | shr (w : LR)
  | sar (w : LR)
  | popc (w : LRA)
  | clz (w : LRA)
  | brev (w : LRA)
  | iaddsat (w : LR)
  | icmpEq (w : LC)
  | icmpNe (w : LC)
  | icmpLt (w : LC)
  | icmpLe (w : LC)
  | icmpGt (w : LC)
  | icmpGe (w : LC)
  | icmpLtu (w : LC)
  | icmpLeu (w : LC)
  | icmpGtu (w : LC)
  | icmpGeu (w : LC)
  | fcmpEq (w : LC)
  | fcmpNe (w : LC)
  | fcmpLt (w : LC)
  | fcmpLe (w : LC)
  | fcmpGt (w : LC)
  | fcmpGe (w : LC)
  | fcmpOrd (w : LC)
  | fcmpUno (w : LC)
  | pand (w : LCP)
  | por (w : LCP)
  | pxor (w : LCP)
  | pnot (w : LCN)
  | sel (w : LR)
  | ballot (w : LBal)
  | shfl (w : LR)
  | shflx (w : LR)
  | iaddi (w : LI)
  | andi (w : LI)
  | ori (w : LI)
  | xori (w : LI)
  | shli (w : LI5)
  | shri (w : LI5)
  | sari (w : LI5)
  | imuli (w : LI)
  | movi (w : LW)
  | movhi (w : LW)
  | mov (w : LRA)
  | movs (w : LMovs)
  | movsr (w : LMovsr)
  | movp (w : LMovp)
  | pmov (w : LPmov)
  | fadd (w : LR)
  | fsub (w : LR)
  | fmul (w : LR)
  | ffma (w : LR)
  | fmin (w : LR)
  | fmax (w : LR)
  | fabs (w : LRA)
  | fneg (w : LRA)
  | badd2 (w : LR)
  | bmul2 (w : LR)
  | bfma2 (w : LR)
  | hfma2 (w : LR)
  | rcp (w : LRA)
  | rsq (w : LRA)
  | exp2 (w : LRA)
  | log2 (w : LRA)
  | sin (w : LRA)
  | cos (w : LRA)
  | tanh (w : LRA)
  | cvt (w : LI)
  | ld8 (w : LM)
  | ld8s (w : LM)
  | ld16 (w : LM)
  | ld16s (w : LM)
  | ld32 (w : LM)
  | ld64 (w : LM)
  | ld128 (w : LM)
  | st8 (w : LMSt)
  | st16 (w : LMSt)
  | st32 (w : LMSt)
  | st64 (w : LMSt)
  | st128 (w : LMSt)
  | ldaq32 (w : LMS)
  | ldaq64 (w : LMS)
  | strl32 (w : LMS)
  | strl64 (w : LMS)
  | pref (w : LMPref)
  | atomAdd (w : LAtom)
  | atomAdd64 (w : LAtom)
  | atomFadd (w : LAtom)
  | atomImin (w : LAtom)
  | atomImax (w : LAtom)
  | atomIminu (w : LAtom)
  | atomImaxu (w : LAtom)
  | atomAnd (w : LAtom)
  | atomOr (w : LAtom)
  | atomXor (w : LAtom)
  | atomXchg (w : LAtom)
  | atomIncb (w : LAtom)
  | atomCas32 (w : LAtom)
  | atomCas64 (w : LAtom)
  | atomCas128 (w : LAtom)
  | atomAddMap2 (w : LAtom)
  | atomAdd64Map2 (w : LAtom)
  | atomFaddMap2 (w : LAtom)
  | atomIminMap2 (w : LAtom)
  | atomImaxMap2 (w : LAtom)
  | atomIminuMap2 (w : LAtom)
  | atomImaxuMap2 (w : LAtom)
  | atomAndMap2 (w : LAtom)
  | atomOrMap2 (w : LAtom)
  | atomXorMap2 (w : LAtom)
  | atomXchgMap2 (w : LAtom)
  | atomIncbMap2 (w : LAtom)
  | atomCas32Map2 (w : LAtom)
  | atomCas64Map2 (w : LAtom)
  | atomCas128Map2 (w : LAtom)
  | fence (w : LFence)
  | fenceAcq (w : LFence)
  | fenceRel (w : LFence)
  | waita (w : LMS)
  | lld8 (w : LL)
  | lld16 (w : LL)
  | lld32 (w : LL)
  | lld64 (w : LL)
  | lld128 (w : LL)
  | lst8 (w : LL)
  | lst16 (w : LL)
  | lst32 (w : LL)
  | lst64 (w : LL)
  | lst128 (w : LL)
  | tld8 (w : LL)
  | tld16 (w : LL)
  | tld32 (w : LL)
  | plnw (w : LL)
  | plnr (w : LL)
  | tebq (w : LTeb)
  | tebl (w : LTeb)
  | latomAdd (w : LL)
  | latomImin (w : LL)
  | latomImax (w : LL)
  | latomAnd (w : LL)
  | latomOr (w : LL)
  | latomXor (w : LL)
  | latomXchg (w : LL)
  | latomCas (w : LL)
  | bra (w : LB)
  | call (w : LB)
  | callr (w : LJ)
  | ret (w : LG)
  | jmpr (w : LJ)
  | rcb (w : LG)
  | exit (w : LG)
  | setpri (w : LSetpri)
  | yield (w : LG)
  | trap (w : LTrap)
  | brk (w : LG)
  | join (w : LBar)
  | leave (w : LBar)
  | bara (w : LBar)
  | barw (w : LBar)
  | bars (w : LBar)
  | rkpush (w : LRk)
  | acadd (w : LAcadd)
  | rktest (w : LRktest)
  | bmrank (w : LM)
  | bmsel (w : LM)
  | uadd (w : UR)
  | usub (w : UR)
  | umul (w : UR)
  | uand (w : UR)
  | uor (w : UR)
  | uxor (w : UR)
  | ushl (w : UR)
  | ushr (w : URM)
  | umin (w : URM)
  | umax (w : URM)
  | usel (w : UR)
  | uaddi (w : UI)
  | ushli (w : UI5)
  | uandi (w : UI)
  | umovi (w : UW)
  | umovhi (w : UW)
  | ucmpEq (w : UCab)
  | ucmpNe (w : UCab)
  | ucmpLt (w : UCab)
  | ucmpLe (w : UCab)
  | ucmpGt (w : UCab)
  | ucmpGe (w : UCab)
  | ucmpLtu (w : UCab)
  | ucmpLeu (w : UCab)
  | ucmpGtu (w : UCab)
  | ucmpGeu (w : UCab)
  | umovsr (w : UMovsr)
  | umov (w : UDA)
  | uld32 (w : UI)
  | uld64 (w : UI)
  | ust32 (w : UI)
  | ust64 (w : UI)
  | ubra (w : UB)
  | jmpf (w : UAB)
  | cfetch (w : UA)
  | csegq (w : UCa)
  | launch (w : UDA)
  | joinl (w : UDA)
  | mstart (w : UAB)
  | btcopy (w : UA)
  | bttest (w : UCab)
  | waitc (w : UWaitc)
  | qbind (w : UQbind)
  | qstat (w : UDA)
  | rclaim (w : URing)
  | rpub (w : UAB)
  | rtake (w : URing)
  | rfree (w : UAB)
  | barrem (w : UA)
  | bkopAdd (w : UA)
  | bkopMul (w : UA)
  | bkopMax (w : UA)
  | bkopMin (w : UA)
  | bkopAxpy (w : UA)
  | bkopCvt (w : UA)
  | bkred (w : UA)
  | bkrank (w : UA)
  | bkrankCommit (w : UA)
  | bkread (w : UAB)
  | acdeclSum (w : UAcdecl)
  | acdeclRank (w : UAcdecl)
  | acclr (w : UAcc)
  | acst (w : UAccA)
  | acmrg (w : UAccA)
  | acraise (w : UAccA)
  | accmp (w : UAccmp)
  | acrd (w : UAcrd)
  | mma (w : URM)
  | mzero (w : UAcc)
  | mpost (w : UMpost)
  | mact (w : UAB)
  | mend (w : UC)
  | ecnt (w : UDA)
  | rtlook (w : UR)
  | rtpin (w : UD)
  | rtunpin (w : UA)
  | rtmerge (w : UA)
  | syscall (w : UI)
  | utrap (w : UImm)
  | loadDataLands (op : Nat) (lane : LaneWord)
  | storeAtHome (op lane : Nat)
  | storeAckReturns (op : Nat)
  | atomicExecutes (op lane : Nat)
  | atomicReply (op lane : Nat)
  | remoteScratchpadAccess (op lane : Nat)
  | monitorWake (h g lane : Nat)
  | monitorRetryTimer (h g lane : Nat)
  | pageFaultResolved (t : PageTarget)
  | pageFaultRefused (t : PageTarget)
  | pageMoveRequest (die ctx va frame : Nat)
  | moveProtectDone (die m : Nat)
  | moveCopyDone (die m : Nat)
  | moveCopyAbort (die m : Nat)
  | moveCommitDone (die m : Nat)
  | moveIdle (die m : Nat)
  | shootdownComplete (sd : Nat)
  | formatWindowEnable (die win : Nat) (value : DWord)
  | launchAcceptance (l : Nat)
  | walkerAcceptRecord (l : Nat)
  | walkerCommitTile (l : Nat)
  | walkerResume (l : Nat)
  | walkerRefused (l : Nat)
  | dispatchTask (die : Nat)
  | spanPlacement (die : Nat)
  | taskStart (h : Nat)
  | mergeWindowClose (die : Nat)
  | taskEnd (h : Nat)
  | launchComplete (l : Nat)
  | segmentFetchLands (f : Nat)
  | transferStart (t : Nat)
  | chunkComplete (t : Nat) (chunk : ChunkIssue)
  | transferComplete (t : Nat)
  | transferPageFault (t : Nat)
  | transferRestart (t : Nat)
  | transferFailed (t : Nat)
  | transferDrainTimeout (t : Nat)
  | bankCommandComplete (b : Nat)
  | streamStart (k i : Nat)
  | matrixWordComplete (k : Nat) (post : Bool)
  | streamStop (h : Nat)
  | routedOffer (k : Nat)
  | inserterInsertion (h g : Nat)
  | windowClose
  | windowCloseReceived (die : Nat)
  | placementEvaluation
  | generationPublish (j : Nat)
  | generationCopyFail (j : Nat)
  | replicaWithdraw (j e c : Nat)
  | rtmergeComplete (m : Nat)
  | cpyfailRead
  | wdrawRead
  | ringEnable (die r : Nat) (value : DWord)
  | ringDisable (die : Nat) (r : RingValue)
  | ringCommandArrival (c : Nat)
  | ringReply (c : Nat)
  | ringDead (die r : Nat)
  | barremNoticeArrival (n : Nat)
  | noticeAcknowledged (n : Nat)
  | faultDisposal (die : Nat)
  | handlerContinue (h g : Nat)
  | handlerEnd (h g : Nat)
  | watchdog (a : AgentRef)
  | endTask (h : Nat)
  | syscallReply (h g lane : Nat) (reply : Word)
  | preemptRequest (h : Nat)
  | preemptSave (h : Nat)
  | taskRestore (idx core : Nat)
  | correctedError (die : Nat)
  | uncorrectableError (t : PoisonTarget)
  | queueEnable (die q : Nat) (value : DWord)
  | queueDisable (die q : Nat)
  | doorbell (die q : Nat) (tail : Word)
  | queueEntryTake (die q : Nat)
  | shootdown (cmd : ControlCmd)
  | takeDieOffline (cmd : ControlCmd)
  | tearDownContext (cmd : ControlCmd)
  | quote (cmd : ControlCmd)
  | stageSuccessorKernel (cmd : ControlCmd)
  | latencyTolerance (cmd : ControlCmd)
  | registerWrite (die off size : Nat) (value : DWord)
  | powerOn (bootDie : BitVec 2)
  | bootReadyTimeout
  | firstStageImage (image : List Byte)
  | versionNegotiation (l : LinkRef) (lo1 hi1 lo2 hi2 : Nat)
  | edgeDown (edge : Nat)
  | linkCrcFailure (l : LinkRef)
  | oldKernelReady
  | oldKernelJump
  | successorAdopt (table : Nat)
  | successorCheckIn
  | handoverTimeout
  | reductionPayload (port : Nat) (sent : Bool) (payload : List Byte)
  | lehrEntry
  | lehrExit (need : Nat)
  | lehrExitComplete
  | contextInstall (num : Nat) (desc : ContextDesc)
  | contextMapChange (num map : Nat)
  | expertCommandArrival (c : Nat)
  | expertCommandReply (c : Nat)
  | writeAtDiePoint (op lane : Nat)
  | remoteScratchpadReply (op lane : Nat)
  | systemSoftwareMemoryWrite (pa : Nat) (data : List Byte)
  deriving DecidableEq, Repr

end Sys2Proof
end

