-- ==== Sys2Proof/Machine/Checks.lean ====
section
/-!
DEFINITION. The checks of a word's operand fields: the causes of ILLEGAL (03 Table 3-7) that a decoded word can
still show, lowest cause first.
-/
namespace Sys2Proof

/-- Why a word is not an instruction where it stands: the causes of 03 Table 3-7. -/
inductive Reject
  | unmapped
  | reserved
  | scope
  | queuePort
  | group
  | policy
  | immediate
  | place
  | target
  | pastEnd
  deriving DecidableEq, Repr

/-- The cause code. -/
def Reject.cause (r : Reject) : Nat :=
  match r with
  | .unmapped => 1
  | .reserved => 2
  | .scope => 3
  | .queuePort => 4
  | .group => 5
  | .policy => 6
  | .immediate => 7
  | .place => 8
  | .target => 9
  | .pastEnd => 10

namespace Checks

/-- The first check of a list that fails. -/
def first (l : List (Bool × Reject)) : Option Reject :=
  match l with
  | [] => none
  | (b, r) :: t => if b then some r else first t

/-- A lane-register field that names a queue port (03 R46). -/
def port (r : BitVec 5) : Bool := decide (28 ≤ r.toNat)

/-- A group of `n` lane registers that is misaligned or leaves v0-v27 (03 R45); one register is no group. -/
def badGroup (n : Nat) (r : BitVec 5) : Bool :=
  decide (n ≠ 1 ∧ (r.toNat % n ≠ 0 ∨ 28 < r.toNat + n))

/-- A pair of s registers that starts at an odd one (03 R45). -/
def oddPair (r : BitVec 5) : Bool := r.getLsbD 0

/-- Ports of a word with two sources: two source ports, a held or trapping port, a port in a d that is also read
(03 R46). -/
def badPorts (readsD : Bool) (w : LR) : Bool :=
  (port w.a && port w.b) || (readsD && port w.d) || (port w.a && (w.h || w.ea)) || (port w.b && w.eb)

/-- LR words. -/
def lr (readsD : Bool) (w : LR) : Option Reject := first [(badPorts readsD w, .queuePort)]

/-- LR words of one source. -/
def lra (w : LRA) : Option Reject := first [(port w.a && (w.h || w.ea), .queuePort)]

/-- LC compares. -/
def lc (w : LC) : Option Reject :=
  first [((port w.a && port w.b) || (port w.a && (w.h || w.ea)) || (port w.b && w.eb), .queuePort)]

/-- LW words name no port. -/
def lw (w : LW) : Option Reject := first [(port w.d, .queuePort)]

/-- The special registers of 05 Table 5-3. -/
def special (n : BitVec 8) : Bool := decide (n.toNat ≤ 0x1D)

/-- MOVSR. -/
def movsr (w : LMovsr) : Option Reject := first [(!special w.imm, .immediate)]

/-- The conversion codes of 04 R76. -/
def cvtCode (c : BitVec 8) : Bool :=
  !((c.extractLsb' 4 4 = 5 || c.extractLsb' 4 4 = 7 || c.extractLsb' 4 4 = 9 || c.extractLsb' 4 4 = 11 ||
      c.extractLsb' 4 4 = 14) && (c.extractLsb' 2 2 ≠ 0 || c.getLsbD 1))

/-- CVT. -/
def cvt (w : LI) : Option Reject := first [(!cvtCode w.imm, .immediate)]

/-- LM loads, and BMRANK and BMSEL, of a group of `n`. -/
def lm (n : Nat) (w : LM) : Option Reject :=
  first [(port w.d || port w.a, .queuePort), (badGroup n w.d || oddPair w.sb, .group), (w.pol = 3, .policy)]

/-- LM plain stores of a group of `n`. -/
def lmst (n : Nat) (w : LMSt) : Option Reject :=
  first [(port w.d || port w.a, .queuePort), (badGroup n w.d || oddPair w.sb, .group), (w.pol = 3, .policy)]

/-- LM words with a scope code. -/
def lms (n : Nat) (w : LMS) : Option Reject :=
  first [(w.scope = 7, .scope), (port w.d || port w.a, .queuePort), (badGroup n w.d || oddPair w.sb, .group)]

/-- Atomics. -/
def latom (n : Nat) (w : LAtom) : Option Reject :=
  first [(w.scope = 7, .scope), (port w.d || port w.a, .queuePort), (badGroup n w.d || oddPair w.sb, .group)]

/-- PREF. -/
def lpref (w : LMPref) : Option Reject :=
  first [(port w.a, .queuePort), (oddPair w.sb, .group), (w.pol = 3, .policy)]

/-- FENCE. -/
def fence (w : LFence) : Option Reject := first [(w.scope = 7, .scope)]

/-- LL words of a group of `n`. -/
def ll (n : Nat) (w : LL) : Option Reject :=
  first [(port w.d || port w.a, .queuePort), (badGroup n w.d, .group)]

/-- TEBQ and TEBL. -/
def lteb (w : LTeb) : Option Reject := first [(port w.d || port w.a, .queuePort)]

/-- CALLR and JMPR. -/
def lj (w : LJ) : Option Reject := first [(port w.a, .queuePort), (badGroup 2 w.a, .group)]

/-- Barrier words: a is reserved unless the immediate is 0xFF (07 Table 7-4). -/
def lbar (w : LBar) : Option Reject :=
  first [(w.imm ≠ 0xFF && w.a ≠ 0, .reserved), (decide (96 ≤ w.imm.toNat ∧ w.imm.toNat ≤ 254), .immediate)]

/-- RKPUSH. -/
def lrk (w : LRk) : Option Reject :=
  first [((port w.a && port w.b) || (port w.a && (w.h || w.ea)) || (port w.b && w.eb), .queuePort)]

/-- RKTEST. -/
def lrktest (w : LRktest) : Option Reject := first [(port w.a && port w.b, .queuePort)]

/-- A uniform word, given its s pairs. -/
def pairs (l : List (BitVec 5)) : Option Reject := first [(l.any oddPair, .group)]

end Checks

/-- The causes 2-7 that a decoded word still shows (03 R45-R48, R57; Tables 3-4, 3-5). -/
def Instr.check (i : Instr) : Option Reject :=
  match i with
  | .iadd w => Checks.lr false w
  | .isub w => Checks.lr false w
  | .imul w => Checks.lr false w
  | .imulhi w => Checks.lr false w
  | .imulhu w => Checks.lr false w
  | .imad w => Checks.lr true w
  | .imin w => Checks.lr false w
  | .imax w => Checks.lr false w
  | .iminu w => Checks.lr false w
  | .imaxu w => Checks.lr false w
  | .and w => Checks.lr false w
  | .or w => Checks.lr false w
  | .xor w => Checks.lr false w
  | .andn w => Checks.lr false w
  | .shl w => Checks.lr false w
  | .shr w => Checks.lr false w
  | .sar w => Checks.lr false w
  | .popc w => Checks.lra w
  | .clz w => Checks.lra w
  | .brev w => Checks.lra w
  | .iaddsat w => Checks.lr false w
  | .icmpEq w => Checks.lc w
  | .icmpNe w => Checks.lc w
  | .icmpLt w => Checks.lc w
  | .icmpLe w => Checks.lc w
  | .icmpGt w => Checks.lc w
  | .icmpGe w => Checks.lc w
  | .icmpLtu w => Checks.lc w
  | .icmpLeu w => Checks.lc w
  | .icmpGtu w => Checks.lc w
  | .icmpGeu w => Checks.lc w
  | .fcmpEq w => Checks.lc w
  | .fcmpNe w => Checks.lc w
  | .fcmpLt w => Checks.lc w
  | .fcmpLe w => Checks.lc w
  | .fcmpGt w => Checks.lc w
  | .fcmpGe w => Checks.lc w
  | .fcmpOrd w => Checks.lc w
  | .fcmpUno w => Checks.lc w
  | .pand _ => none
  | .por _ => none
  | .pxor _ => none
  | .pnot _ => none
  | .sel w => Checks.lr false w
  | .ballot _ => none
  | .shfl w => Checks.lr false w
  | .shflx w => Checks.lr false w
  | .iaddi _ => none
  | .andi _ => none
  | .ori _ => none
  | .xori _ => none
  | .shli _ => none
  | .shri _ => none
  | .sari _ => none
  | .imuli _ => none
  | .movi w => Checks.lw w
  | .movhi w => Checks.lw w
  | .mov w => Checks.lra w
  | .movs _ => none
  | .movsr w => Checks.movsr w
  | .movp _ => none
  | .pmov w => Checks.first [(Checks.port w.a && (w.h || w.ea), .queuePort)]
  | .fadd w => Checks.lr false w
  | .fsub w => Checks.lr false w
  | .fmul w => Checks.lr false w
  | .ffma w => Checks.lr true w
  | .fmin w => Checks.lr false w
  | .fmax w => Checks.lr false w
  | .fabs w => Checks.lra w
  | .fneg w => Checks.lra w
  | .badd2 w => Checks.lr false w
  | .bmul2 w => Checks.lr false w
  | .bfma2 w => Checks.lr true w
  | .hfma2 w => Checks.lr true w
  | .rcp w => Checks.lra w
  | .rsq w => Checks.lra w
  | .exp2 w => Checks.lra w
  | .log2 w => Checks.lra w
  | .sin w => Checks.lra w
  | .cos w => Checks.lra w
  | .tanh w => Checks.lra w
  | .cvt w => Checks.cvt w
  | .ld8 w => Checks.lm 1 w
  | .ld8s w => Checks.lm 1 w
  | .ld16 w => Checks.lm 1 w
  | .ld16s w => Checks.lm 1 w
  | .ld32 w => Checks.lm 1 w
  | .ld64 w => Checks.lm 2 w
  | .ld128 w => Checks.lm 4 w
  | .st8 w => Checks.lmst 1 w
  | .st16 w => Checks.lmst 1 w
  | .st32 w => Checks.lmst 1 w
  | .st64 w => Checks.lmst 2 w
  | .st128 w => Checks.lmst 4 w
  | .ldaq32 w => Checks.lms 1 w
  | .ldaq64 w => Checks.lms 2 w
  | .strl32 w => Checks.lms 1 w
  | .strl64 w => Checks.lms 2 w
  | .pref w => Checks.lpref w
  | .atomAdd w => Checks.latom 1 w
  | .atomAdd64 w => Checks.latom 2 w
  | .atomFadd w => Checks.latom 1 w
  | .atomImin w => Checks.latom 1 w
  | .atomImax w => Checks.latom 1 w
  | .atomIminu w => Checks.latom 1 w
  | .atomImaxu w => Checks.latom 1 w
  | .atomAnd w => Checks.latom 1 w
  | .atomOr w => Checks.latom 1 w
  | .atomXor w => Checks.latom 1 w
  | .atomXchg w => Checks.latom 1 w
  | .atomIncb w => Checks.latom 1 w
  | .atomCas32 w => Checks.latom 2 w
  | .atomCas64 w => Checks.latom 4 w
  | .atomCas128 w => Checks.latom 8 w
  | .atomAddMap2 w => Checks.latom 1 w
  | .atomAdd64Map2 w => Checks.latom 2 w
  | .atomFaddMap2 w => Checks.latom 1 w
  | .atomIminMap2 w => Checks.latom 1 w
  | .atomImaxMap2 w => Checks.latom 1 w
  | .atomIminuMap2 w => Checks.latom 1 w
  | .atomImaxuMap2 w => Checks.latom 1 w
  | .atomAndMap2 w => Checks.latom 1 w
  | .atomOrMap2 w => Checks.latom 1 w
  | .atomXorMap2 w => Checks.latom 1 w
  | .atomXchgMap2 w => Checks.latom 1 w
  | .atomIncbMap2 w => Checks.latom 1 w
  | .atomCas32Map2 w => Checks.latom 2 w
  | .atomCas64Map2 w => Checks.latom 4 w
  | .atomCas128Map2 w => Checks.latom 8 w
  | .fence w => Checks.fence w
  | .fenceAcq w => Checks.fence w
  | .fenceRel w => Checks.fence w
  | .waita w => Checks.lms 1 w
  | .lld8 w => Checks.ll 1 w
  | .lld16 w => Checks.ll 1 w
  | .lld32 w => Checks.ll 1 w
  | .lld64 w => Checks.ll 2 w
  | .lld128 w => Checks.ll 4 w
  | .lst8 w => Checks.ll 1 w
  | .lst16 w => Checks.ll 1 w
  | .lst32 w => Checks.ll 1 w
  | .lst64 w => Checks.ll 2 w
  | .lst128 w => Checks.ll 4 w
  | .tld8 w => Checks.ll 2 w
  | .tld16 w => Checks.ll 2 w
  | .tld32 w => Checks.ll 2 w
  | .plnw w => Checks.ll 1 w
  | .plnr w => Checks.ll 1 w
  | .tebq w => Checks.lteb w
  | .tebl w => Checks.lteb w
  | .latomAdd w => Checks.ll 1 w
  | .latomImin w => Checks.ll 1 w
  | .latomImax w => Checks.ll 1 w
  | .latomAnd w => Checks.ll 1 w
  | .latomOr w => Checks.ll 1 w
  | .latomXor w => Checks.ll 1 w
  | .latomXchg w => Checks.ll 1 w
  | .latomCas w => Checks.ll 2 w
  | .bra _ => none
  | .call _ => none
  | .callr w => Checks.lj w
  | .ret _ => none
  | .jmpr w => Checks.lj w
  | .rcb _ => none
  | .exit _ => none
  | .setpri _ => none
  | .yield _ => none
  | .trap _ => none
  | .brk _ => none
  | .join w => Checks.lbar w
  | .leave w => Checks.lbar w
  | .bara w => Checks.lbar w
  | .barw w => Checks.lbar w
  | .bars w => Checks.lbar w
  | .rkpush w => Checks.lrk w
  | .acadd w => Checks.first [(Checks.port w.a && (w.h || w.ea), .queuePort)]
  | .rktest w => Checks.lrktest w
  | .bmrank w => Checks.lm 1 w
  | .bmsel w => Checks.lm 1 w
  | .uadd _ => none
  | .usub _ => none
  | .umul _ => none
  | .uand _ => none
  | .uor _ => none
  | .uxor _ => none
  | .ushl _ => none
  | .ushr _ => none
  | .umin _ => none
  | .umax _ => none
  | .usel _ => none
  | .uaddi _ => none
  | .ushli _ => none
  | .uandi _ => none
  | .umovi _ => none
  | .umovhi _ => none
  | .ucmpEq _ => none
  | .ucmpNe _ => none
  | .ucmpLt _ => none
  | .ucmpLe _ => none
  | .ucmpGt _ => none
  | .ucmpGe _ => none
  | .ucmpLtu _ => none
  | .ucmpLeu _ => none
  | .ucmpGtu _ => none
  | .ucmpGeu _ => none
  | .umovsr w => Checks.first [(!Checks.special w.imm, .immediate)]
  | .umov _ => none
  | .uld32 w => Checks.pairs [w.a]
  | .uld64 w => Checks.pairs [w.d, w.a]
  | .ust32 w => Checks.pairs [w.a]
  | .ust64 w => Checks.pairs [w.d, w.a]
  | .ubra _ => none
  | .jmpf _ => none
  | .cfetch _ => none
  | .csegq _ => none
  | .launch w => Checks.pairs [w.a]
  | .joinl _ => none
  | .mstart w => Checks.pairs [w.b]
  | .btcopy w => Checks.pairs [w.a]
  | .bttest w => Checks.pairs [w.a]
  | .waitc w => Checks.first [(decide (5 ≤ w.cls.toNat), .immediate)]
  | .qbind _ => none
  | .qstat _ => none
  | .rclaim _ => none
  | .rpub _ => none
  | .rtake _ => none
  | .rfree _ => none
  | .barrem _ => none
  | .bkopAdd w => Checks.pairs [w.a]
  | .bkopMul w => Checks.pairs [w.a]
  | .bkopMax w => Checks.pairs [w.a]
  | .bkopMin w => Checks.pairs [w.a]
  | .bkopAxpy w => Checks.pairs [w.a]
  | .bkopCvt w => Checks.pairs [w.a]
  | .bkred w => Checks.pairs [w.a]
  | .bkrank w => Checks.pairs [w.a]
  | .bkrankCommit w => Checks.pairs [w.a]
  | .bkread w => Checks.pairs [w.a]
  | .acdeclSum _ => none
  | .acdeclRank _ => none
  | .acclr _ => none
  | .acst w => Checks.pairs [w.a]
  | .acmrg w => Checks.pairs [w.a]
  | .acraise _ => none
  | .accmp _ => none
  | .acrd w => Checks.pairs [w.d]
  | .mma _ => none
  | .mzero _ => none
  | .mpost _ => none
  | .mact w => Checks.pairs [w.a]
  | .mend _ => none
  | .ecnt _ => none
  | .rtlook w => Checks.pairs [w.d]
  | .rtpin _ => none
  | .rtunpin _ => none
  | .rtmerge w => Checks.pairs [w.a]
  | .syscall _ => none
  | .utrap _ => none
  | .loadDataLands _ _ => none
  | .storeAtHome _ _ => none
  | .storeAckReturns _ => none
  | .atomicExecutes _ _ => none
  | .atomicReply _ _ => none
  | .remoteScratchpadAccess _ _ => none
  | .monitorWake _ _ _ => none
  | .monitorRetryTimer _ _ _ => none
  | .pageFaultResolved _ => none
  | .pageFaultRefused _ => none
  | .pageMoveRequest _ _ _ _ => none
  | .moveProtectDone _ _ => none
  | .moveCopyDone _ _ => none
  | .moveCopyAbort _ _ => none
  | .moveCommitDone _ _ => none
  | .moveIdle _ _ => none
  | .shootdownComplete _ => none
  | .formatWindowEnable _ _ _ => none
  | .launchAcceptance _ => none
  | .walkerAcceptRecord _ => none
  | .walkerCommitTile _ => none
  | .walkerResume _ => none
  | .walkerRefused _ => none
  | .dispatchTask _ => none
  | .spanPlacement _ => none
  | .taskStart _ => none
  | .mergeWindowClose _ => none
  | .taskEnd _ => none
  | .launchComplete _ => none
  | .segmentFetchLands _ => none
  | .transferStart _ => none
  | .chunkComplete _ _ => none
  | .transferComplete _ => none
  | .transferPageFault _ => none
  | .transferRestart _ => none
  | .transferFailed _ => none
  | .transferDrainTimeout _ => none
  | .bankCommandComplete _ => none
  | .streamStart _ _ => none
  | .matrixWordComplete _ _ => none
  | .streamStop _ => none
  | .routedOffer _ => none
  | .inserterInsertion _ _ => none
  | .windowClose => none
  | .windowCloseReceived _ => none
  | .placementEvaluation => none
  | .generationPublish _ => none
  | .generationCopyFail _ => none
  | .replicaWithdraw _ _ _ => none
  | .rtmergeComplete _ => none
  | .cpyfailRead => none
  | .wdrawRead => none
  | .ringEnable _ _ _ => none
  | .ringDisable _ _ => none
  | .ringCommandArrival _ => none
  | .ringReply _ => none
  | .ringDead _ _ => none
  | .barremNoticeArrival _ => none
  | .noticeAcknowledged _ => none
  | .faultDisposal _ => none
  | .handlerContinue _ _ => none
  | .handlerEnd _ _ => none
  | .watchdog _ => none
  | .endTask _ => none
  | .syscallReply _ _ _ _ => none
  | .preemptRequest _ => none
  | .preemptSave _ => none
  | .taskRestore _ _ => none
  | .correctedError _ => none
  | .uncorrectableError _ => none
  | .queueEnable _ _ _ => none
  | .queueDisable _ _ => none
  | .doorbell _ _ _ => none
  | .queueEntryTake _ _ => none
  | .shootdown _ => none
  | .takeDieOffline _ => none
  | .tearDownContext _ => none
  | .quote _ => none
  | .stageSuccessorKernel _ => none
  | .latencyTolerance _ => none
  | .registerWrite _ _ _ _ => none
  | .powerOn _ => none
  | .bootReadyTimeout => none
  | .firstStageImage _ => none
  | .versionNegotiation _ _ _ _ _ => none
  | .edgeDown _ => none
  | .linkCrcFailure _ => none
  | .oldKernelReady => none
  | .oldKernelJump => none
  | .successorAdopt _ => none
  | .successorCheckIn => none
  | .handoverTimeout => none
  | .reductionPayload _ _ _ => none
  | .lehrEntry => none
  | .lehrExit _ => none
  | .lehrExitComplete => none
  | .contextInstall _ _ => none
  | .contextMapChange _ _ => none
  | .expertCommandArrival _ => none
  | .expertCommandReply _ => none
  | .writeAtDiePoint _ _ => none
  | .remoteScratchpadReply _ _ => none
  | .systemSoftwareMemoryWrite _ _ => none

/-- Words that only a matrix stream may issue (03 R55). -/
def Instr.matrixWord (i : Instr) : Bool :=
  match i with
  | .mma _ | .mzero _ | .mpost _ | .mact _ | .mend _ => true
  | _ => false

/-- Words that a matrix stream may issue (03 R55). -/
def Instr.streamWord (i : Instr) : Bool :=
  match i with
  | .uadd _ | .usub _ | .umul _ | .uand _ | .uor _ | .uxor _ | .ushl _ | .ushr _ | .umin _ | .umax _ | .usel _ | .uaddi _ | .ushli _ | .uandi _ | .umovi _ | .umovhi _ | .umovsr _ | .umov _ | .uld32 _ | .uld64 _ | .ust32 _ | .ust64 _ | .ubra _ | .waitc _ | .barrem _ | .mma _ | .mzero _ | .mpost _ | .mact _ | .mend _ | .utrap _ | .ucmpEq _ | .ucmpNe _ | .ucmpLt _ | .ucmpLe _ | .ucmpGt _ | .ucmpGe _ | .ucmpLtu _ | .ucmpLeu _ | .ucmpGtu _ | .ucmpGeu _ => true
  | _ => false

/-- Lane words that read uniform registers: MOVS, and the LM words, whose base is a pair (05 R91, R96, 09 R201). -/
def Instr.readsPair (i : Instr) : Bool :=
  match i with
  | .movs _ | .ld8 _ | .ld8s _ | .ld16 _ | .ld16s _ | .ld32 _ | .ld64 _ | .ld128 _ | .st8 _ | .st16 _ | .st32 _ | .st64 _ | .st128 _ => true
  | .ldaq32 _ | .ldaq64 _ | .strl32 _ | .strl64 _ | .waita _ | .pref _ | .bmrank _ | .bmsel _ => true
  | .atomAdd _ | .atomAdd64 _ | .atomFadd _ | .atomImin _ | .atomImax _ | .atomIminu _ | .atomImaxu _ | .atomAnd _ | .atomOr _ | .atomXor _ | .atomXchg _ | .atomIncb _ | .atomCas32 _ | .atomCas64 _ | .atomCas128 _ => true
  | .atomAddMap2 _ | .atomAdd64Map2 _ | .atomFaddMap2 _ | .atomIminMap2 _ | .atomImaxMap2 _ | .atomIminuMap2 _ | .atomImaxuMap2 _ | .atomAndMap2 _ | .atomOrMap2 _ | .atomXorMap2 _ | .atomXchgMap2 _ | .atomIncbMap2 _ | .atomCas32Map2 _ | .atomCas64Map2 _ | .atomCas128Map2 _ => true
  | _ => false

/-- Cause 8: a matrix word in a gang, or a word outside R55's set in a stream. -/
def Instr.placeBad (stream : Bool) (i : Instr) : Bool :=
  if stream then !i.streamWord else i.matrixWord

/-- The offset a branch sends its entry to, within its segment, as an integer (07 R141, R148). -/
def branchOffset (off : Nat) (imm : BitVec 15) : Int := (off : Int) + 4 + 4 * imm.toInt

/-- Cause 9: a branch target outside the 8 KiB slot of the issuing segment (03 Table 3-7). -/
def Instr.targetBad (off : Nat) (i : Instr) : Bool :=
  let bad (imm : BitVec 15) : Bool := decide (branchOffset off imm < 0 ∨ 8192 ≤ branchOffset off imm)
  match i with
  | .bra w => bad w.imm
  | .call w => bad w.imm
  | .ubra w => bad w.imm
  | _ => false

end Sys2Proof
end

