-- ==== Sys2Proof/WellFormed.lean ====
section
/-!
DEFINITION. Well-formed instructions: those whose word passes every check that depends on the word alone
(03 R45-R48, R52-R54, R57 causes 2-7).
-/
namespace Sys2Proof

/-- The word passes the checks of its operand fields. -/
def Instr.wellFormed (i : Instr) : Bool := i.check == none

/-- The constructor stands for a word, not for an event of the device. -/
def Instr.isWord (i : Instr) : Bool :=
  match i with
  | .iadd _ => true
  | .isub _ => true
  | .imul _ => true
  | .imulhi _ => true
  | .imulhu _ => true
  | .imad _ => true
  | .imin _ => true
  | .imax _ => true
  | .iminu _ => true
  | .imaxu _ => true
  | .and _ => true
  | .or _ => true
  | .xor _ => true
  | .andn _ => true
  | .shl _ => true
  | .shr _ => true
  | .sar _ => true
  | .popc _ => true
  | .clz _ => true
  | .brev _ => true
  | .iaddsat _ => true
  | .icmpEq _ => true
  | .icmpNe _ => true
  | .icmpLt _ => true
  | .icmpLe _ => true
  | .icmpGt _ => true
  | .icmpGe _ => true
  | .icmpLtu _ => true
  | .icmpLeu _ => true
  | .icmpGtu _ => true
  | .icmpGeu _ => true
  | .fcmpEq _ => true
  | .fcmpNe _ => true
  | .fcmpLt _ => true
  | .fcmpLe _ => true
  | .fcmpGt _ => true
  | .fcmpGe _ => true
  | .fcmpOrd _ => true
  | .fcmpUno _ => true
  | .pand _ => true
  | .por _ => true
  | .pxor _ => true
  | .pnot _ => true
  | .sel _ => true
  | .ballot _ => true
  | .shfl _ => true
  | .shflx _ => true
  | .iaddi _ => true
  | .andi _ => true
  | .ori _ => true
  | .xori _ => true
  | .shli _ => true
  | .shri _ => true
  | .sari _ => true
  | .imuli _ => true
  | .movi _ => true
  | .movhi _ => true
  | .mov _ => true
  | .movs _ => true
  | .movsr _ => true
  | .movp _ => true
  | .pmov _ => true
  | .fadd _ => true
  | .fsub _ => true
  | .fmul _ => true
  | .ffma _ => true
  | .fmin _ => true
  | .fmax _ => true
  | .fabs _ => true
  | .fneg _ => true
  | .badd2 _ => true
  | .bmul2 _ => true
  | .bfma2 _ => true
  | .hfma2 _ => true
  | .rcp _ => true
  | .rsq _ => true
  | .exp2 _ => true
  | .log2 _ => true
  | .sin _ => true
  | .cos _ => true
  | .tanh _ => true
  | .cvt _ => true
  | .ld8 _ => true
  | .ld8s _ => true
  | .ld16 _ => true
  | .ld16s _ => true
  | .ld32 _ => true
  | .ld64 _ => true
  | .ld128 _ => true
  | .st8 _ => true
  | .st16 _ => true
  | .st32 _ => true
  | .st64 _ => true
  | .st128 _ => true
  | .ldaq32 _ => true
  | .ldaq64 _ => true
  | .strl32 _ => true
  | .strl64 _ => true
  | .pref _ => true
  | .atomAdd _ => true
  | .atomAdd64 _ => true
  | .atomFadd _ => true
  | .atomImin _ => true
  | .atomImax _ => true
  | .atomIminu _ => true
  | .atomImaxu _ => true
  | .atomAnd _ => true
  | .atomOr _ => true
  | .atomXor _ => true
  | .atomXchg _ => true
  | .atomIncb _ => true
  | .atomCas32 _ => true
  | .atomCas64 _ => true
  | .atomCas128 _ => true
  | .atomAddMap2 _ => true
  | .atomAdd64Map2 _ => true
  | .atomFaddMap2 _ => true
  | .atomIminMap2 _ => true
  | .atomImaxMap2 _ => true
  | .atomIminuMap2 _ => true
  | .atomImaxuMap2 _ => true
  | .atomAndMap2 _ => true
  | .atomOrMap2 _ => true
  | .atomXorMap2 _ => true
  | .atomXchgMap2 _ => true
  | .atomIncbMap2 _ => true
  | .atomCas32Map2 _ => true
  | .atomCas64Map2 _ => true
  | .atomCas128Map2 _ => true
  | .fence _ => true
  | .fenceAcq _ => true
  | .fenceRel _ => true
  | .waita _ => true
  | .lld8 _ => true
  | .lld16 _ => true
  | .lld32 _ => true
  | .lld64 _ => true
  | .lld128 _ => true
  | .lst8 _ => true
  | .lst16 _ => true
  | .lst32 _ => true
  | .lst64 _ => true
  | .lst128 _ => true
  | .tld8 _ => true
  | .tld16 _ => true
  | .tld32 _ => true
  | .plnw _ => true
  | .plnr _ => true
  | .tebq _ => true
  | .tebl _ => true
  | .latomAdd _ => true
  | .latomImin _ => true
  | .latomImax _ => true
  | .latomAnd _ => true
  | .latomOr _ => true
  | .latomXor _ => true
  | .latomXchg _ => true
  | .latomCas _ => true
  | .bra _ => true
  | .call _ => true
  | .callr _ => true
  | .ret _ => true
  | .jmpr _ => true
  | .rcb _ => true
  | .exit _ => true
  | .setpri _ => true
  | .yield _ => true
  | .trap _ => true
  | .brk _ => true
  | .join _ => true
  | .leave _ => true
  | .bara _ => true
  | .barw _ => true
  | .bars _ => true
  | .rkpush _ => true
  | .acadd _ => true
  | .rktest _ => true
  | .bmrank _ => true
  | .bmsel _ => true
  | .uadd _ => true
  | .usub _ => true
  | .umul _ => true
  | .uand _ => true
  | .uor _ => true
  | .uxor _ => true
  | .ushl _ => true
  | .ushr _ => true
  | .umin _ => true
  | .umax _ => true
  | .usel _ => true
  | .uaddi _ => true
  | .ushli _ => true
  | .uandi _ => true
  | .umovi _ => true
  | .umovhi _ => true
  | .ucmpEq _ => true
  | .ucmpNe _ => true
  | .ucmpLt _ => true
  | .ucmpLe _ => true
  | .ucmpGt _ => true
  | .ucmpGe _ => true
  | .ucmpLtu _ => true
  | .ucmpLeu _ => true
  | .ucmpGtu _ => true
  | .ucmpGeu _ => true
  | .umovsr _ => true
  | .umov _ => true
  | .uld32 _ => true
  | .uld64 _ => true
  | .ust32 _ => true
  | .ust64 _ => true
  | .ubra _ => true
  | .jmpf _ => true
  | .cfetch _ => true
  | .csegq _ => true
  | .launch _ => true
  | .joinl _ => true
  | .mstart _ => true
  | .btcopy _ => true
  | .bttest _ => true
  | .waitc _ => true
  | .qbind _ => true
  | .qstat _ => true
  | .rclaim _ => true
  | .rpub _ => true
  | .rtake _ => true
  | .rfree _ => true
  | .barrem _ => true
  | .bkopAdd _ => true
  | .bkopMul _ => true
  | .bkopMax _ => true
  | .bkopMin _ => true
  | .bkopAxpy _ => true
  | .bkopCvt _ => true
  | .bkred _ => true
  | .bkrank _ => true
  | .bkrankCommit _ => true
  | .bkread _ => true
  | .acdeclSum _ => true
  | .acdeclRank _ => true
  | .acclr _ => true
  | .acst _ => true
  | .acmrg _ => true
  | .acraise _ => true
  | .accmp _ => true
  | .acrd _ => true
  | .mma _ => true
  | .mzero _ => true
  | .mpost _ => true
  | .mact _ => true
  | .mend _ => true
  | .ecnt _ => true
  | .rtlook _ => true
  | .rtpin _ => true
  | .rtunpin _ => true
  | .rtmerge _ => true
  | .syscall _ => true
  | .utrap _ => true
  | .loadDataLands _ _ => false
  | .storeAtHome _ _ => false
  | .storeAckReturns _ => false
  | .atomicExecutes _ _ => false
  | .atomicReply _ _ => false
  | .remoteScratchpadAccess _ _ => false
  | .monitorWake _ _ _ => false
  | .monitorRetryTimer _ _ _ => false
  | .pageFaultResolved _ => false
  | .pageFaultRefused _ => false
  | .pageMoveRequest _ _ _ _ => false
  | .moveProtectDone _ _ => false
  | .moveCopyDone _ _ => false
  | .moveCopyAbort _ _ => false
  | .moveCommitDone _ _ => false
  | .moveIdle _ _ => false
  | .shootdownComplete _ => false
  | .formatWindowEnable _ _ _ => false
  | .launchAcceptance _ => false
  | .walkerAcceptRecord _ => false
  | .walkerCommitTile _ => false
  | .walkerResume _ => false
  | .walkerRefused _ => false
  | .dispatchTask _ => false
  | .spanPlacement _ => false
  | .taskStart _ => false
  | .mergeWindowClose _ => false
  | .taskEnd _ => false
  | .launchComplete _ => false
  | .segmentFetchLands _ => false
  | .transferStart _ => false
  | .chunkComplete _ _ => false
  | .transferComplete _ => false
  | .transferPageFault _ => false
  | .transferRestart _ => false
  | .transferFailed _ => false
  | .transferDrainTimeout _ => false
  | .bankCommandComplete _ => false
  | .streamStart _ _ => false
  | .matrixWordComplete _ _ => false
  | .streamStop _ => false
  | .routedOffer _ => false
  | .inserterInsertion _ _ => false
  | .windowClose => false
  | .windowCloseReceived _ => false
  | .placementEvaluation => false
  | .generationPublish _ => false
  | .generationCopyFail _ => false
  | .replicaWithdraw _ _ _ => false
  | .rtmergeComplete _ => false
  | .cpyfailRead => false
  | .wdrawRead => false
  | .ringEnable _ _ _ => false
  | .ringDisable _ _ => false
  | .ringCommandArrival _ => false
  | .ringReply _ => false
  | .ringDead _ _ => false
  | .barremNoticeArrival _ => false
  | .noticeAcknowledged _ => false
  | .faultDisposal _ => false
  | .handlerContinue _ _ => false
  | .handlerEnd _ _ => false
  | .watchdog _ => false
  | .endTask _ => false
  | .syscallReply _ _ _ _ => false
  | .preemptRequest _ => false
  | .preemptSave _ => false
  | .taskRestore _ _ => false
  | .correctedError _ => false
  | .uncorrectableError _ => false
  | .queueEnable _ _ _ => false
  | .queueDisable _ _ => false
  | .doorbell _ _ _ => false
  | .queueEntryTake _ _ => false
  | .shootdown _ => false
  | .takeDieOffline _ => false
  | .tearDownContext _ => false
  | .quote _ => false
  | .stageSuccessorKernel _ => false
  | .latencyTolerance _ => false
  | .registerWrite _ _ _ _ => false
  | .powerOn _ => false
  | .bootReadyTimeout => false
  | .firstStageImage _ => false
  | .versionNegotiation _ _ _ _ _ => false
  | .edgeDown _ => false
  | .linkCrcFailure _ => false
  | .oldKernelReady => false
  | .oldKernelJump => false
  | .successorAdopt _ => false
  | .successorCheckIn => false
  | .handoverTimeout => false
  | .reductionPayload _ _ _ => false
  | .lehrEntry => false
  | .lehrExit _ => false
  | .lehrExitComplete => false
  | .contextInstall _ _ => false
  | .contextMapChange _ _ => false
  | .expertCommandArrival _ => false
  | .expertCommandReply _ => false
  | .writeAtDiePoint _ _ => false
  | .remoteScratchpadReply _ _ => false
  | .systemSoftwareMemoryWrite _ _ => false

end Sys2Proof
end

