-- ==== Sys2Proof/Decode.lean ====
section
/-!
DEFINITION. The decoder: from the 32 bits of a word to an instruction or the named reason why there is none
(03 R42-R57); and the encoder, written from the same tables.

Lean's compiler cannot build values of a type with more than 245 constructors that carry fields, so what builds an
Instr is marked noncomputable; the kernel evaluates it.
-/
namespace Sys2Proof

/-! ## The fields of each format (03 Tables 3-1, 3-2): the 21 bits below the opcode -/

/-- Reserved bits of LR words. -/
def LR.resv : BitVec 21 := 0x0

/-- Fields of LR words. -/
def LR.ofBits (b : BitVec 21) : LR :=
  { d := b.extractLsb' 16 5, a := b.extractLsb' 11 5, b := b.extractLsb' 6 5, g := b.extractLsb' 3 3, h := b.getLsbD 2, ea := b.getLsbD 1, eb := b.getLsbD 0 }

/-- The bits of LR words. -/
def LR.toBits (w : LR) : BitVec 21 :=
  w.d ++ w.a ++ w.b ++ w.g ++ BitVec.ofBool w.h ++ BitVec.ofBool w.ea ++ BitVec.ofBool w.eb

/-- Reserved bits of LRA words. -/
def LRA.resv : BitVec 21 := 0x7c1

/-- Fields of LRA words. -/
def LRA.ofBits (b : BitVec 21) : LRA :=
  { d := b.extractLsb' 16 5, a := b.extractLsb' 11 5, g := b.extractLsb' 3 3, h := b.getLsbD 2, ea := b.getLsbD 1 }

/-- The bits of LRA words. -/
def LRA.toBits (w : LRA) : BitVec 21 :=
  w.d ++ w.a ++ 0#5 ++ w.g ++ BitVec.ofBool w.h ++ BitVec.ofBool w.ea ++ 0#1

/-- Reserved bits of LC words. -/
def LC.resv : BitVec 21 := 0x0

/-- Fields of LC words. -/
def LC.ofBits (b : BitVec 21) : LC :=
  { pd := b.extractLsb' 18 3, comb := b.extractLsb' 16 2, a := b.extractLsb' 11 5, b := b.extractLsb' 6 5, g := b.extractLsb' 3 3, h := b.getLsbD 2, ea := b.getLsbD 1, eb := b.getLsbD 0 }

/-- The bits of LC words. -/
def LC.toBits (w : LC) : BitVec 21 :=
  w.pd ++ w.comb ++ w.a ++ w.b ++ w.g ++ BitVec.ofBool w.h ++ BitVec.ofBool w.ea ++ BitVec.ofBool w.eb

/-- Reserved bits of LCP words. -/
def LCP.resv : BitVec 21 := 0xc607

/-- Fields of LCP words. -/
def LCP.ofBits (b : BitVec 21) : LCP :=
  { pd := b.extractLsb' 18 3, comb := b.extractLsb' 16 2, a := b.extractLsb' 11 3, b := b.extractLsb' 6 3, g := b.extractLsb' 3 3 }

/-- The bits of LCP words. -/
def LCP.toBits (w : LCP) : BitVec 21 :=
  w.pd ++ w.comb ++ 0#2 ++ w.a ++ 0#2 ++ w.b ++ w.g ++ 0#3

/-- Reserved bits of LCN words. -/
def LCN.resv : BitVec 21 := 0xc7c7

/-- Fields of LCN words. -/
def LCN.ofBits (b : BitVec 21) : LCN :=
  { pd := b.extractLsb' 18 3, comb := b.extractLsb' 16 2, a := b.extractLsb' 11 3, g := b.extractLsb' 3 3 }

/-- The bits of LCN words. -/
def LCN.toBits (w : LCN) : BitVec 21 :=
  w.pd ++ w.comb ++ 0#2 ++ w.a ++ 0#5 ++ w.g ++ 0#3

/-- Reserved bits of LBal words. -/
def LBal.resv : BitVec 21 := 0xc7c7

/-- Fields of LBal words. -/
def LBal.ofBits (b : BitVec 21) : LBal :=
  { d := b.extractLsb' 16 5, a := b.extractLsb' 11 3, g := b.extractLsb' 3 3 }

/-- The bits of LBal words. -/
def LBal.toBits (w : LBal) : BitVec 21 :=
  w.d ++ 0#2 ++ w.a ++ 0#5 ++ w.g ++ 0#3

/-- Reserved bits of LI words. -/
def LI.resv : BitVec 21 := 0x0

/-- Fields of LI words. -/
def LI.ofBits (b : BitVec 21) : LI :=
  { d := b.extractLsb' 16 5, a := b.extractLsb' 11 5, imm := b.extractLsb' 3 8, g := b.extractLsb' 0 3 }

/-- The bits of LI words. -/
def LI.toBits (w : LI) : BitVec 21 :=
  w.d ++ w.a ++ w.imm ++ w.g

/-- Reserved bits of LI5 words. -/
def LI5.resv : BitVec 21 := 0x700

/-- Fields of LI5 words. -/
def LI5.ofBits (b : BitVec 21) : LI5 :=
  { d := b.extractLsb' 16 5, a := b.extractLsb' 11 5, imm := b.extractLsb' 3 5, g := b.extractLsb' 0 3 }

/-- The bits of LI5 words. -/
def LI5.toBits (w : LI5) : BitVec 21 :=
  w.d ++ w.a ++ 0#3 ++ w.imm ++ w.g

/-- Reserved bits of LW words. -/
def LW.resv : BitVec 21 := 0x0

/-- Fields of LW words. -/
def LW.ofBits (b : BitVec 21) : LW :=
  { d := b.extractLsb' 16 5, imm := b.extractLsb' 0 16 }

/-- The bits of LW words. -/
def LW.toBits (w : LW) : BitVec 21 :=
  w.d ++ w.imm

/-- Reserved bits of LMovs words. -/
def LMovs.resv : BitVec 21 := 0x7c7

/-- Fields of LMovs words. -/
def LMovs.ofBits (b : BitVec 21) : LMovs :=
  { d := b.extractLsb' 16 5, a := b.extractLsb' 11 5, g := b.extractLsb' 3 3 }

/-- The bits of LMovs words. -/
def LMovs.toBits (w : LMovs) : BitVec 21 :=
  w.d ++ w.a ++ 0#5 ++ w.g ++ 0#3

/-- Reserved bits of LMovsr words. -/
def LMovsr.resv : BitVec 21 := 0xf800

/-- Fields of LMovsr words. -/
def LMovsr.ofBits (b : BitVec 21) : LMovsr :=
  { d := b.extractLsb' 16 5, imm := b.extractLsb' 3 8, g := b.extractLsb' 0 3 }

/-- The bits of LMovsr words. -/
def LMovsr.toBits (w : LMovsr) : BitVec 21 :=
  w.d ++ 0#5 ++ w.imm ++ w.g

/-- Reserved bits of LMovp words. -/
def LMovp.resv : BitVec 21 := 0xffc7

/-- Fields of LMovp words. -/
def LMovp.ofBits (b : BitVec 21) : LMovp :=
  { d := b.extractLsb' 16 5, g := b.extractLsb' 3 3 }

/-- The bits of LMovp words. -/
def LMovp.toBits (w : LMovp) : BitVec 21 :=
  w.d ++ 0#10 ++ w.g ++ 0#3

/-- Reserved bits of LPmov words. -/
def LPmov.resv : BitVec 21 := 0x1f07c1

/-- Fields of LPmov words. -/
def LPmov.ofBits (b : BitVec 21) : LPmov :=
  { a := b.extractLsb' 11 5, g := b.extractLsb' 3 3, h := b.getLsbD 2, ea := b.getLsbD 1 }

/-- The bits of LPmov words. -/
def LPmov.toBits (w : LPmov) : BitVec 21 :=
  0#5 ++ w.a ++ 0#5 ++ w.g ++ BitVec.ofBool w.h ++ BitVec.ofBool w.ea ++ 0#1

/-- Reserved bits of LM words. -/
def LM.resv : BitVec 21 := 0x1

/-- Fields of LM words. -/
def LM.ofBits (b : BitVec 21) : LM :=
  { d := b.extractLsb' 16 5, a := b.extractLsb' 11 5, sb := b.extractLsb' 6 5, g := b.extractLsb' 3 3, pol := b.extractLsb' 1 2 }

/-- The bits of LM words. -/
def LM.toBits (w : LM) : BitVec 21 :=
  w.d ++ w.a ++ w.sb ++ w.g ++ w.pol ++ 0#1

/-- Reserved bits of LMSt words. -/
def LMSt.resv : BitVec 21 := 0x0

/-- Fields of LMSt words. -/
def LMSt.ofBits (b : BitVec 21) : LMSt :=
  { d := b.extractLsb' 16 5, a := b.extractLsb' 11 5, sb := b.extractLsb' 6 5, g := b.extractLsb' 3 3, pol := b.extractLsb' 1 2, ea := b.getLsbD 0 }

/-- The bits of LMSt words. -/
def LMSt.toBits (w : LMSt) : BitVec 21 :=
  w.d ++ w.a ++ w.sb ++ w.g ++ w.pol ++ BitVec.ofBool w.ea

/-- Reserved bits of LMS words. -/
def LMS.resv : BitVec 21 := 0x0

/-- Fields of LMS words. -/
def LMS.ofBits (b : BitVec 21) : LMS :=
  { d := b.extractLsb' 16 5, a := b.extractLsb' 11 5, sb := b.extractLsb' 6 5, g := b.extractLsb' 3 3, scope := b.extractLsb' 0 3 }

/-- The bits of LMS words. -/
def LMS.toBits (w : LMS) : BitVec 21 :=
  w.d ++ w.a ++ w.sb ++ w.g ++ w.scope

/-- Reserved bits of LMPref words. -/
def LMPref.resv : BitVec 21 := 0x1f0001

/-- Fields of LMPref words. -/
def LMPref.ofBits (b : BitVec 21) : LMPref :=
  { a := b.extractLsb' 11 5, sb := b.extractLsb' 6 5, g := b.extractLsb' 3 3, pol := b.extractLsb' 1 2 }

/-- The bits of LMPref words. -/
def LMPref.toBits (w : LMPref) : BitVec 21 :=
  0#5 ++ w.a ++ w.sb ++ w.g ++ w.pol ++ 0#1

/-- Reserved bits of LAtom words. -/
def LAtom.resv : BitVec 21 := 0x0

/-- Fields of LAtom words. -/
def LAtom.ofBits (ord : BitVec 2) (b : BitVec 21) : LAtom :=
  { d := b.extractLsb' 16 5, a := b.extractLsb' 11 5, sb := b.extractLsb' 6 5, g := b.extractLsb' 3 3, scope := b.extractLsb' 0 3, ord := ord }

/-- The bits of LAtom words. -/
def LAtom.toBits (w : LAtom) : BitVec 21 :=
  w.d ++ w.a ++ w.sb ++ w.g ++ w.scope

/-- Reserved bits of LFence words. -/
def LFence.resv : BitVec 21 := 0x1fff18

/-- Fields of LFence words. -/
def LFence.ofBits (b : BitVec 21) : LFence :=
  { scope := b.extractLsb' 5 3, g := b.extractLsb' 0 3 }

/-- The bits of LFence words. -/
def LFence.toBits (w : LFence) : BitVec 21 :=
  0#13 ++ w.scope ++ 0#2 ++ w.g

/-- Reserved bits of LL words. -/
def LL.resv : BitVec 21 := 0x0

/-- Fields of LL words. -/
def LL.ofBits (b : BitVec 21) : LL :=
  { d := b.extractLsb' 16 5, a := b.extractLsb' 11 5, imm := b.extractLsb' 3 8, g := b.extractLsb' 0 3 }

/-- The bits of LL words. -/
def LL.toBits (w : LL) : BitVec 21 :=
  w.d ++ w.a ++ w.imm ++ w.g

/-- Reserved bits of LTeb words. -/
def LTeb.resv : BitVec 21 := 0x0

/-- Fields of LTeb words. -/
def LTeb.ofBits (b : BitVec 21) : LTeb :=
  { d := b.extractLsb' 16 5, a := b.extractLsb' 11 5, off := b.extractLsb' 5 6, var := b.extractLsb' 3 2, g := b.extractLsb' 0 3 }

/-- The bits of LTeb words. -/
def LTeb.toBits (w : LTeb) : BitVec 21 :=
  w.d ++ w.a ++ w.off ++ w.var ++ w.g

/-- Reserved bits of LB words. -/
def LB.resv : BitVec 21 := 0x0

/-- Fields of LB words. -/
def LB.ofBits (b : BitVec 21) : LB :=
  { imm := b.extractLsb' 6 15, g := b.extractLsb' 3 3, pri := b.extractLsb' 0 3 }

/-- The bits of LB words. -/
def LB.toBits (w : LB) : BitVec 21 :=
  w.imm ++ w.g ++ w.pri

/-- Reserved bits of LJ words. -/
def LJ.resv : BitVec 21 := 0x1f07c7

/-- Fields of LJ words. -/
def LJ.ofBits (b : BitVec 21) : LJ :=
  { a := b.extractLsb' 11 5, g := b.extractLsb' 3 3 }

/-- The bits of LJ words. -/
def LJ.toBits (w : LJ) : BitVec 21 :=
  0#5 ++ w.a ++ 0#5 ++ w.g ++ 0#3

/-- Reserved bits of LG words. -/
def LG.resv : BitVec 21 := 0x1fffc7

/-- Fields of LG words. -/
def LG.ofBits (b : BitVec 21) : LG :=
  { g := b.extractLsb' 3 3 }

/-- The bits of LG words. -/
def LG.toBits (w : LG) : BitVec 21 :=
  0#15 ++ w.g ++ 0#3

/-- Reserved bits of LSetpri words. -/
def LSetpri.resv : BitVec 21 := 0x1fffc0

/-- Fields of LSetpri words. -/
def LSetpri.ofBits (b : BitVec 21) : LSetpri :=
  { n := b.extractLsb' 3 3, g := b.extractLsb' 0 3 }

/-- The bits of LSetpri words. -/
def LSetpri.toBits (w : LSetpri) : BitVec 21 :=
  0#15 ++ w.n ++ w.g

/-- Reserved bits of LTrap words. -/
def LTrap.resv : BitVec 21 := 0x1ff800

/-- Fields of LTrap words. -/
def LTrap.ofBits (b : BitVec 21) : LTrap :=
  { code := b.extractLsb' 3 8, g := b.extractLsb' 0 3 }

/-- The bits of LTrap words. -/
def LTrap.toBits (w : LTrap) : BitVec 21 :=
  0#10 ++ w.code ++ w.g

/-- Reserved bits of LBar words. -/
def LBar.resv : BitVec 21 := 0x1f0000

/-- Fields of LBar words. -/
def LBar.ofBits (b : BitVec 21) : LBar :=
  { a := b.extractLsb' 11 5, imm := b.extractLsb' 3 8, g := b.extractLsb' 0 3 }

/-- The bits of LBar words. -/
def LBar.toBits (w : LBar) : BitVec 21 :=
  0#5 ++ w.a ++ w.imm ++ w.g

/-- Reserved bits of LRk words. -/
def LRk.resv : BitVec 21 := 0x180000

/-- Fields of LRk words. -/
def LRk.ofBits (b : BitVec 21) : LRk :=
  { acc := b.extractLsb' 16 3, a := b.extractLsb' 11 5, b := b.extractLsb' 6 5, g := b.extractLsb' 3 3, h := b.getLsbD 2, ea := b.getLsbD 1, eb := b.getLsbD 0 }

/-- The bits of LRk words. -/
def LRk.toBits (w : LRk) : BitVec 21 :=
  0#2 ++ w.acc ++ w.a ++ w.b ++ w.g ++ BitVec.ofBool w.h ++ BitVec.ofBool w.ea ++ BitVec.ofBool w.eb

/-- Reserved bits of LAcadd words. -/
def LAcadd.resv : BitVec 21 := 0x1807c1

/-- Fields of LAcadd words. -/
def LAcadd.ofBits (b : BitVec 21) : LAcadd :=
  { acc := b.extractLsb' 16 3, a := b.extractLsb' 11 5, g := b.extractLsb' 3 3, h := b.getLsbD 2, ea := b.getLsbD 1 }

/-- The bits of LAcadd words. -/
def LAcadd.toBits (w : LAcadd) : BitVec 21 :=
  0#2 ++ w.acc ++ w.a ++ 0#5 ++ w.g ++ BitVec.ofBool w.h ++ BitVec.ofBool w.ea ++ 0#1

/-- Reserved bits of LRktest words. -/
def LRktest.resv : BitVec 21 := 0x0

/-- Fields of LRktest words. -/
def LRktest.ofBits (b : BitVec 21) : LRktest :=
  { pd := b.extractLsb' 18 3, comb := b.extractLsb' 16 2, a := b.extractLsb' 11 5, b := b.extractLsb' 6 5, g := b.extractLsb' 3 3, acc := b.extractLsb' 0 3 }

/-- The bits of LRktest words. -/
def LRktest.toBits (w : LRktest) : BitVec 21 :=
  w.pd ++ w.comb ++ w.a ++ w.b ++ w.g ++ w.acc

/-- Reserved bits of UR words. -/
def UR.resv : BitVec 21 := 0x7

/-- Fields of UR words. -/
def UR.ofBits (b : BitVec 21) : UR :=
  { d := b.extractLsb' 16 5, a := b.extractLsb' 11 5, b := b.extractLsb' 6 5, c := b.extractLsb' 3 3 }

/-- The bits of UR words. -/
def UR.toBits (w : UR) : BitVec 21 :=
  w.d ++ w.a ++ w.b ++ w.c ++ 0#3

/-- Reserved bits of URM words. -/
def URM.resv : BitVec 21 := 0x6

/-- Fields of URM words. -/
def URM.ofBits (b : BitVec 21) : URM :=
  { d := b.extractLsb' 16 5, a := b.extractLsb' 11 5, b := b.extractLsb' 6 5, c := b.extractLsb' 3 3, m := b.getLsbD 0 }

/-- The bits of URM words. -/
def URM.toBits (w : URM) : BitVec 21 :=
  w.d ++ w.a ++ w.b ++ w.c ++ 0#2 ++ BitVec.ofBool w.m

/-- Reserved bits of UDA words. -/
def UDA.resv : BitVec 21 := 0x7c7

/-- Fields of UDA words. -/
def UDA.ofBits (b : BitVec 21) : UDA :=
  { d := b.extractLsb' 16 5, a := b.extractLsb' 11 5, c := b.extractLsb' 3 3 }

/-- The bits of UDA words. -/
def UDA.toBits (w : UDA) : BitVec 21 :=
  w.d ++ w.a ++ 0#5 ++ w.c ++ 0#3

/-- Reserved bits of UI words. -/
def UI.resv : BitVec 21 := 0x0

/-- Fields of UI words. -/
def UI.ofBits (b : BitVec 21) : UI :=
  { d := b.extractLsb' 16 5, a := b.extractLsb' 11 5, imm := b.extractLsb' 3 8, c := b.extractLsb' 0 3 }

/-- The bits of UI words. -/
def UI.toBits (w : UI) : BitVec 21 :=
  w.d ++ w.a ++ w.imm ++ w.c

/-- Reserved bits of UI5 words. -/
def UI5.resv : BitVec 21 := 0x700

/-- Fields of UI5 words. -/
def UI5.ofBits (b : BitVec 21) : UI5 :=
  { d := b.extractLsb' 16 5, a := b.extractLsb' 11 5, imm := b.extractLsb' 3 5, c := b.extractLsb' 0 3 }

/-- The bits of UI5 words. -/
def UI5.toBits (w : UI5) : BitVec 21 :=
  w.d ++ w.a ++ 0#3 ++ w.imm ++ w.c

/-- Reserved bits of UW words. -/
def UW.resv : BitVec 21 := 0x0

/-- Fields of UW words. -/
def UW.ofBits (b : BitVec 21) : UW :=
  { d := b.extractLsb' 16 5, imm := b.extractLsb' 0 16 }

/-- The bits of UW words. -/
def UW.toBits (w : UW) : BitVec 21 :=
  w.d ++ w.imm

/-- Reserved bits of UCab words. -/
def UCab.resv : BitVec 21 := 0x180007

/-- Fields of UCab words. -/
def UCab.ofBits (b : BitVec 21) : UCab :=
  { cd := b.extractLsb' 16 3, a := b.extractLsb' 11 5, b := b.extractLsb' 6 5, c := b.extractLsb' 3 3 }

/-- The bits of UCab words. -/
def UCab.toBits (w : UCab) : BitVec 21 :=
  0#2 ++ w.cd ++ w.a ++ w.b ++ w.c ++ 0#3

/-- Reserved bits of UCa words. -/
def UCa.resv : BitVec 21 := 0x1807c7

/-- Fields of UCa words. -/
def UCa.ofBits (b : BitVec 21) : UCa :=
  { cd := b.extractLsb' 16 3, a := b.extractLsb' 11 5, c := b.extractLsb' 3 3 }

/-- The bits of UCa words. -/
def UCa.toBits (w : UCa) : BitVec 21 :=
  0#2 ++ w.cd ++ w.a ++ 0#5 ++ w.c ++ 0#3

/-- Reserved bits of UMovsr words. -/
def UMovsr.resv : BitVec 21 := 0xf800

/-- Fields of UMovsr words. -/
def UMovsr.ofBits (b : BitVec 21) : UMovsr :=
  { d := b.extractLsb' 16 5, imm := b.extractLsb' 3 8, c := b.extractLsb' 0 3 }

/-- The bits of UMovsr words. -/
def UMovsr.toBits (w : UMovsr) : BitVec 21 :=
  w.d ++ 0#5 ++ w.imm ++ w.c

/-- Reserved bits of UB words. -/
def UB.resv : BitVec 21 := 0x7

/-- Fields of UB words. -/
def UB.ofBits (b : BitVec 21) : UB :=
  { imm := b.extractLsb' 6 15, c := b.extractLsb' 3 3 }

/-- The bits of UB words. -/
def UB.toBits (w : UB) : BitVec 21 :=
  w.imm ++ w.c ++ 0#3

/-- Reserved bits of UAB words. -/
def UAB.resv : BitVec 21 := 0x1f0007

/-- Fields of UAB words. -/
def UAB.ofBits (b : BitVec 21) : UAB :=
  { a := b.extractLsb' 11 5, b := b.extractLsb' 6 5, c := b.extractLsb' 3 3 }

/-- The bits of UAB words. -/
def UAB.toBits (w : UAB) : BitVec 21 :=
  0#5 ++ w.a ++ w.b ++ w.c ++ 0#3

/-- Reserved bits of UA words. -/
def UA.resv : BitVec 21 := 0x1f07c7

/-- Fields of UA words. -/
def UA.ofBits (b : BitVec 21) : UA :=
  { a := b.extractLsb' 11 5, c := b.extractLsb' 3 3 }

/-- The bits of UA words. -/
def UA.toBits (w : UA) : BitVec 21 :=
  0#5 ++ w.a ++ 0#5 ++ w.c ++ 0#3

/-- Reserved bits of UD words. -/
def UD.resv : BitVec 21 := 0xffc7

/-- Fields of UD words. -/
def UD.ofBits (b : BitVec 21) : UD :=
  { d := b.extractLsb' 16 5, c := b.extractLsb' 3 3 }

/-- The bits of UD words. -/
def UD.toBits (w : UD) : BitVec 21 :=
  w.d ++ 0#10 ++ w.c ++ 0#3

/-- Reserved bits of UC words. -/
def UC.resv : BitVec 21 := 0x1fffc7

/-- Fields of UC words. -/
def UC.ofBits (b : BitVec 21) : UC :=
  { c := b.extractLsb' 3 3 }

/-- The bits of UC words. -/
def UC.toBits (w : UC) : BitVec 21 :=
  0#15 ++ w.c ++ 0#3

/-- Reserved bits of UImm words. -/
def UImm.resv : BitVec 21 := 0x1ff800

/-- Fields of UImm words. -/
def UImm.ofBits (b : BitVec 21) : UImm :=
  { imm := b.extractLsb' 3 8, c := b.extractLsb' 0 3 }

/-- The bits of UImm words. -/
def UImm.toBits (w : UImm) : BitVec 21 :=
  0#10 ++ w.imm ++ w.c

/-- Reserved bits of UWaitc words. -/
def UWaitc.resv : BitVec 21 := 0x1ff800

/-- Fields of UWaitc words. -/
def UWaitc.ofBits (b : BitVec 21) : UWaitc :=
  { n := b.extractLsb' 6 5, cls := b.extractLsb' 3 3, c := b.extractLsb' 0 3 }

/-- The bits of UWaitc words. -/
def UWaitc.toBits (w : UWaitc) : BitVec 21 :=
  0#10 ++ w.n ++ w.cls ++ w.c

/-- Reserved bits of UQbind words. -/
def UQbind.resv : BitVec 21 := 0x1c07c7

/-- Fields of UQbind words. -/
def UQbind.ofBits (b : BitVec 21) : UQbind :=
  { q := b.extractLsb' 16 2, a := b.extractLsb' 11 5, c := b.extractLsb' 3 3 }

/-- The bits of UQbind words. -/
def UQbind.toBits (w : UQbind) : BitVec 21 :=
  0#3 ++ w.q ++ w.a ++ 0#5 ++ w.c ++ 0#3

/-- Reserved bits of URing words. -/
def URing.resv : BitVec 21 := 0x0

/-- Fields of URing words. -/
def URing.ofBits (b : BitVec 21) : URing :=
  { d := b.extractLsb' 16 5, a := b.extractLsb' 11 5, b := b.extractLsb' 6 5, c := b.extractLsb' 3 3, m := b.extractLsb' 0 3 }

/-- The bits of URing words. -/
def URing.toBits (w : URing) : BitVec 21 :=
  w.d ++ w.a ++ w.b ++ w.c ++ w.m

/-- Reserved bits of UAcdecl words. -/
def UAcdecl.resv : BitVec 21 := 0x18cc00

/-- Fields of UAcdecl words. -/
def UAcdecl.ofBits (b : BitVec 21) : UAcdecl :=
  { acc := b.extractLsb' 16 3, order := b.getLsbD 13, key := b.getLsbD 12, fgate := b.getLsbD 9, k := b.extractLsb' 3 6, c := b.extractLsb' 0 3 }

/-- The bits of UAcdecl words. -/
def UAcdecl.toBits (w : UAcdecl) : BitVec 21 :=
  0#2 ++ w.acc ++ 0#2 ++ BitVec.ofBool w.order ++ BitVec.ofBool w.key ++ 0#2 ++ BitVec.ofBool w.fgate ++ w.k ++ w.c

/-- Reserved bits of UAcc words. -/
def UAcc.resv : BitVec 21 := 0x18ffc7

/-- Fields of UAcc words. -/
def UAcc.ofBits (b : BitVec 21) : UAcc :=
  { acc := b.extractLsb' 16 3, c := b.extractLsb' 3 3 }

/-- The bits of UAcc words. -/
def UAcc.toBits (w : UAcc) : BitVec 21 :=
  0#2 ++ w.acc ++ 0#10 ++ w.c ++ 0#3

/-- Reserved bits of UAccA words. -/
def UAccA.resv : BitVec 21 := 0x1807c7

/-- Fields of UAccA words. -/
def UAccA.ofBits (b : BitVec 21) : UAccA :=
  { acc := b.extractLsb' 16 3, a := b.extractLsb' 11 5, c := b.extractLsb' 3 3 }

/-- The bits of UAccA words. -/
def UAccA.toBits (w : UAccA) : BitVec 21 :=
  0#2 ++ w.acc ++ w.a ++ 0#5 ++ w.c ++ 0#3

/-- Reserved bits of UAccmp words. -/
def UAccmp.resv : BitVec 21 := 0x1807c0

/-- Fields of UAccmp words. -/
def UAccmp.ofBits (b : BitVec 21) : UAccmp :=
  { acc := b.extractLsb' 16 3, a := b.extractLsb' 11 5, c := b.extractLsb' 3 3, m := b.extractLsb' 0 3 }

/-- The bits of UAccmp words. -/
def UAccmp.toBits (w : UAccmp) : BitVec 21 :=
  0#2 ++ w.acc ++ w.a ++ 0#5 ++ w.c ++ w.m

/-- Reserved bits of UAcrd words. -/
def UAcrd.resv : BitVec 21 := 0x607

/-- Fields of UAcrd words. -/
def UAcrd.ofBits (b : BitVec 21) : UAcrd :=
  { d := b.extractLsb' 16 5, a := b.extractLsb' 11 5, acc := b.extractLsb' 6 3, c := b.extractLsb' 3 3 }

/-- The bits of UAcrd words. -/
def UAcrd.toBits (w : UAcrd) : BitVec 21 :=
  w.d ++ w.a ++ 0#2 ++ w.acc ++ w.c ++ 0#3

/-- Reserved bits of UMpost words. -/
def UMpost.resv : BitVec 21 := 0x180007

/-- Fields of UMpost words. -/
def UMpost.ofBits (b : BitVec 21) : UMpost :=
  { t := b.extractLsb' 16 3, a := b.extractLsb' 11 5, b := b.extractLsb' 6 5, c := b.extractLsb' 3 3 }

/-- The bits of UMpost words. -/
def UMpost.toBits (w : UMpost) : BitVec 21 :=
  0#2 ++ w.t ++ w.a ++ w.b ++ w.c ++ 0#3

/-! ## The opcode map (03 Tables 3-4, 3-5, R51) -/

/-- FENCE: bits 1-0 of imm8 give the kind, 3 being no kind (cause 7); scope code 7 is the lower cause. -/
def buildFence (b : BitVec 21) : Except Reject Instr :=
  if b.extractLsb' 5 3 = 7 then .error .scope
  else if b.extractLsb' 3 2 = 0 then .ok (.fence (LFence.ofBits b))
  else if b.extractLsb' 3 2 = 1 then .ok (.fenceAcq (LFence.ofBits b))
  else if b.extractLsb' 3 2 = 2 then .ok (.fenceRel (LFence.ofBits b))
  else .error .immediate

/-- BKOP: m names the operation, 6 and 7 being none (cause 7); an odd pair is the lower cause. -/
def buildBkop (b : BitVec 21) : Except Reject Instr :=
  if b.extractLsb' 0 3 = 0 then .ok (.bkopAdd (UA.ofBits b))
  else if b.extractLsb' 0 3 = 1 then .ok (.bkopMul (UA.ofBits b))
  else if b.extractLsb' 0 3 = 2 then .ok (.bkopMax (UA.ofBits b))
  else if b.extractLsb' 0 3 = 3 then .ok (.bkopMin (UA.ofBits b))
  else if b.extractLsb' 0 3 = 4 then .ok (.bkopAxpy (UA.ofBits b))
  else if b.extractLsb' 0 3 = 5 then .ok (.bkopCvt (UA.ofBits b))
  else if Checks.oddPair (b.extractLsb' 11 5) then .error .group
  else .error .immediate

/-- BKRANK: m bit 0 marks a commit round. -/
def buildBkrank (b : BitVec 21) : Except Reject Instr :=
  if b.getLsbD 0 then .ok (.bkrankCommit (UA.ofBits b)) else .ok (.bkrank (UA.ofBits b))

/-- ACDECL: bit 11 is the mode. -/
def buildAcdecl (b : BitVec 21) : Except Reject Instr :=
  if b.getLsbD 11 then .ok (.acdeclRank (UAcdecl.ofBits b)) else .ok (.acdeclSum (UAcdecl.ofBits b))

/-- One opcode: whether map 2 and map 3 map it, its reserved bits, what its fields mean. -/
structure Row where
  map2 : Bool
  map3 : Bool
  resv : BitVec 21
  build : BitVec 21 → Except Reject Instr

/-- The row of an opcode. -/
def lookupRow (t : List (Nat × Row)) (op : Nat) : Option Row :=
  match t with
  | [] => none
  | (o, r) :: t => if o = op then some r else lookupRow t op

noncomputable def laneRows0 : List (Nat × Row) :=
  [(0x0, ⟨true, true, LR.resv, fun b => .ok (.iadd (LR.ofBits b))⟩),
   (0x1, ⟨true, true, LR.resv, fun b => .ok (.isub (LR.ofBits b))⟩),
   (0x2, ⟨true, true, LR.resv, fun b => .ok (.imul (LR.ofBits b))⟩),
   (0x3, ⟨true, true, LR.resv, fun b => .ok (.imulhi (LR.ofBits b))⟩),
   (0x4, ⟨true, true, LR.resv, fun b => .ok (.imulhu (LR.ofBits b))⟩),
   (0x5, ⟨true, true, LR.resv, fun b => .ok (.imad (LR.ofBits b))⟩),
   (0x6, ⟨true, true, LR.resv, fun b => .ok (.imin (LR.ofBits b))⟩),
   (0x7, ⟨true, true, LR.resv, fun b => .ok (.imax (LR.ofBits b))⟩),
   (0x8, ⟨true, true, LR.resv, fun b => .ok (.iminu (LR.ofBits b))⟩),
   (0x9, ⟨true, true, LR.resv, fun b => .ok (.imaxu (LR.ofBits b))⟩),
   (0xa, ⟨true, true, LR.resv, fun b => .ok (.and (LR.ofBits b))⟩),
   (0xb, ⟨true, true, LR.resv, fun b => .ok (.or (LR.ofBits b))⟩),
   (0xc, ⟨true, true, LR.resv, fun b => .ok (.xor (LR.ofBits b))⟩),
   (0xd, ⟨true, true, LR.resv, fun b => .ok (.andn (LR.ofBits b))⟩),
   (0xe, ⟨true, true, LR.resv, fun b => .ok (.shl (LR.ofBits b))⟩),
   (0xf, ⟨true, true, LR.resv, fun b => .ok (.shr (LR.ofBits b))⟩),
   (0x10, ⟨true, true, LR.resv, fun b => .ok (.sar (LR.ofBits b))⟩),
   (0x11, ⟨true, true, LRA.resv, fun b => .ok (.popc (LRA.ofBits b))⟩),
   (0x12, ⟨true, true, LRA.resv, fun b => .ok (.clz (LRA.ofBits b))⟩),
   (0x13, ⟨true, true, LRA.resv, fun b => .ok (.brev (LRA.ofBits b))⟩),
   (0x14, ⟨true, true, LR.resv, fun b => .ok (.iaddsat (LR.ofBits b))⟩),
   (0x20, ⟨true, true, LC.resv, fun b => .ok (.icmpEq (LC.ofBits b))⟩),
   (0x21, ⟨true, true, LC.resv, fun b => .ok (.icmpNe (LC.ofBits b))⟩),
   (0x22, ⟨true, true, LC.resv, fun b => .ok (.icmpLt (LC.ofBits b))⟩),
   (0x23, ⟨true, true, LC.resv, fun b => .ok (.icmpLe (LC.ofBits b))⟩),
   (0x24, ⟨true, true, LC.resv, fun b => .ok (.icmpGt (LC.ofBits b))⟩),
   (0x25, ⟨true, true, LC.resv, fun b => .ok (.icmpGe (LC.ofBits b))⟩),
   (0x26, ⟨true, true, LC.resv, fun b => .ok (.icmpLtu (LC.ofBits b))⟩),
   (0x27, ⟨true, true, LC.resv, fun b => .ok (.icmpLeu (LC.ofBits b))⟩),
   (0x28, ⟨true, true, LC.resv, fun b => .ok (.icmpGtu (LC.ofBits b))⟩),
   (0x29, ⟨true, true, LC.resv, fun b => .ok (.icmpGeu (LC.ofBits b))⟩),
   (0x2a, ⟨true, true, LC.resv, fun b => .ok (.fcmpEq (LC.ofBits b))⟩)]

noncomputable def laneRows1 : List (Nat × Row) :=
  [(0x2b, ⟨true, true, LC.resv, fun b => .ok (.fcmpNe (LC.ofBits b))⟩),
   (0x2c, ⟨true, true, LC.resv, fun b => .ok (.fcmpLt (LC.ofBits b))⟩),
   (0x2d, ⟨true, true, LC.resv, fun b => .ok (.fcmpLe (LC.ofBits b))⟩),
   (0x2e, ⟨true, true, LC.resv, fun b => .ok (.fcmpGt (LC.ofBits b))⟩),
   (0x2f, ⟨true, true, LC.resv, fun b => .ok (.fcmpGe (LC.ofBits b))⟩),
   (0x30, ⟨true, true, LC.resv, fun b => .ok (.fcmpOrd (LC.ofBits b))⟩),
   (0x31, ⟨true, true, LC.resv, fun b => .ok (.fcmpUno (LC.ofBits b))⟩),
   (0x32, ⟨true, true, LCP.resv, fun b => .ok (.pand (LCP.ofBits b))⟩),
   (0x33, ⟨true, true, LCP.resv, fun b => .ok (.por (LCP.ofBits b))⟩),
   (0x34, ⟨true, true, LCP.resv, fun b => .ok (.pxor (LCP.ofBits b))⟩),
   (0x35, ⟨true, true, LCN.resv, fun b => .ok (.pnot (LCN.ofBits b))⟩),
   (0x36, ⟨true, true, LR.resv, fun b => .ok (.sel (LR.ofBits b))⟩),
   (0x37, ⟨true, true, LBal.resv, fun b => .ok (.ballot (LBal.ofBits b))⟩),
   (0x38, ⟨true, true, LR.resv, fun b => .ok (.shfl (LR.ofBits b))⟩),
   (0x39, ⟨true, true, LR.resv, fun b => .ok (.shflx (LR.ofBits b))⟩),
   (0x40, ⟨true, true, LI.resv, fun b => .ok (.iaddi (LI.ofBits b))⟩),
   (0x41, ⟨true, true, LI.resv, fun b => .ok (.andi (LI.ofBits b))⟩),
   (0x42, ⟨true, true, LI.resv, fun b => .ok (.ori (LI.ofBits b))⟩),
   (0x43, ⟨true, true, LI.resv, fun b => .ok (.xori (LI.ofBits b))⟩),
   (0x44, ⟨true, true, LI5.resv, fun b => .ok (.shli (LI5.ofBits b))⟩),
   (0x45, ⟨true, true, LI5.resv, fun b => .ok (.shri (LI5.ofBits b))⟩),
   (0x46, ⟨true, true, LI5.resv, fun b => .ok (.sari (LI5.ofBits b))⟩),
   (0x47, ⟨true, true, LI.resv, fun b => .ok (.imuli (LI.ofBits b))⟩),
   (0x50, ⟨true, true, LW.resv, fun b => .ok (.movi (LW.ofBits b))⟩),
   (0x51, ⟨true, true, LW.resv, fun b => .ok (.movhi (LW.ofBits b))⟩),
   (0x60, ⟨true, true, LRA.resv, fun b => .ok (.mov (LRA.ofBits b))⟩),
   (0x61, ⟨true, true, LMovs.resv, fun b => .ok (.movs (LMovs.ofBits b))⟩),
   (0x62, ⟨true, true, LMovsr.resv, fun b => .ok (.movsr (LMovsr.ofBits b))⟩),
   (0x63, ⟨true, true, LMovp.resv, fun b => .ok (.movp (LMovp.ofBits b))⟩),
   (0x64, ⟨true, true, LPmov.resv, fun b => .ok (.pmov (LPmov.ofBits b))⟩),
   (0x100, ⟨true, true, LR.resv, fun b => .ok (.fadd (LR.ofBits b))⟩),
   (0x101, ⟨true, true, LR.resv, fun b => .ok (.fsub (LR.ofBits b))⟩)]

noncomputable def laneRows2 : List (Nat × Row) :=
  [(0x102, ⟨true, true, LR.resv, fun b => .ok (.fmul (LR.ofBits b))⟩),
   (0x103, ⟨true, true, LR.resv, fun b => .ok (.ffma (LR.ofBits b))⟩),
   (0x104, ⟨true, true, LR.resv, fun b => .ok (.fmin (LR.ofBits b))⟩),
   (0x105, ⟨true, true, LR.resv, fun b => .ok (.fmax (LR.ofBits b))⟩),
   (0x106, ⟨true, true, LRA.resv, fun b => .ok (.fabs (LRA.ofBits b))⟩),
   (0x107, ⟨true, true, LRA.resv, fun b => .ok (.fneg (LRA.ofBits b))⟩),
   (0x108, ⟨true, true, LR.resv, fun b => .ok (.badd2 (LR.ofBits b))⟩),
   (0x109, ⟨true, true, LR.resv, fun b => .ok (.bmul2 (LR.ofBits b))⟩),
   (0x10a, ⟨true, true, LR.resv, fun b => .ok (.bfma2 (LR.ofBits b))⟩),
   (0x10b, ⟨true, true, LR.resv, fun b => .ok (.hfma2 (LR.ofBits b))⟩),
   (0x110, ⟨true, true, LRA.resv, fun b => .ok (.rcp (LRA.ofBits b))⟩),
   (0x111, ⟨true, true, LRA.resv, fun b => .ok (.rsq (LRA.ofBits b))⟩),
   (0x112, ⟨true, true, LRA.resv, fun b => .ok (.exp2 (LRA.ofBits b))⟩),
   (0x113, ⟨true, true, LRA.resv, fun b => .ok (.log2 (LRA.ofBits b))⟩),
   (0x114, ⟨true, true, LRA.resv, fun b => .ok (.sin (LRA.ofBits b))⟩),
   (0x115, ⟨true, true, LRA.resv, fun b => .ok (.cos (LRA.ofBits b))⟩),
   (0x116, ⟨true, true, LRA.resv, fun b => .ok (.tanh (LRA.ofBits b))⟩),
   (0x120, ⟨true, true, LI.resv, fun b => .ok (.cvt (LI.ofBits b))⟩),
   (0x200, ⟨true, true, LM.resv, fun b => .ok (.ld8 (LM.ofBits b))⟩),
   (0x201, ⟨true, true, LM.resv, fun b => .ok (.ld8s (LM.ofBits b))⟩),
   (0x202, ⟨true, true, LM.resv, fun b => .ok (.ld16 (LM.ofBits b))⟩),
   (0x203, ⟨true, true, LM.resv, fun b => .ok (.ld16s (LM.ofBits b))⟩),
   (0x204, ⟨true, true, LM.resv, fun b => .ok (.ld32 (LM.ofBits b))⟩),
   (0x205, ⟨true, true, LM.resv, fun b => .ok (.ld64 (LM.ofBits b))⟩),
   (0x206, ⟨true, true, LM.resv, fun b => .ok (.ld128 (LM.ofBits b))⟩),
   (0x208, ⟨true, true, LMSt.resv, fun b => .ok (.st8 (LMSt.ofBits b))⟩),
   (0x209, ⟨true, true, LMSt.resv, fun b => .ok (.st16 (LMSt.ofBits b))⟩),
   (0x20a, ⟨true, true, LMSt.resv, fun b => .ok (.st32 (LMSt.ofBits b))⟩),
   (0x20b, ⟨true, true, LMSt.resv, fun b => .ok (.st64 (LMSt.ofBits b))⟩),
   (0x20c, ⟨true, true, LMSt.resv, fun b => .ok (.st128 (LMSt.ofBits b))⟩),
   (0x210, ⟨true, true, LMS.resv, fun b => .ok (.ldaq32 (LMS.ofBits b))⟩),
   (0x211, ⟨true, true, LMS.resv, fun b => .ok (.ldaq64 (LMS.ofBits b))⟩)]

noncomputable def laneRows3 : List (Nat × Row) :=
  [(0x212, ⟨true, true, LMS.resv, fun b => .ok (.strl32 (LMS.ofBits b))⟩),
   (0x213, ⟨true, true, LMS.resv, fun b => .ok (.strl64 (LMS.ofBits b))⟩),
   (0x218, ⟨true, true, LMPref.resv, fun b => .ok (.pref (LMPref.ofBits b))⟩),
   (0x240, ⟨false, true, LAtom.resv, fun b => .ok (.atomAdd (LAtom.ofBits 0 b))⟩),
   (0x241, ⟨false, true, LAtom.resv, fun b => .ok (.atomAdd (LAtom.ofBits 1 b))⟩),
   (0x242, ⟨false, true, LAtom.resv, fun b => .ok (.atomAdd (LAtom.ofBits 2 b))⟩),
   (0x243, ⟨false, true, LAtom.resv, fun b => .ok (.atomAdd (LAtom.ofBits 3 b))⟩),
   (0x244, ⟨false, true, LAtom.resv, fun b => .ok (.atomAdd64 (LAtom.ofBits 0 b))⟩),
   (0x245, ⟨false, true, LAtom.resv, fun b => .ok (.atomAdd64 (LAtom.ofBits 1 b))⟩),
   (0x246, ⟨false, true, LAtom.resv, fun b => .ok (.atomAdd64 (LAtom.ofBits 2 b))⟩),
   (0x247, ⟨false, true, LAtom.resv, fun b => .ok (.atomAdd64 (LAtom.ofBits 3 b))⟩),
   (0x248, ⟨false, true, LAtom.resv, fun b => .ok (.atomFadd (LAtom.ofBits 0 b))⟩),
   (0x249, ⟨false, true, LAtom.resv, fun b => .ok (.atomFadd (LAtom.ofBits 1 b))⟩),
   (0x24a, ⟨false, true, LAtom.resv, fun b => .ok (.atomFadd (LAtom.ofBits 2 b))⟩),
   (0x24b, ⟨false, true, LAtom.resv, fun b => .ok (.atomFadd (LAtom.ofBits 3 b))⟩),
   (0x24c, ⟨false, true, LAtom.resv, fun b => .ok (.atomImin (LAtom.ofBits 0 b))⟩),
   (0x24d, ⟨false, true, LAtom.resv, fun b => .ok (.atomImin (LAtom.ofBits 1 b))⟩),
   (0x24e, ⟨false, true, LAtom.resv, fun b => .ok (.atomImin (LAtom.ofBits 2 b))⟩),
   (0x24f, ⟨false, true, LAtom.resv, fun b => .ok (.atomImin (LAtom.ofBits 3 b))⟩),
   (0x250, ⟨false, true, LAtom.resv, fun b => .ok (.atomImax (LAtom.ofBits 0 b))⟩),
   (0x251, ⟨false, true, LAtom.resv, fun b => .ok (.atomImax (LAtom.ofBits 1 b))⟩),
   (0x252, ⟨false, true, LAtom.resv, fun b => .ok (.atomImax (LAtom.ofBits 2 b))⟩),
   (0x253, ⟨false, true, LAtom.resv, fun b => .ok (.atomImax (LAtom.ofBits 3 b))⟩),
   (0x254, ⟨false, true, LAtom.resv, fun b => .ok (.atomIminu (LAtom.ofBits 0 b))⟩),
   (0x255, ⟨false, true, LAtom.resv, fun b => .ok (.atomIminu (LAtom.ofBits 1 b))⟩),
   (0x256, ⟨false, true, LAtom.resv, fun b => .ok (.atomIminu (LAtom.ofBits 2 b))⟩),
   (0x257, ⟨false, true, LAtom.resv, fun b => .ok (.atomIminu (LAtom.ofBits 3 b))⟩),
   (0x258, ⟨false, true, LAtom.resv, fun b => .ok (.atomImaxu (LAtom.ofBits 0 b))⟩),
   (0x259, ⟨false, true, LAtom.resv, fun b => .ok (.atomImaxu (LAtom.ofBits 1 b))⟩),
   (0x25a, ⟨false, true, LAtom.resv, fun b => .ok (.atomImaxu (LAtom.ofBits 2 b))⟩),
   (0x25b, ⟨false, true, LAtom.resv, fun b => .ok (.atomImaxu (LAtom.ofBits 3 b))⟩),
   (0x25c, ⟨false, true, LAtom.resv, fun b => .ok (.atomAnd (LAtom.ofBits 0 b))⟩)]

noncomputable def laneRows4 : List (Nat × Row) :=
  [(0x25d, ⟨false, true, LAtom.resv, fun b => .ok (.atomAnd (LAtom.ofBits 1 b))⟩),
   (0x25e, ⟨false, true, LAtom.resv, fun b => .ok (.atomAnd (LAtom.ofBits 2 b))⟩),
   (0x25f, ⟨false, true, LAtom.resv, fun b => .ok (.atomAnd (LAtom.ofBits 3 b))⟩),
   (0x260, ⟨false, true, LAtom.resv, fun b => .ok (.atomOr (LAtom.ofBits 0 b))⟩),
   (0x261, ⟨false, true, LAtom.resv, fun b => .ok (.atomOr (LAtom.ofBits 1 b))⟩),
   (0x262, ⟨false, true, LAtom.resv, fun b => .ok (.atomOr (LAtom.ofBits 2 b))⟩),
   (0x263, ⟨false, true, LAtom.resv, fun b => .ok (.atomOr (LAtom.ofBits 3 b))⟩),
   (0x264, ⟨false, true, LAtom.resv, fun b => .ok (.atomXor (LAtom.ofBits 0 b))⟩),
   (0x265, ⟨false, true, LAtom.resv, fun b => .ok (.atomXor (LAtom.ofBits 1 b))⟩),
   (0x266, ⟨false, true, LAtom.resv, fun b => .ok (.atomXor (LAtom.ofBits 2 b))⟩),
   (0x267, ⟨false, true, LAtom.resv, fun b => .ok (.atomXor (LAtom.ofBits 3 b))⟩),
   (0x268, ⟨false, true, LAtom.resv, fun b => .ok (.atomXchg (LAtom.ofBits 0 b))⟩),
   (0x269, ⟨false, true, LAtom.resv, fun b => .ok (.atomXchg (LAtom.ofBits 1 b))⟩),
   (0x26a, ⟨false, true, LAtom.resv, fun b => .ok (.atomXchg (LAtom.ofBits 2 b))⟩),
   (0x26b, ⟨false, true, LAtom.resv, fun b => .ok (.atomXchg (LAtom.ofBits 3 b))⟩),
   (0x26c, ⟨false, true, LAtom.resv, fun b => .ok (.atomIncb (LAtom.ofBits 0 b))⟩),
   (0x26d, ⟨false, true, LAtom.resv, fun b => .ok (.atomIncb (LAtom.ofBits 1 b))⟩),
   (0x26e, ⟨false, true, LAtom.resv, fun b => .ok (.atomIncb (LAtom.ofBits 2 b))⟩),
   (0x26f, ⟨false, true, LAtom.resv, fun b => .ok (.atomIncb (LAtom.ofBits 3 b))⟩),
   (0x270, ⟨false, true, LAtom.resv, fun b => .ok (.atomCas32 (LAtom.ofBits 0 b))⟩),
   (0x271, ⟨false, true, LAtom.resv, fun b => .ok (.atomCas32 (LAtom.ofBits 1 b))⟩),
   (0x272, ⟨false, true, LAtom.resv, fun b => .ok (.atomCas32 (LAtom.ofBits 2 b))⟩),
   (0x273, ⟨false, true, LAtom.resv, fun b => .ok (.atomCas32 (LAtom.ofBits 3 b))⟩),
   (0x274, ⟨false, true, LAtom.resv, fun b => .ok (.atomCas64 (LAtom.ofBits 0 b))⟩),
   (0x275, ⟨false, true, LAtom.resv, fun b => .ok (.atomCas64 (LAtom.ofBits 1 b))⟩),
   (0x276, ⟨false, true, LAtom.resv, fun b => .ok (.atomCas64 (LAtom.ofBits 2 b))⟩),
   (0x277, ⟨false, true, LAtom.resv, fun b => .ok (.atomCas64 (LAtom.ofBits 3 b))⟩),
   (0x278, ⟨false, true, LAtom.resv, fun b => .ok (.atomCas128 (LAtom.ofBits 0 b))⟩),
   (0x279, ⟨false, true, LAtom.resv, fun b => .ok (.atomCas128 (LAtom.ofBits 1 b))⟩),
   (0x27a, ⟨false, true, LAtom.resv, fun b => .ok (.atomCas128 (LAtom.ofBits 2 b))⟩),
   (0x27b, ⟨false, true, LAtom.resv, fun b => .ok (.atomCas128 (LAtom.ofBits 3 b))⟩),
   (0x280, ⟨true, true, 0x1FFF00#21, buildFence⟩)]

noncomputable def laneRows5 : List (Nat × Row) :=
  [(0x281, ⟨true, true, LMS.resv, fun b => .ok (.waita (LMS.ofBits b))⟩),
   (0x2c0, ⟨true, false, LAtom.resv, fun b => .ok (.atomAddMap2 (LAtom.ofBits 0 b))⟩),
   (0x2c1, ⟨true, false, LAtom.resv, fun b => .ok (.atomAddMap2 (LAtom.ofBits 1 b))⟩),
   (0x2c2, ⟨true, false, LAtom.resv, fun b => .ok (.atomAddMap2 (LAtom.ofBits 2 b))⟩),
   (0x2c3, ⟨true, false, LAtom.resv, fun b => .ok (.atomAddMap2 (LAtom.ofBits 3 b))⟩),
   (0x2c4, ⟨true, false, LAtom.resv, fun b => .ok (.atomAdd64Map2 (LAtom.ofBits 0 b))⟩),
   (0x2c5, ⟨true, false, LAtom.resv, fun b => .ok (.atomAdd64Map2 (LAtom.ofBits 1 b))⟩),
   (0x2c6, ⟨true, false, LAtom.resv, fun b => .ok (.atomAdd64Map2 (LAtom.ofBits 2 b))⟩),
   (0x2c7, ⟨true, false, LAtom.resv, fun b => .ok (.atomAdd64Map2 (LAtom.ofBits 3 b))⟩),
   (0x2c8, ⟨true, false, LAtom.resv, fun b => .ok (.atomFaddMap2 (LAtom.ofBits 0 b))⟩),
   (0x2c9, ⟨true, false, LAtom.resv, fun b => .ok (.atomFaddMap2 (LAtom.ofBits 1 b))⟩),
   (0x2ca, ⟨true, false, LAtom.resv, fun b => .ok (.atomFaddMap2 (LAtom.ofBits 2 b))⟩),
   (0x2cb, ⟨true, false, LAtom.resv, fun b => .ok (.atomFaddMap2 (LAtom.ofBits 3 b))⟩),
   (0x2cc, ⟨true, false, LAtom.resv, fun b => .ok (.atomIminMap2 (LAtom.ofBits 0 b))⟩),
   (0x2cd, ⟨true, false, LAtom.resv, fun b => .ok (.atomIminMap2 (LAtom.ofBits 1 b))⟩),
   (0x2ce, ⟨true, false, LAtom.resv, fun b => .ok (.atomIminMap2 (LAtom.ofBits 2 b))⟩),
   (0x2cf, ⟨true, false, LAtom.resv, fun b => .ok (.atomIminMap2 (LAtom.ofBits 3 b))⟩),
   (0x2d0, ⟨true, false, LAtom.resv, fun b => .ok (.atomImaxMap2 (LAtom.ofBits 0 b))⟩),
   (0x2d1, ⟨true, false, LAtom.resv, fun b => .ok (.atomImaxMap2 (LAtom.ofBits 1 b))⟩),
   (0x2d2, ⟨true, false, LAtom.resv, fun b => .ok (.atomImaxMap2 (LAtom.ofBits 2 b))⟩),
   (0x2d3, ⟨true, false, LAtom.resv, fun b => .ok (.atomImaxMap2 (LAtom.ofBits 3 b))⟩),
   (0x2d4, ⟨true, false, LAtom.resv, fun b => .ok (.atomIminuMap2 (LAtom.ofBits 0 b))⟩),
   (0x2d5, ⟨true, false, LAtom.resv, fun b => .ok (.atomIminuMap2 (LAtom.ofBits 1 b))⟩),
   (0x2d6, ⟨true, false, LAtom.resv, fun b => .ok (.atomIminuMap2 (LAtom.ofBits 2 b))⟩),
   (0x2d7, ⟨true, false, LAtom.resv, fun b => .ok (.atomIminuMap2 (LAtom.ofBits 3 b))⟩),
   (0x2d8, ⟨true, false, LAtom.resv, fun b => .ok (.atomImaxuMap2 (LAtom.ofBits 0 b))⟩),
   (0x2d9, ⟨true, false, LAtom.resv, fun b => .ok (.atomImaxuMap2 (LAtom.ofBits 1 b))⟩),
   (0x2da, ⟨true, false, LAtom.resv, fun b => .ok (.atomImaxuMap2 (LAtom.ofBits 2 b))⟩),
   (0x2db, ⟨true, false, LAtom.resv, fun b => .ok (.atomImaxuMap2 (LAtom.ofBits 3 b))⟩),
   (0x2dc, ⟨true, false, LAtom.resv, fun b => .ok (.atomAndMap2 (LAtom.ofBits 0 b))⟩),
   (0x2dd, ⟨true, false, LAtom.resv, fun b => .ok (.atomAndMap2 (LAtom.ofBits 1 b))⟩),
   (0x2de, ⟨true, false, LAtom.resv, fun b => .ok (.atomAndMap2 (LAtom.ofBits 2 b))⟩)]

noncomputable def laneRows6 : List (Nat × Row) :=
  [(0x2df, ⟨true, false, LAtom.resv, fun b => .ok (.atomAndMap2 (LAtom.ofBits 3 b))⟩),
   (0x2e0, ⟨true, false, LAtom.resv, fun b => .ok (.atomOrMap2 (LAtom.ofBits 0 b))⟩),
   (0x2e1, ⟨true, false, LAtom.resv, fun b => .ok (.atomOrMap2 (LAtom.ofBits 1 b))⟩),
   (0x2e2, ⟨true, false, LAtom.resv, fun b => .ok (.atomOrMap2 (LAtom.ofBits 2 b))⟩),
   (0x2e3, ⟨true, false, LAtom.resv, fun b => .ok (.atomOrMap2 (LAtom.ofBits 3 b))⟩),
   (0x2e4, ⟨true, false, LAtom.resv, fun b => .ok (.atomXorMap2 (LAtom.ofBits 0 b))⟩),
   (0x2e5, ⟨true, false, LAtom.resv, fun b => .ok (.atomXorMap2 (LAtom.ofBits 1 b))⟩),
   (0x2e6, ⟨true, false, LAtom.resv, fun b => .ok (.atomXorMap2 (LAtom.ofBits 2 b))⟩),
   (0x2e7, ⟨true, false, LAtom.resv, fun b => .ok (.atomXorMap2 (LAtom.ofBits 3 b))⟩),
   (0x2e8, ⟨true, false, LAtom.resv, fun b => .ok (.atomXchgMap2 (LAtom.ofBits 0 b))⟩),
   (0x2e9, ⟨true, false, LAtom.resv, fun b => .ok (.atomXchgMap2 (LAtom.ofBits 1 b))⟩),
   (0x2ea, ⟨true, false, LAtom.resv, fun b => .ok (.atomXchgMap2 (LAtom.ofBits 2 b))⟩),
   (0x2eb, ⟨true, false, LAtom.resv, fun b => .ok (.atomXchgMap2 (LAtom.ofBits 3 b))⟩),
   (0x2ec, ⟨true, false, LAtom.resv, fun b => .ok (.atomIncbMap2 (LAtom.ofBits 0 b))⟩),
   (0x2ed, ⟨true, false, LAtom.resv, fun b => .ok (.atomIncbMap2 (LAtom.ofBits 1 b))⟩),
   (0x2ee, ⟨true, false, LAtom.resv, fun b => .ok (.atomIncbMap2 (LAtom.ofBits 2 b))⟩),
   (0x2ef, ⟨true, false, LAtom.resv, fun b => .ok (.atomIncbMap2 (LAtom.ofBits 3 b))⟩),
   (0x2f0, ⟨true, false, LAtom.resv, fun b => .ok (.atomCas32Map2 (LAtom.ofBits 0 b))⟩),
   (0x2f1, ⟨true, false, LAtom.resv, fun b => .ok (.atomCas32Map2 (LAtom.ofBits 1 b))⟩),
   (0x2f2, ⟨true, false, LAtom.resv, fun b => .ok (.atomCas32Map2 (LAtom.ofBits 2 b))⟩),
   (0x2f3, ⟨true, false, LAtom.resv, fun b => .ok (.atomCas32Map2 (LAtom.ofBits 3 b))⟩),
   (0x2f4, ⟨true, false, LAtom.resv, fun b => .ok (.atomCas64Map2 (LAtom.ofBits 0 b))⟩),
   (0x2f5, ⟨true, false, LAtom.resv, fun b => .ok (.atomCas64Map2 (LAtom.ofBits 1 b))⟩),
   (0x2f6, ⟨true, false, LAtom.resv, fun b => .ok (.atomCas64Map2 (LAtom.ofBits 2 b))⟩),
   (0x2f7, ⟨true, false, LAtom.resv, fun b => .ok (.atomCas64Map2 (LAtom.ofBits 3 b))⟩),
   (0x2f8, ⟨true, false, LAtom.resv, fun b => .ok (.atomCas128Map2 (LAtom.ofBits 0 b))⟩),
   (0x2f9, ⟨true, false, LAtom.resv, fun b => .ok (.atomCas128Map2 (LAtom.ofBits 1 b))⟩),
   (0x2fa, ⟨true, false, LAtom.resv, fun b => .ok (.atomCas128Map2 (LAtom.ofBits 2 b))⟩),
   (0x2fb, ⟨true, false, LAtom.resv, fun b => .ok (.atomCas128Map2 (LAtom.ofBits 3 b))⟩),
   (0x300, ⟨true, true, LL.resv, fun b => .ok (.lld8 (LL.ofBits b))⟩),
   (0x301, ⟨true, true, LL.resv, fun b => .ok (.lld16 (LL.ofBits b))⟩),
   (0x302, ⟨true, true, LL.resv, fun b => .ok (.lld32 (LL.ofBits b))⟩)]

noncomputable def laneRows7 : List (Nat × Row) :=
  [(0x303, ⟨true, true, LL.resv, fun b => .ok (.lld64 (LL.ofBits b))⟩),
   (0x304, ⟨true, true, LL.resv, fun b => .ok (.lld128 (LL.ofBits b))⟩),
   (0x308, ⟨true, true, LL.resv, fun b => .ok (.lst8 (LL.ofBits b))⟩),
   (0x309, ⟨true, true, LL.resv, fun b => .ok (.lst16 (LL.ofBits b))⟩),
   (0x30a, ⟨true, true, LL.resv, fun b => .ok (.lst32 (LL.ofBits b))⟩),
   (0x30b, ⟨true, true, LL.resv, fun b => .ok (.lst64 (LL.ofBits b))⟩),
   (0x30c, ⟨true, true, LL.resv, fun b => .ok (.lst128 (LL.ofBits b))⟩),
   (0x310, ⟨true, true, LL.resv, fun b => .ok (.tld8 (LL.ofBits b))⟩),
   (0x311, ⟨true, true, LL.resv, fun b => .ok (.tld16 (LL.ofBits b))⟩),
   (0x312, ⟨true, true, LL.resv, fun b => .ok (.tld32 (LL.ofBits b))⟩),
   (0x318, ⟨false, true, LL.resv, fun b => .ok (.plnw (LL.ofBits b))⟩),
   (0x319, ⟨false, true, LL.resv, fun b => .ok (.plnr (LL.ofBits b))⟩),
   (0x31a, ⟨false, true, LTeb.resv, fun b => .ok (.tebq (LTeb.ofBits b))⟩),
   (0x31b, ⟨false, true, LTeb.resv, fun b => .ok (.tebl (LTeb.ofBits b))⟩),
   (0x320, ⟨true, true, LL.resv, fun b => .ok (.latomAdd (LL.ofBits b))⟩),
   (0x321, ⟨true, true, LL.resv, fun b => .ok (.latomImin (LL.ofBits b))⟩),
   (0x322, ⟨true, true, LL.resv, fun b => .ok (.latomImax (LL.ofBits b))⟩),
   (0x323, ⟨true, true, LL.resv, fun b => .ok (.latomAnd (LL.ofBits b))⟩),
   (0x324, ⟨true, true, LL.resv, fun b => .ok (.latomOr (LL.ofBits b))⟩),
   (0x325, ⟨true, true, LL.resv, fun b => .ok (.latomXor (LL.ofBits b))⟩),
   (0x326, ⟨true, true, LL.resv, fun b => .ok (.latomXchg (LL.ofBits b))⟩),
   (0x327, ⟨true, true, LL.resv, fun b => .ok (.latomCas (LL.ofBits b))⟩),
   (0x380, ⟨true, true, LB.resv, fun b => .ok (.bra (LB.ofBits b))⟩),
   (0x381, ⟨true, true, LB.resv, fun b => .ok (.call (LB.ofBits b))⟩),
   (0x382, ⟨true, true, LJ.resv, fun b => .ok (.callr (LJ.ofBits b))⟩),
   (0x383, ⟨true, true, LG.resv, fun b => .ok (.ret (LG.ofBits b))⟩),
   (0x384, ⟨true, true, LJ.resv, fun b => .ok (.jmpr (LJ.ofBits b))⟩),
   (0x385, ⟨true, true, LG.resv, fun b => .ok (.rcb (LG.ofBits b))⟩),
   (0x386, ⟨true, true, LG.resv, fun b => .ok (.exit (LG.ofBits b))⟩),
   (0x387, ⟨true, true, LSetpri.resv, fun b => .ok (.setpri (LSetpri.ofBits b))⟩),
   (0x388, ⟨true, true, LG.resv, fun b => .ok (.yield (LG.ofBits b))⟩),
   (0x389, ⟨true, true, LTrap.resv, fun b => .ok (.trap (LTrap.ofBits b))⟩)]

noncomputable def laneRows8 : List (Nat × Row) :=
  [(0x38a, ⟨true, true, LG.resv, fun b => .ok (.brk (LG.ofBits b))⟩),
   (0x3a0, ⟨true, true, LBar.resv, fun b => .ok (.join (LBar.ofBits b))⟩),
   (0x3a1, ⟨true, true, LBar.resv, fun b => .ok (.leave (LBar.ofBits b))⟩),
   (0x3a2, ⟨true, true, LBar.resv, fun b => .ok (.bara (LBar.ofBits b))⟩),
   (0x3a3, ⟨true, true, LBar.resv, fun b => .ok (.barw (LBar.ofBits b))⟩),
   (0x3a4, ⟨true, true, LBar.resv, fun b => .ok (.bars (LBar.ofBits b))⟩),
   (0x3c0, ⟨false, true, LRk.resv, fun b => .ok (.rkpush (LRk.ofBits b))⟩),
   (0x3c1, ⟨false, true, LAcadd.resv, fun b => .ok (.acadd (LAcadd.ofBits b))⟩),
   (0x3c2, ⟨false, true, LRktest.resv, fun b => .ok (.rktest (LRktest.ofBits b))⟩),
   (0x3d0, ⟨false, true, LM.resv, fun b => .ok (.bmrank (LM.ofBits b))⟩),
   (0x3d1, ⟨false, true, LM.resv, fun b => .ok (.bmsel (LM.ofBits b))⟩)]

/-- The lane opcodes. -/
noncomputable def laneRows : List (Nat × Row) :=
  laneRows0 ++ laneRows1 ++ laneRows2 ++ laneRows3 ++ laneRows4 ++ laneRows5 ++ laneRows6 ++ laneRows7 ++ laneRows8

noncomputable def uniRows0 : List (Nat × Row) :=
  [(0x0, ⟨true, true, UR.resv, fun b => .ok (.uadd (UR.ofBits b))⟩),
   (0x1, ⟨true, true, UR.resv, fun b => .ok (.usub (UR.ofBits b))⟩),
   (0x2, ⟨true, true, UR.resv, fun b => .ok (.umul (UR.ofBits b))⟩),
   (0x3, ⟨true, true, UR.resv, fun b => .ok (.uand (UR.ofBits b))⟩),
   (0x4, ⟨true, true, UR.resv, fun b => .ok (.uor (UR.ofBits b))⟩),
   (0x5, ⟨true, true, UR.resv, fun b => .ok (.uxor (UR.ofBits b))⟩),
   (0x6, ⟨true, true, UR.resv, fun b => .ok (.ushl (UR.ofBits b))⟩),
   (0x7, ⟨true, true, URM.resv, fun b => .ok (.ushr (URM.ofBits b))⟩),
   (0x8, ⟨true, true, URM.resv, fun b => .ok (.umin (URM.ofBits b))⟩),
   (0x9, ⟨true, true, URM.resv, fun b => .ok (.umax (URM.ofBits b))⟩),
   (0xa, ⟨true, true, UR.resv, fun b => .ok (.usel (UR.ofBits b))⟩),
   (0x10, ⟨true, true, UI.resv, fun b => .ok (.uaddi (UI.ofBits b))⟩),
   (0x11, ⟨true, true, UI5.resv, fun b => .ok (.ushli (UI5.ofBits b))⟩),
   (0x12, ⟨true, true, UI.resv, fun b => .ok (.uandi (UI.ofBits b))⟩),
   (0x18, ⟨true, true, UW.resv, fun b => .ok (.umovi (UW.ofBits b))⟩),
   (0x19, ⟨true, true, UW.resv, fun b => .ok (.umovhi (UW.ofBits b))⟩),
   (0x20, ⟨true, true, UCab.resv, fun b => .ok (.ucmpEq (UCab.ofBits b))⟩),
   (0x21, ⟨true, true, UCab.resv, fun b => .ok (.ucmpNe (UCab.ofBits b))⟩),
   (0x22, ⟨true, true, UCab.resv, fun b => .ok (.ucmpLt (UCab.ofBits b))⟩),
   (0x23, ⟨true, true, UCab.resv, fun b => .ok (.ucmpLe (UCab.ofBits b))⟩),
   (0x24, ⟨true, true, UCab.resv, fun b => .ok (.ucmpGt (UCab.ofBits b))⟩),
   (0x25, ⟨true, true, UCab.resv, fun b => .ok (.ucmpGe (UCab.ofBits b))⟩),
   (0x26, ⟨true, true, UCab.resv, fun b => .ok (.ucmpLtu (UCab.ofBits b))⟩),
   (0x27, ⟨true, true, UCab.resv, fun b => .ok (.ucmpLeu (UCab.ofBits b))⟩),
   (0x28, ⟨true, true, UCab.resv, fun b => .ok (.ucmpGtu (UCab.ofBits b))⟩),
   (0x29, ⟨true, true, UCab.resv, fun b => .ok (.ucmpGeu (UCab.ofBits b))⟩),
   (0x30, ⟨true, true, UMovsr.resv, fun b => .ok (.umovsr (UMovsr.ofBits b))⟩),
   (0x31, ⟨true, true, UDA.resv, fun b => .ok (.umov (UDA.ofBits b))⟩),
   (0x40, ⟨true, true, UI.resv, fun b => .ok (.uld32 (UI.ofBits b))⟩),
   (0x41, ⟨true, true, UI.resv, fun b => .ok (.uld64 (UI.ofBits b))⟩),
   (0x42, ⟨true, true, UI.resv, fun b => .ok (.ust32 (UI.ofBits b))⟩),
   (0x43, ⟨true, true, UI.resv, fun b => .ok (.ust64 (UI.ofBits b))⟩)]

noncomputable def uniRows1 : List (Nat × Row) :=
  [(0x80, ⟨true, true, UB.resv, fun b => .ok (.ubra (UB.ofBits b))⟩),
   (0x82, ⟨true, true, UAB.resv, fun b => .ok (.jmpf (UAB.ofBits b))⟩),
   (0x83, ⟨true, true, UA.resv, fun b => .ok (.cfetch (UA.ofBits b))⟩),
   (0x84, ⟨true, true, UCa.resv, fun b => .ok (.csegq (UCa.ofBits b))⟩),
   (0x100, ⟨true, true, UDA.resv, fun b => .ok (.launch (UDA.ofBits b))⟩),
   (0x101, ⟨true, true, UDA.resv, fun b => .ok (.joinl (UDA.ofBits b))⟩),
   (0x102, ⟨true, true, UAB.resv, fun b => .ok (.mstart (UAB.ofBits b))⟩),
   (0x110, ⟨true, true, UA.resv, fun b => .ok (.btcopy (UA.ofBits b))⟩),
   (0x111, ⟨true, true, UCab.resv, fun b => .ok (.bttest (UCab.ofBits b))⟩),
   (0x120, ⟨true, true, UWaitc.resv, fun b => .ok (.waitc (UWaitc.ofBits b))⟩),
   (0x130, ⟨true, true, UQbind.resv, fun b => .ok (.qbind (UQbind.ofBits b))⟩),
   (0x131, ⟨true, true, UDA.resv, fun b => .ok (.qstat (UDA.ofBits b))⟩),
   (0x138, ⟨false, true, URing.resv, fun b => .ok (.rclaim (URing.ofBits b))⟩),
   (0x139, ⟨false, true, UAB.resv, fun b => .ok (.rpub (UAB.ofBits b))⟩),
   (0x13a, ⟨false, true, URing.resv, fun b => .ok (.rtake (URing.ofBits b))⟩),
   (0x13b, ⟨false, true, UAB.resv, fun b => .ok (.rfree (UAB.ofBits b))⟩),
   (0x140, ⟨true, true, UA.resv, fun b => .ok (.barrem (UA.ofBits b))⟩),
   (0x150, ⟨true, true, UA.resv &&& 0x1FFFF8#21, buildBkop⟩),
   (0x151, ⟨true, true, UA.resv, fun b => .ok (.bkred (UA.ofBits b))⟩),
   (0x152, ⟨false, true, UA.resv &&& 0x1FFFFE#21, buildBkrank⟩),
   (0x153, ⟨true, true, UAB.resv, fun b => .ok (.bkread (UAB.ofBits b))⟩),
   (0x160, ⟨false, true, UAcdecl.resv &&& 0x1FF7FF#21, buildAcdecl⟩),
   (0x161, ⟨false, true, UAcc.resv, fun b => .ok (.acclr (UAcc.ofBits b))⟩),
   (0x162, ⟨false, true, UAccA.resv, fun b => .ok (.acst (UAccA.ofBits b))⟩),
   (0x163, ⟨false, true, UAccA.resv, fun b => .ok (.acmrg (UAccA.ofBits b))⟩),
   (0x164, ⟨false, true, UAccA.resv, fun b => .ok (.acraise (UAccA.ofBits b))⟩),
   (0x165, ⟨false, true, UAccmp.resv, fun b => .ok (.accmp (UAccmp.ofBits b))⟩),
   (0x166, ⟨false, true, UAcrd.resv, fun b => .ok (.acrd (UAcrd.ofBits b))⟩),
   (0x180, ⟨false, true, URM.resv, fun b => .ok (.mma (URM.ofBits b))⟩),
   (0x181, ⟨true, true, UAcc.resv, fun b => .ok (.mzero (UAcc.ofBits b))⟩),
   (0x182, ⟨false, true, UMpost.resv, fun b => .ok (.mpost (UMpost.ofBits b))⟩),
   (0x183, ⟨true, true, UAB.resv, fun b => .ok (.mact (UAB.ofBits b))⟩)]

noncomputable def uniRows2 : List (Nat × Row) :=
  [(0x184, ⟨true, true, UC.resv, fun b => .ok (.mend (UC.ofBits b))⟩),
   (0x1a0, ⟨false, true, UDA.resv, fun b => .ok (.ecnt (UDA.ofBits b))⟩),
   (0x1a1, ⟨false, true, UR.resv, fun b => .ok (.rtlook (UR.ofBits b))⟩),
   (0x1a2, ⟨false, true, UD.resv, fun b => .ok (.rtpin (UD.ofBits b))⟩),
   (0x1a3, ⟨false, true, UA.resv, fun b => .ok (.rtunpin (UA.ofBits b))⟩),
   (0x1a4, ⟨false, true, UA.resv, fun b => .ok (.rtmerge (UA.ofBits b))⟩),
   (0x1c0, ⟨true, true, UI.resv, fun b => .ok (.syscall (UI.ofBits b))⟩),
   (0x1c1, ⟨true, true, UImm.resv, fun b => .ok (.utrap (UImm.ofBits b))⟩)]

/-- The uniform opcodes. -/
noncomputable def uniRows : List (Nat × Row) :=
  uniRows0 ++ uniRows1 ++ uniRows2

/-- Whether a decode table maps the row (03 R49, R51: maps 2 and 3 exist). -/
def Row.mapped (r : Row) (map : Nat) : Bool := (map = 2 && r.map2) || (map = 3 && r.map3)

/-- Decodes the fields of a mapped opcode: reserved bits, operation, then the checks on operands, lowest cause
first (03 R57). -/
def Row.decode (r : Row) (b : BitVec 21) : Except Reject Instr :=
  if b &&& r.resv ≠ 0 then .error .reserved
  else
    match r.build b with
    | .error e => .error e
    | .ok i =>
      match i.check with
      | some e => .error e
      | none => .ok i

/-- Decodes by set bit, opcode and fields. -/
noncomputable def decodeParts (map : Nat) (set : Bool) (op : BitVec 10) (b : BitVec 21) : Except Reject Instr :=
  match lookupRow (if set then uniRows else laneRows) op.toNat with
  | none => .error .unmapped
  | some r => if r.mapped map then r.decode b else .error .unmapped

/-- Decodes a word under a decode table (03 R56, R57: causes 1-7, which depend on the word alone). -/
noncomputable def decodeWord (map : Nat) (w : Word) : Except Reject Instr :=
  decodeParts map (w.getLsbD 31) (w.extractLsb' 21 10) (w.extractLsb' 0 21)

/-- Decodes the four bytes of a word, lowest address first (03 R42). -/
noncomputable def decodeBytes (map : Nat) (b0 b1 b2 b3 : Byte) : Except Reject Instr := decodeWord map (b3 ++ b2 ++ b1 ++ b0)

/-- The decode table under which an opcode-table row stands: map 2 for the moved atomics, else map 3 (03 R51). -/
def tableMap (w : Word) : Nat :=
  if !w.getLsbD 31 && 0x2C0 ≤ (w.extractLsb' 21 10).toNat && (w.extractLsb' 21 10).toNat ≤ 0x2FB then 2 else 3

/-- The instruction the decoder reads from a table row's word. -/
noncomputable def decodeTableWord (nbits w : Nat) : Option Instr :=
  let v : Word := BitVec.ofNat 32 (w % 2 ^ nbits)
  match decodeWord (tableMap v) v with
  | .ok i => some i
  | .error _ => none

/-! ## The encoder -/

/-- A lane word. -/
def laneWord (op : BitVec 10) (b : BitVec 21) : Word := 0#1 ++ op ++ b

/-- A uniform word. -/
def uniWord (op : BitVec 10) (b : BitVec 21) : Word := 1#1 ++ op ++ b

/-- The word of an instruction; an event has none. -/
def encode (i : Instr) : Option Word :=
  match i with
  | .iadd w => some (laneWord 0x0 w.toBits)
  | .isub w => some (laneWord 0x1 w.toBits)
  | .imul w => some (laneWord 0x2 w.toBits)
  | .imulhi w => some (laneWord 0x3 w.toBits)
  | .imulhu w => some (laneWord 0x4 w.toBits)
  | .imad w => some (laneWord 0x5 w.toBits)
  | .imin w => some (laneWord 0x6 w.toBits)
  | .imax w => some (laneWord 0x7 w.toBits)
  | .iminu w => some (laneWord 0x8 w.toBits)
  | .imaxu w => some (laneWord 0x9 w.toBits)
  | .and w => some (laneWord 0xa w.toBits)
  | .or w => some (laneWord 0xb w.toBits)
  | .xor w => some (laneWord 0xc w.toBits)
  | .andn w => some (laneWord 0xd w.toBits)
  | .shl w => some (laneWord 0xe w.toBits)
  | .shr w => some (laneWord 0xf w.toBits)
  | .sar w => some (laneWord 0x10 w.toBits)
  | .popc w => some (laneWord 0x11 w.toBits)
  | .clz w => some (laneWord 0x12 w.toBits)
  | .brev w => some (laneWord 0x13 w.toBits)
  | .iaddsat w => some (laneWord 0x14 w.toBits)
  | .icmpEq w => some (laneWord 0x20 w.toBits)
  | .icmpNe w => some (laneWord 0x21 w.toBits)
  | .icmpLt w => some (laneWord 0x22 w.toBits)
  | .icmpLe w => some (laneWord 0x23 w.toBits)
  | .icmpGt w => some (laneWord 0x24 w.toBits)
  | .icmpGe w => some (laneWord 0x25 w.toBits)
  | .icmpLtu w => some (laneWord 0x26 w.toBits)
  | .icmpLeu w => some (laneWord 0x27 w.toBits)
  | .icmpGtu w => some (laneWord 0x28 w.toBits)
  | .icmpGeu w => some (laneWord 0x29 w.toBits)
  | .fcmpEq w => some (laneWord 0x2a w.toBits)
  | .fcmpNe w => some (laneWord 0x2b w.toBits)
  | .fcmpLt w => some (laneWord 0x2c w.toBits)
  | .fcmpLe w => some (laneWord 0x2d w.toBits)
  | .fcmpGt w => some (laneWord 0x2e w.toBits)
  | .fcmpGe w => some (laneWord 0x2f w.toBits)
  | .fcmpOrd w => some (laneWord 0x30 w.toBits)
  | .fcmpUno w => some (laneWord 0x31 w.toBits)
  | .pand w => some (laneWord 0x32 w.toBits)
  | .por w => some (laneWord 0x33 w.toBits)
  | .pxor w => some (laneWord 0x34 w.toBits)
  | .pnot w => some (laneWord 0x35 w.toBits)
  | .sel w => some (laneWord 0x36 w.toBits)
  | .ballot w => some (laneWord 0x37 w.toBits)
  | .shfl w => some (laneWord 0x38 w.toBits)
  | .shflx w => some (laneWord 0x39 w.toBits)
  | .iaddi w => some (laneWord 0x40 w.toBits)
  | .andi w => some (laneWord 0x41 w.toBits)
  | .ori w => some (laneWord 0x42 w.toBits)
  | .xori w => some (laneWord 0x43 w.toBits)
  | .shli w => some (laneWord 0x44 w.toBits)
  | .shri w => some (laneWord 0x45 w.toBits)
  | .sari w => some (laneWord 0x46 w.toBits)
  | .imuli w => some (laneWord 0x47 w.toBits)
  | .movi w => some (laneWord 0x50 w.toBits)
  | .movhi w => some (laneWord 0x51 w.toBits)
  | .mov w => some (laneWord 0x60 w.toBits)
  | .movs w => some (laneWord 0x61 w.toBits)
  | .movsr w => some (laneWord 0x62 w.toBits)
  | .movp w => some (laneWord 0x63 w.toBits)
  | .pmov w => some (laneWord 0x64 w.toBits)
  | .fadd w => some (laneWord 0x100 w.toBits)
  | .fsub w => some (laneWord 0x101 w.toBits)
  | .fmul w => some (laneWord 0x102 w.toBits)
  | .ffma w => some (laneWord 0x103 w.toBits)
  | .fmin w => some (laneWord 0x104 w.toBits)
  | .fmax w => some (laneWord 0x105 w.toBits)
  | .fabs w => some (laneWord 0x106 w.toBits)
  | .fneg w => some (laneWord 0x107 w.toBits)
  | .badd2 w => some (laneWord 0x108 w.toBits)
  | .bmul2 w => some (laneWord 0x109 w.toBits)
  | .bfma2 w => some (laneWord 0x10a w.toBits)
  | .hfma2 w => some (laneWord 0x10b w.toBits)
  | .rcp w => some (laneWord 0x110 w.toBits)
  | .rsq w => some (laneWord 0x111 w.toBits)
  | .exp2 w => some (laneWord 0x112 w.toBits)
  | .log2 w => some (laneWord 0x113 w.toBits)
  | .sin w => some (laneWord 0x114 w.toBits)
  | .cos w => some (laneWord 0x115 w.toBits)
  | .tanh w => some (laneWord 0x116 w.toBits)
  | .cvt w => some (laneWord 0x120 w.toBits)
  | .ld8 w => some (laneWord 0x200 w.toBits)
  | .ld8s w => some (laneWord 0x201 w.toBits)
  | .ld16 w => some (laneWord 0x202 w.toBits)
  | .ld16s w => some (laneWord 0x203 w.toBits)
  | .ld32 w => some (laneWord 0x204 w.toBits)
  | .ld64 w => some (laneWord 0x205 w.toBits)
  | .ld128 w => some (laneWord 0x206 w.toBits)
  | .st8 w => some (laneWord 0x208 w.toBits)
  | .st16 w => some (laneWord 0x209 w.toBits)
  | .st32 w => some (laneWord 0x20a w.toBits)
  | .st64 w => some (laneWord 0x20b w.toBits)
  | .st128 w => some (laneWord 0x20c w.toBits)
  | .ldaq32 w => some (laneWord 0x210 w.toBits)
  | .ldaq64 w => some (laneWord 0x211 w.toBits)
  | .strl32 w => some (laneWord 0x212 w.toBits)
  | .strl64 w => some (laneWord 0x213 w.toBits)
  | .pref w => some (laneWord 0x218 w.toBits)
  | .atomAdd w => some (laneWord (0x240#10 + w.ord.setWidth 10) w.toBits)
  | .atomAdd64 w => some (laneWord (0x244#10 + w.ord.setWidth 10) w.toBits)
  | .atomFadd w => some (laneWord (0x248#10 + w.ord.setWidth 10) w.toBits)
  | .atomImin w => some (laneWord (0x24c#10 + w.ord.setWidth 10) w.toBits)
  | .atomImax w => some (laneWord (0x250#10 + w.ord.setWidth 10) w.toBits)
  | .atomIminu w => some (laneWord (0x254#10 + w.ord.setWidth 10) w.toBits)
  | .atomImaxu w => some (laneWord (0x258#10 + w.ord.setWidth 10) w.toBits)
  | .atomAnd w => some (laneWord (0x25c#10 + w.ord.setWidth 10) w.toBits)
  | .atomOr w => some (laneWord (0x260#10 + w.ord.setWidth 10) w.toBits)
  | .atomXor w => some (laneWord (0x264#10 + w.ord.setWidth 10) w.toBits)
  | .atomXchg w => some (laneWord (0x268#10 + w.ord.setWidth 10) w.toBits)
  | .atomIncb w => some (laneWord (0x26c#10 + w.ord.setWidth 10) w.toBits)
  | .atomCas32 w => some (laneWord (0x270#10 + w.ord.setWidth 10) w.toBits)
  | .atomCas64 w => some (laneWord (0x274#10 + w.ord.setWidth 10) w.toBits)
  | .atomCas128 w => some (laneWord (0x278#10 + w.ord.setWidth 10) w.toBits)
  | .atomAddMap2 w => some (laneWord (0x2c0#10 + w.ord.setWidth 10) w.toBits)
  | .atomAdd64Map2 w => some (laneWord (0x2c4#10 + w.ord.setWidth 10) w.toBits)
  | .atomFaddMap2 w => some (laneWord (0x2c8#10 + w.ord.setWidth 10) w.toBits)
  | .atomIminMap2 w => some (laneWord (0x2cc#10 + w.ord.setWidth 10) w.toBits)
  | .atomImaxMap2 w => some (laneWord (0x2d0#10 + w.ord.setWidth 10) w.toBits)
  | .atomIminuMap2 w => some (laneWord (0x2d4#10 + w.ord.setWidth 10) w.toBits)
  | .atomImaxuMap2 w => some (laneWord (0x2d8#10 + w.ord.setWidth 10) w.toBits)
  | .atomAndMap2 w => some (laneWord (0x2dc#10 + w.ord.setWidth 10) w.toBits)
  | .atomOrMap2 w => some (laneWord (0x2e0#10 + w.ord.setWidth 10) w.toBits)
  | .atomXorMap2 w => some (laneWord (0x2e4#10 + w.ord.setWidth 10) w.toBits)
  | .atomXchgMap2 w => some (laneWord (0x2e8#10 + w.ord.setWidth 10) w.toBits)
  | .atomIncbMap2 w => some (laneWord (0x2ec#10 + w.ord.setWidth 10) w.toBits)
  | .atomCas32Map2 w => some (laneWord (0x2f0#10 + w.ord.setWidth 10) w.toBits)
  | .atomCas64Map2 w => some (laneWord (0x2f4#10 + w.ord.setWidth 10) w.toBits)
  | .atomCas128Map2 w => some (laneWord (0x2f8#10 + w.ord.setWidth 10) w.toBits)
  | .fence w => some (laneWord 0x280 w.toBits)
  | .fenceAcq w => some (laneWord 0x280 (w.toBits ||| 0x8))
  | .fenceRel w => some (laneWord 0x280 (w.toBits ||| 0x10))
  | .waita w => some (laneWord 0x281 w.toBits)
  | .lld8 w => some (laneWord 0x300 w.toBits)
  | .lld16 w => some (laneWord 0x301 w.toBits)
  | .lld32 w => some (laneWord 0x302 w.toBits)
  | .lld64 w => some (laneWord 0x303 w.toBits)
  | .lld128 w => some (laneWord 0x304 w.toBits)
  | .lst8 w => some (laneWord 0x308 w.toBits)
  | .lst16 w => some (laneWord 0x309 w.toBits)
  | .lst32 w => some (laneWord 0x30a w.toBits)
  | .lst64 w => some (laneWord 0x30b w.toBits)
  | .lst128 w => some (laneWord 0x30c w.toBits)
  | .tld8 w => some (laneWord 0x310 w.toBits)
  | .tld16 w => some (laneWord 0x311 w.toBits)
  | .tld32 w => some (laneWord 0x312 w.toBits)
  | .plnw w => some (laneWord 0x318 w.toBits)
  | .plnr w => some (laneWord 0x319 w.toBits)
  | .tebq w => some (laneWord 0x31a w.toBits)
  | .tebl w => some (laneWord 0x31b w.toBits)
  | .latomAdd w => some (laneWord 0x320 w.toBits)
  | .latomImin w => some (laneWord 0x321 w.toBits)
  | .latomImax w => some (laneWord 0x322 w.toBits)
  | .latomAnd w => some (laneWord 0x323 w.toBits)
  | .latomOr w => some (laneWord 0x324 w.toBits)
  | .latomXor w => some (laneWord 0x325 w.toBits)
  | .latomXchg w => some (laneWord 0x326 w.toBits)
  | .latomCas w => some (laneWord 0x327 w.toBits)
  | .bra w => some (laneWord 0x380 w.toBits)
  | .call w => some (laneWord 0x381 w.toBits)
  | .callr w => some (laneWord 0x382 w.toBits)
  | .ret w => some (laneWord 0x383 w.toBits)
  | .jmpr w => some (laneWord 0x384 w.toBits)
  | .rcb w => some (laneWord 0x385 w.toBits)
  | .exit w => some (laneWord 0x386 w.toBits)
  | .setpri w => some (laneWord 0x387 w.toBits)
  | .yield w => some (laneWord 0x388 w.toBits)
  | .trap w => some (laneWord 0x389 w.toBits)
  | .brk w => some (laneWord 0x38a w.toBits)
  | .join w => some (laneWord 0x3a0 w.toBits)
  | .leave w => some (laneWord 0x3a1 w.toBits)
  | .bara w => some (laneWord 0x3a2 w.toBits)
  | .barw w => some (laneWord 0x3a3 w.toBits)
  | .bars w => some (laneWord 0x3a4 w.toBits)
  | .rkpush w => some (laneWord 0x3c0 w.toBits)
  | .acadd w => some (laneWord 0x3c1 w.toBits)
  | .rktest w => some (laneWord 0x3c2 w.toBits)
  | .bmrank w => some (laneWord 0x3d0 w.toBits)
  | .bmsel w => some (laneWord 0x3d1 w.toBits)
  | .uadd w => some (uniWord 0x0 w.toBits)
  | .usub w => some (uniWord 0x1 w.toBits)
  | .umul w => some (uniWord 0x2 w.toBits)
  | .uand w => some (uniWord 0x3 w.toBits)
  | .uor w => some (uniWord 0x4 w.toBits)
  | .uxor w => some (uniWord 0x5 w.toBits)
  | .ushl w => some (uniWord 0x6 w.toBits)
  | .ushr w => some (uniWord 0x7 w.toBits)
  | .umin w => some (uniWord 0x8 w.toBits)
  | .umax w => some (uniWord 0x9 w.toBits)
  | .usel w => some (uniWord 0xa w.toBits)
  | .uaddi w => some (uniWord 0x10 w.toBits)
  | .ushli w => some (uniWord 0x11 w.toBits)
  | .uandi w => some (uniWord 0x12 w.toBits)
  | .umovi w => some (uniWord 0x18 w.toBits)
  | .umovhi w => some (uniWord 0x19 w.toBits)
  | .ucmpEq w => some (uniWord 0x20 w.toBits)
  | .ucmpNe w => some (uniWord 0x21 w.toBits)
  | .ucmpLt w => some (uniWord 0x22 w.toBits)
  | .ucmpLe w => some (uniWord 0x23 w.toBits)
  | .ucmpGt w => some (uniWord 0x24 w.toBits)
  | .ucmpGe w => some (uniWord 0x25 w.toBits)
  | .ucmpLtu w => some (uniWord 0x26 w.toBits)
  | .ucmpLeu w => some (uniWord 0x27 w.toBits)
  | .ucmpGtu w => some (uniWord 0x28 w.toBits)
  | .ucmpGeu w => some (uniWord 0x29 w.toBits)
  | .umovsr w => some (uniWord 0x30 w.toBits)
  | .umov w => some (uniWord 0x31 w.toBits)
  | .uld32 w => some (uniWord 0x40 w.toBits)
  | .uld64 w => some (uniWord 0x41 w.toBits)
  | .ust32 w => some (uniWord 0x42 w.toBits)
  | .ust64 w => some (uniWord 0x43 w.toBits)
  | .ubra w => some (uniWord 0x80 w.toBits)
  | .jmpf w => some (uniWord 0x82 w.toBits)
  | .cfetch w => some (uniWord 0x83 w.toBits)
  | .csegq w => some (uniWord 0x84 w.toBits)
  | .launch w => some (uniWord 0x100 w.toBits)
  | .joinl w => some (uniWord 0x101 w.toBits)
  | .mstart w => some (uniWord 0x102 w.toBits)
  | .btcopy w => some (uniWord 0x110 w.toBits)
  | .bttest w => some (uniWord 0x111 w.toBits)
  | .waitc w => some (uniWord 0x120 w.toBits)
  | .qbind w => some (uniWord 0x130 w.toBits)
  | .qstat w => some (uniWord 0x131 w.toBits)
  | .rclaim w => some (uniWord 0x138 w.toBits)
  | .rpub w => some (uniWord 0x139 w.toBits)
  | .rtake w => some (uniWord 0x13a w.toBits)
  | .rfree w => some (uniWord 0x13b w.toBits)
  | .barrem w => some (uniWord 0x140 w.toBits)
  | .bkopAdd w => some (uniWord 0x150 w.toBits)
  | .bkopMul w => some (uniWord 0x150 (w.toBits ||| 1))
  | .bkopMax w => some (uniWord 0x150 (w.toBits ||| 2))
  | .bkopMin w => some (uniWord 0x150 (w.toBits ||| 3))
  | .bkopAxpy w => some (uniWord 0x150 (w.toBits ||| 4))
  | .bkopCvt w => some (uniWord 0x150 (w.toBits ||| 5))
  | .bkred w => some (uniWord 0x151 w.toBits)
  | .bkrank w => some (uniWord 0x152 w.toBits)
  | .bkrankCommit w => some (uniWord 0x152 (w.toBits ||| 1))
  | .bkread w => some (uniWord 0x153 w.toBits)
  | .acdeclSum w => some (uniWord 0x160 w.toBits)
  | .acdeclRank w => some (uniWord 0x160 (w.toBits ||| 0x800))
  | .acclr w => some (uniWord 0x161 w.toBits)
  | .acst w => some (uniWord 0x162 w.toBits)
  | .acmrg w => some (uniWord 0x163 w.toBits)
  | .acraise w => some (uniWord 0x164 w.toBits)
  | .accmp w => some (uniWord 0x165 w.toBits)
  | .acrd w => some (uniWord 0x166 w.toBits)
  | .mma w => some (uniWord 0x180 w.toBits)
  | .mzero w => some (uniWord 0x181 w.toBits)
  | .mpost w => some (uniWord 0x182 w.toBits)
  | .mact w => some (uniWord 0x183 w.toBits)
  | .mend w => some (uniWord 0x184 w.toBits)
  | .ecnt w => some (uniWord 0x1a0 w.toBits)
  | .rtlook w => some (uniWord 0x1a1 w.toBits)
  | .rtpin w => some (uniWord 0x1a2 w.toBits)
  | .rtunpin w => some (uniWord 0x1a3 w.toBits)
  | .rtmerge w => some (uniWord 0x1a4 w.toBits)
  | .syscall w => some (uniWord 0x1c0 w.toBits)
  | .utrap w => some (uniWord 0x1c1 w.toBits)
  | .loadDataLands _ _ => none
  | .storeAtHome _ _ => none
  | .storeAckReturns _ => none
  | .atomicExecutes _ _ => none
  | .atomicReply _ _ => none
  | .remoteScratchpadAccess _ _ => none
  | .monitorWake _ _ _ => none
  | .monitorRetryTimer _ _ _ => none
  | .pageFaultResolved _ => none
  | .pageFaultRefused _ => none
  | .pageMoveRequest _ _ _ _ => none
  | .moveProtectDone _ _ => none
  | .moveCopyDone _ _ => none
  | .moveCopyAbort _ _ => none
  | .moveCommitDone _ _ => none
  | .moveIdle _ _ => none
  | .shootdownComplete _ => none
  | .formatWindowEnable _ _ _ => none
  | .launchAcceptance _ => none
  | .walkerAcceptRecord _ => none
  | .walkerCommitTile _ => none
  | .walkerResume _ => none
  | .walkerRefused _ => none
  | .dispatchTask _ => none
  | .spanPlacement _ => none
  | .taskStart _ => none
  | .mergeWindowClose _ => none
  | .taskEnd _ => none
  | .launchComplete _ => none
  | .segmentFetchLands _ => none
  | .transferStart _ => none
  | .chunkComplete _ _ => none
  | .transferComplete _ => none
  | .transferPageFault _ => none
  | .transferRestart _ => none
  | .transferFailed _ => none
  | .transferDrainTimeout _ => none
  | .bankCommandComplete _ => none
  | .streamStart _ _ => none
  | .matrixWordComplete _ _ => none
  | .streamStop _ => none
  | .routedOffer _ => none
  | .inserterInsertion _ _ => none
  | .windowClose => none
  | .windowCloseReceived _ => none
  | .placementEvaluation => none
  | .generationPublish _ => none
  | .generationCopyFail _ => none
  | .replicaWithdraw _ _ _ => none
  | .rtmergeComplete _ => none
  | .cpyfailRead => none
  | .wdrawRead => none
  | .ringEnable _ _ _ => none
  | .ringDisable _ _ => none
  | .ringCommandArrival _ => none
  | .ringReply _ => none
  | .ringDead _ _ => none
  | .barremNoticeArrival _ => none
  | .noticeAcknowledged _ => none
  | .faultDisposal _ => none
  | .handlerContinue _ _ => none
  | .handlerEnd _ _ => none
  | .watchdog _ => none
  | .endTask _ => none
  | .syscallReply _ _ _ _ => none
  | .preemptRequest _ => none
  | .preemptSave _ => none
  | .taskRestore _ _ => none
  | .correctedError _ => none
  | .uncorrectableError _ => none
  | .queueEnable _ _ _ => none
  | .queueDisable _ _ => none
  | .doorbell _ _ _ => none
  | .queueEntryTake _ _ => none
  | .shootdown _ => none
  | .takeDieOffline _ => none
  | .tearDownContext _ => none
  | .quote _ => none
  | .stageSuccessorKernel _ => none
  | .latencyTolerance _ => none
  | .registerWrite _ _ _ _ => none
  | .powerOn _ => none
  | .bootReadyTimeout => none
  | .firstStageImage _ => none
  | .versionNegotiation _ _ _ _ _ => none
  | .edgeDown _ => none
  | .linkCrcFailure _ => none
  | .oldKernelReady => none
  | .oldKernelJump => none
  | .successorAdopt _ => none
  | .successorCheckIn => none
  | .handoverTimeout => none
  | .reductionPayload _ _ _ => none
  | .lehrEntry => none
  | .lehrExit _ => none
  | .lehrExitComplete => none
  | .contextInstall _ _ => none
  | .contextMapChange _ _ => none
  | .expertCommandArrival _ => none
  | .expertCommandReply _ => none
  | .writeAtDiePoint _ _ => none
  | .remoteScratchpadReply _ _ => none
  | .systemSoftwareMemoryWrite _ _ => none

/-- The decode table in which the word of `encode` stands. -/
def encodeMap (i : Instr) : Nat :=
  match encode i with
  | some w => tableMap w
  | none => 3

end Sys2Proof
end

