-- ==== Sys2Proof/Machine/Float.lean ====
section
/-!
DEFINITION. Floating-point numbers and rounding (04 R62-R64, R78; 06 R120-R122): values are exact (a sign, a
magnitude m times 2^e); each operation computes exactly and rounds once.
-/
namespace Sys2Proof.Machine

/-- Rounding modes of 04 R76. -/
inductive Rnd
  | rne
  | rtz
  | rdn
  | rup
  deriving DecidableEq, Repr

/-- The mode of a 2-bit field (04 R76). -/
def Rnd.ofField (n : Nat) : Rnd :=
  match n with
  | 0 => .rne
  | 1 => .rtz
  | 2 => .rdn
  | _ => .rup

/-- A floating-point layout of 04 Table 4-2: exponent and fraction widths, bias, pattern of the largest finite
magnitude, infinity if the format has one, default NaN. -/
structure FFmt where
  ebits : Nat
  mbits : Nat
  bias : Nat
  maxFin : Nat
  inf : Option Nat
  nan : Nat
  deriving DecidableEq, Repr

def fmtF32 : FFmt := { ebits := 8, mbits := 23, bias := 127, maxFin := 0x7F7FFFFF, inf := some 0x7F800000, nan := 0x7FC00000 }
def fmtF16 : FFmt := { ebits := 5, mbits := 10, bias := 15, maxFin := 0x7BFF, inf := some 0x7C00, nan := 0x7E00 }
def fmtBf16 : FFmt := { ebits := 8, mbits := 7, bias := 127, maxFin := 0x7F7F, inf := some 0x7F80, nan := 0x7FC0 }
def fmtE4m3 : FFmt := { ebits := 4, mbits := 3, bias := 7, maxFin := 0x7E, inf := none, nan := 0x7F }
def fmtE5m2 : FFmt := { ebits := 5, mbits := 2, bias := 15, maxFin := 0x7B, inf := some 0x7C, nan := 0x7E }
/-- E2M1 has no NaN; its entry here is never used. -/
def fmtE2m1 : FFmt := { ebits := 2, mbits := 1, bias := 1, maxFin := 0x7, inf := none, nan := 0 }

/-- The bit that holds the sign. -/
def FFmt.signBit (f : FFmt) : Nat := f.ebits + f.mbits

/-- An exact value: NaN (signalling or not), infinity, or (-1)^neg * m * 2^e. -/
inductive FVal
  | nan (signalling : Bool)
  | inf (neg : Bool)
  | fin (neg : Bool) (m : Nat) (e : Int)
  deriving DecidableEq, Repr

/-- The value of a pattern (04 R63). -/
def FFmt.value (f : FFmt) (x : Nat) : FVal :=
  let neg := x.testBit f.signBit
  let mag := x % 2 ^ f.signBit
  let ex := mag / 2 ^ f.mbits
  let fr := mag % 2 ^ f.mbits
  if f.inf = some mag then .inf neg
  else if f.maxFin < mag then .nan (!fr.testBit (f.mbits - 1) && f.inf.isSome)
  else if ex = 0 then .fin neg fr (1 - f.bias - f.mbits)
  else .fin neg (2 ^ f.mbits + fr) ((ex : Int) - f.bias - f.mbits)

/-- The sticky flags (04 R78): bit 0 invalid, 1 divide-by-zero, 2 overflow, 3 underflow, 4 inexact. -/
abbrev FFlags := BitVec 5

def flInvalid : FFlags := 1
def flDivZero : FFlags := 2
def flOverflow : FFlags := 4
def flUnderflow : FFlags := 8
def flInexact : FFlags := 16

/-- Sets a flag when a condition holds. -/
def flagIf (b : Bool) (f : FFlags) : FFlags := if b then f else 0

/-- Puts the sign onto a magnitude pattern. -/
def FFmt.withSign (f : FFmt) (neg : Bool) (mag : Nat) : Nat := if neg then 2 ^ f.signBit + mag else mag

/-- Whether a discarded remainder `r` below `2^k` rounds the magnitude up; `odd` is the kept low bit. -/
def roundsUp (rnd : Rnd) (neg odd : Bool) (r k : Nat) : Bool :=
  match rnd with
  | .rne => decide (2 ^ k < 2 * r) || (decide (2 * r = 2 ^ k) && odd)
  | .rtz => false
  | .rdn => neg && decide (r ≠ 0)
  | .rup => !neg && decide (r ≠ 0)

/-- Rounds `m * 2^e` to a multiple of `2^q`: the multiple, and whether it differs. -/
def roundAt (rnd : Rnd) (neg : Bool) (m : Nat) (e q : Int) : Nat × Bool :=
  if q ≤ e then (m * 2 ^ (e - q).toNat, false)
  else
    let k := (q - e).toNat
    let t := m / 2 ^ k
    let r := m % 2 ^ k
    (if roundsUp rnd neg (t % 2 = 1) r k then t + 1 else t, decide (r ≠ 0))

/-- The result of an overflow (04 Table 4-5); a format without infinities gives its NaN. -/
def FFmt.overflowTo (f : FFmt) (rnd : Rnd) (neg : Bool) : Nat :=
  let toInf := match f.inf with
    | some i => f.withSign neg i
    | none => f.nan
  match rnd with
  | .rne => toInf
  | .rtz => f.withSign neg f.maxFin
  | .rdn => if neg then toInf else f.withSign neg f.maxFin
  | .rup => if neg then f.withSign neg f.maxFin else toInf

/-- A rounded result: its pattern and whether it overflowed, is inexact, is tiny after rounding. -/
structure Rounded where
  bits : Nat
  beyond : Bool
  inexact : Bool
  tiny : Bool
  deriving DecidableEq, Repr

/-- Rounds the exact value (-1)^neg * m * 2^e (04 R64, R77; 06 R121: underflow detected after rounding). -/
def FFmt.round (f : FFmt) (rnd : Rnd) (neg : Bool) (m : Nat) (e : Int) : Rounded :=
  if m = 0 then { bits := f.withSign neg 0, beyond := false, inexact := false, tiny := false }
  else
    let top : Int := e + Nat.log2 m
    let emin : Int := 1 - f.bias
    let qf := top - f.mbits
    let q := if qf < emin - f.mbits then emin - f.mbits else qf
    let r := roundAt rnd neg m e q
    let mag := if r.1 < 2 ^ f.mbits then r.1 else (q + f.mbits + f.bias).toNat * 2 ^ f.mbits + (r.1 - 2 ^ f.mbits)
    if f.maxFin < mag then { bits := f.overflowTo rnd neg, beyond := true, inexact := true, tiny := false }
    else
      let u := roundAt rnd neg m e qf
      { bits := f.withSign neg mag, beyond := false, inexact := r.2,
        tiny := decide (qf < emin - f.mbits) && decide ((u.1 : Int) < 2 ^ ((emin - qf).toNat)) }

/-- The flags of a rounded result (06 R121). -/
def Rounded.flags (r : Rounded) : FFlags :=
  flagIf r.beyond flOverflow ||| flagIf (r.beyond || r.inexact) flInexact ||| flagIf (r.tiny && r.inexact) flUnderflow

/-- A pattern and the flags it sets. -/
abbrev FRes := Nat × FFlags

/-- Rounds a signed exact value by RNE; an exact zero takes the sign given. -/
def FFmt.rne (f : FFmt) (v : Int) (e : Int) (zeroNeg : Bool) : FRes :=
  if v = 0 then (f.withSign zeroNeg 0, 0)
  else
    let r := f.round .rne (decide (v < 0)) v.natAbs e
    (r.bits, r.flags)

/-- Signed integer of a sign and magnitude. -/
def signed (neg : Bool) (m : Nat) : Int := if neg then -(m : Int) else m

/-- The exact sum of two dyadic numbers, over the smaller exponent. -/
def dyAdd (x : Int) (ex : Int) (y : Int) (ey : Int) : Int × Int :=
  if ex ≤ ey then (x + y * 2 ^ (ey - ex).toNat, ex) else (x * 2 ^ (ex - ey).toNat + y, ey)

/-- A signalling NaN operand sets invalid (04 R64). -/
def FVal.sig (v : FVal) : Bool :=
  match v with
  | .nan b => b
  | _ => false

/-- Whether a value is NaN. -/
def FVal.isNan (v : FVal) : Bool :=
  match v with
  | .nan _ => true
  | _ => false

/-- Default NaN with the invalid flag when asked. -/
def FFmt.mkNan (f : FFmt) (invalid : Bool) : FRes := (f.nan, flagIf invalid flInvalid)

/-- Infinity of a sign. -/
def FFmt.mkInf (f : FFmt) (neg : Bool) : FRes := (f.withSign neg (f.inf.getD f.nan), 0)

/-- rne(x + y) on exact values (04 R64). -/
def FFmt.addV (f : FFmt) (x y : FVal) : FRes :=
  match x, y with
  | .nan a, y => f.mkNan (a || y.sig)
  | .inf _, .nan b => f.mkNan b
  | .fin _ _ _, .nan b => f.mkNan b
  | .inf a, .inf b => if a = b then f.mkInf a else f.mkNan true
  | .inf a, .fin _ _ _ => f.mkInf a
  | .fin _ _ _, .inf b => f.mkInf b
  | .fin n1 m1 e1, .fin n2 m2 e2 =>
    let r := dyAdd (signed n1 m1) e1 (signed n2 m2) e2
    f.rne r.1 r.2 (n1 && n2 && m1 = 0 && m2 = 0)

/-- The exact product: `none` for 0 times infinity or a NaN operand. -/
def mulV (x y : FVal) : Option FVal :=
  match x, y with
  | .nan _, _ => none
  | .inf _, .nan _ => none
  | .fin _ _ _, .nan _ => none
  | .inf a, .inf b => some (.inf (a != b))
  | .inf a, .fin b m _ => if m = 0 then none else some (.inf (a != b))
  | .fin a m _, .inf b => if m = 0 then none else some (.inf (a != b))
  | .fin a m1 e1, .fin b m2 e2 => some (.fin (a != b) (m1 * m2) (e1 + e2))

/-- rne(x * y). -/
def FFmt.mul (f : FFmt) (x y : Nat) : FRes :=
  match mulV (f.value x) (f.value y) with
  | none => f.mkNan ((f.value x).sig || (f.value y).sig || (!(f.value x).isNan && !(f.value y).isNan))
  | some (.fin n m e) => f.rne (signed n m) e n
  | some (.inf n) => f.mkInf n
  | some (.nan b) => f.mkNan b

/-- rne(x + y). -/
def FFmt.add (f : FFmt) (x y : Nat) : FRes := f.addV (f.value x) (f.value y)

/-- The value with its sign inverted. -/
def FVal.negate (v : FVal) : FVal :=
  match v with
  | .nan b => .nan b
  | .inf n => .inf (!n)
  | .fin n m e => .fin (!n) m e

/-- rne(x - y). -/
def FFmt.sub (f : FFmt) (x y : Nat) : FRes := f.addV (f.value x) (f.value y).negate

/-- rne(x * y + z), rounded once; 0 times infinity is invalid even when z is a quiet NaN (06 R121). -/
def FFmt.fma (f : FFmt) (x y z : Nat) : FRes :=
  match mulV (f.value x) (f.value y) with
  | none =>
    f.mkNan ((f.value x).sig || (f.value y).sig || (f.value z).sig || (!(f.value x).isNan && !(f.value y).isNan))
  | some p => f.addV p (f.value z)

/-- Order of two exact values, -0 equal to +0: the sign of x - y; NaN not considered. -/
def FVal.cmp (x y : FVal) : Ordering :=
  match x, y with
  | .inf a, .inf b => if a = b then .eq else if a then .lt else .gt
  | .inf a, _ => if a then .lt else .gt
  | _, .inf b => if b then .gt else .lt
  | .fin n1 m1 e1, .fin n2 m2 e2 =>
    let r := dyAdd (signed n1 m1) e1 (-(signed n2 m2)) e2
    if r.1 < 0 then .lt else if r.1 = 0 then .eq else .gt
  | _, _ => .eq

/-- minimumNumber and maximumNumber (06 R121): -0 below +0; a lone NaN yields the other operand. -/
def FFmt.minMax (f : FFmt) (max : Bool) (x y : Nat) : FRes :=
  let vx := f.value x
  let vy := f.value y
  let inv := flagIf (vx.sig || vy.sig) flInvalid
  if vx.isNan && vy.isNan then (f.nan, inv)
  else if vx.isNan then (y, inv)
  else if vy.isNan then (x, inv)
  else
    let xLess := match FVal.cmp vx vy with
      | .lt => true
      | .gt => false
      | .eq => x.testBit f.signBit
    (if xLess != max then x else y, inv)

/-- Conditions of FCMP (06 Table 6-4). -/
inductive FCond
  | eq
  | ne
  | lt
  | le
  | gt
  | ge
  | ord
  | uno
  deriving DecidableEq, Repr

/-- A quiet compare of binary32 values (06 R115). -/
def fcmp (c : FCond) (x y : Word) : Bool × FFlags :=
  let vx := fmtF32.value x.toNat
  let vy := fmtF32.value y.toNat
  let un := vx.isNan || vy.isNan
  let o := FVal.cmp vx vy
  (match c with
    | .eq => !un && o == .eq
    | .ne => un || o != .eq
    | .lt => !un && o == .lt
    | .le => !un && o != .gt
    | .gt => !un && o == .gt
    | .ge => !un && o != .lt
    | .ord => !un
    | .uno => un,
   flagIf (vx.sig || vy.sig) flInvalid)

/-- A word result. -/
def FRes.word (r : FRes) : Word × FFlags := (BitVec.ofNat 32 r.1, r.2)

/-- The binary32 operations. -/
def f32Add (x y : Word) : Word × FFlags := FRes.word (fmtF32.add x.toNat y.toNat)
def f32Sub (x y : Word) : Word × FFlags := FRes.word (fmtF32.sub x.toNat y.toNat)
def f32Mul (x y : Word) : Word × FFlags := FRes.word (fmtF32.mul x.toNat y.toNat)
def f32Fma (x y z : Word) : Word × FFlags := FRes.word (fmtF32.fma x.toNat y.toNat z.toNat)
def f32Min (x y : Word) : Word × FFlags := FRes.word (fmtF32.minMax false x.toNat y.toNat)
def f32Max (x y : Word) : Word × FFlags := FRes.word (fmtF32.minMax true x.toNat y.toNat)

/-- A packed operation on two 16-bit elements (06 R122): flags of both elements. -/
def packed2 (op : Nat → Nat → Nat → FRes) (x y z : Word) : Word × FFlags :=
  let lo := op (x.toNat % 65536) (y.toNat % 65536) (z.toNat % 65536)
  let hi := op (x.toNat / 65536) (y.toNat / 65536) (z.toNat / 65536)
  (BitVec.ofNat 32 (hi.1 * 65536 + lo.1), lo.2 ||| hi.2)

/-- Whether a pattern is subnormal. -/
def FFmt.subnormal (f : FFmt) (x : Nat) : Bool :=
  let mag := x % 2 ^ f.signBit
  decide (mag ≠ 0) && decide (mag < 2 ^ f.mbits)

/-- Is the word a binary32 NaN? -/
def isNan32 (x : Word) : Bool := (fmtF32.value x.toNat).isNan

/-- floor(log2 |x|) of a finite nonzero value. -/
def FVal.exponent (v : FVal) : Int :=
  match v with
  | .fin _ m e => e + Nat.log2 m
  | _ => 0

end Sys2Proof.Machine
end

