-- ==== Sys2Proof/Machine/Formats.lean ====
section
/-!
DEFINITION. Conversions and block formats: CVT (04 R76, R77), TEB (R71-R74), OCP MX (R65-R67), FX64 entry and
read-out (R69, R70), the MMA sum (R75).
-/
namespace Sys2Proof.Machine

/-- Clamps an integer (00 notation: sat). -/
def satInt (v lo hi : Int) : Int := if v < lo then lo else if hi < v then hi else v

/-! ## CVT -/

/-- Rounds to a float format (04 R77, float destination). -/
def cvtToFloat (dst : FFmt) (rnd : Rnd) (sat ftz : Bool) (v : FVal) : FRes :=
  match v with
  | .nan s => dst.mkNan s
  | .inf n =>
    if dst.inf.isSome then dst.mkInf n
    else if sat then (dst.withSign n dst.maxFin, flOverflow ||| flInexact)
    else dst.mkNan true
  | .fin n m e =>
    let r := dst.round rnd n m e
    let y := if r.beyond && sat then dst.withSign n dst.maxFin else r.bits
    if ftz && !r.beyond && dst.subnormal y then (dst.withSign n 0, r.flags ||| flUnderflow) else (y, r.flags)

/-- Rounds an exact value to an integer: the integer and whether it differs. -/
def roundInt (rnd : Rnd) (neg : Bool) (m : Nat) (e : Int) : Int × Bool :=
  let r := roundAt rnd neg m e 0
  (signed neg r.1, r.2)

/-- Rounds to an integer in a range; `indef` is the result of an invalid conversion without sat (04 R77). -/
def cvtToInt (lo hi : Int) (indef width : Nat) (rnd : Rnd) (sat : Bool) (v : FVal) : FRes :=
  let wrap (y : Int) : Nat := (y % 2 ^ width).toNat
  match v with
  | .nan _ => (if sat then 0 else indef, flInvalid)
  | .inf n => (if sat then wrap (if n then lo else hi) else indef, flInvalid)
  | .fin n m e =>
    let r := roundInt rnd n m e
    if r.1 < lo ∨ hi < r.1 then (if sat then wrap (satInt r.1 lo hi) else indef, flInvalid)
    else (wrap r.1, flagIf r.2 flInexact)

/-- Flushes a subnormal source to zero (04 R77). -/
def flushIn (src : FFmt) (ftz : Bool) (x : Nat) : FVal :=
  if ftz && src.subnormal x then .fin (x.testBit src.signBit) 0 0 else src.value x

/-- An integer as an exact value. -/
def intVal (v : Int) : FVal := .fin (decide (v < 0)) v.natAbs 0

/-- Round to integral, in binary32 (04 pair 15). -/
def cvtIntegral (rnd : Rnd) (v : FVal) : FRes :=
  match v with
  | .nan s => fmtF32.mkNan s
  | .inf n => fmtF32.mkInf n
  | .fin n m e =>
    let r := roundAt rnd n m e 0
    ((fmtF32.round .rne n r.1 0).bits, flagIf r.2 flInexact)

/-- CVT of one lane (04 R76, R77). -/
def cvt (code : BitVec 8) (x : Word) : Word × FFlags :=
  let rnd := Rnd.ofField (code.extractLsb' 2 2).toNat
  let sat := code.getLsbD 1
  let ftz := code.getLsbD 0
  let f (src : FFmt) (bits : Nat) : FVal := flushIn src ftz (x.toNat % 2 ^ bits)
  FRes.word <|
    match (code.extractLsb' 4 4).toNat with
    | 0 => cvtToInt (-2147483648) 2147483647 0x80000000 32 rnd sat (f fmtF32 32)
    | 1 => cvtToInt 0 4294967295 0xFFFFFFFF 32 rnd sat (f fmtF32 32)
    | 2 => cvtToFloat fmtF32 rnd sat ftz (intVal x.toInt)
    | 3 => cvtToFloat fmtF32 rnd sat ftz (intVal x.toNat)
    | 4 => cvtToFloat fmtF16 rnd sat ftz (f fmtF32 32)
    | 5 => cvtToFloat fmtF32 rnd sat ftz (f fmtF16 16)
    | 6 => cvtToFloat fmtBf16 rnd sat ftz (f fmtF32 32)
    | 7 => cvtToFloat fmtF32 rnd sat ftz (f fmtBf16 16)
    | 8 => cvtToFloat fmtE4m3 rnd sat ftz (f fmtF32 32)
    | 9 => cvtToFloat fmtF32 rnd sat ftz (f fmtE4m3 8)
    | 10 => cvtToFloat fmtE5m2 rnd sat ftz (f fmtF32 32)
    | 11 => cvtToFloat fmtF32 rnd sat ftz (f fmtE5m2 8)
    | 12 => cvtToInt (-128) 127 0x80 8 rnd sat (f fmtF32 32)
    | 13 => cvtToInt 0 255 0xFF 8 rnd sat (f fmtF32 32)
    | 14 => cvtToFloat fmtF32 rnd sat ftz (intVal (x.truncate 8).toInt)
    | _ => cvtIntegral rnd (f fmtF32 32)

/-! ## TEB (04 R71-R74) -/

/-- Mantissa bits of a TEB variant: 0 TEB4, 1 TEB6, 2 TEB8, 3 TEB12. -/
def tebN (variant : Nat) : Nat :=
  match variant with
  | 0 => 2
  | 1 => 4
  | 2 => 6
  | _ => 10

/-- Bytes of a block. -/
def tebBytes (n : Nat) : Nat := 4 * (3 + n)

/-- A block: the two exponents, and sign, selector and magnitude of each element. -/
structure TebBlock where
  e0 : Nat
  e1 : Nat
  elems : List (Bool × Bool × Nat)
  deriving DecidableEq, Repr

/-- Bit i of a list of words' j-th word. -/
def wordAt (ws : List Nat) (j : Nat) : Nat := ws.getD j 0

/-- Reads a block from its words (04 Table 4-3). -/
def TebBlock.ofWords (n : Nat) (ws : List Nat) : TebBlock :=
  { e0 := wordAt ws 0 % 256, e1 := wordAt ws 0 / 256 % 256,
    elems := (List.range 32).map fun i =>
      ((wordAt ws 1).testBit i, (wordAt ws 2).testBit i,
        (List.range n).foldl (fun m j => 2 * m + (if (wordAt ws (3 + j)).testBit i then 1 else 0)) 0) }

/-- The word whose bit i is `f i`. -/
def planeOf (f : Nat → Bool) : Nat := (List.range 32).foldl (fun w i => if f i then w + 2 ^ i else w) 0

/-- The words of a block. -/
def TebBlock.words (n : Nat) (b : TebBlock) : List Nat :=
  let el (i : Nat) := b.elems.getD i (false, false, 0)
  [b.e0 + 256 * b.e1, planeOf fun i => (el i).1, planeOf fun i => (el i).2.1] ++
    (List.range n).map fun j => planeOf fun i => (el i).2.2.testBit (n - 1 - j)

/-- The exponent an element selects. -/
def TebBlock.exponentOf (b : TebBlock) (sel : Bool) : Nat := if sel then b.e1 else b.e0

/-- The exact value of element i, reading `p` of `n` planes (04 R72, R74). -/
def TebBlock.value (n p : Nat) (b : TebBlock) (i : Nat) : FVal :=
  let el := b.elems.getD i (false, false, 0)
  let ex := b.exponentOf el.2.1
  if ex = 255 then .nan false
  else if ex = 0 then .fin el.1 0 0
  else .fin el.1 (el.2.2 / 2 ^ (n - p) * 2 ^ (n - p)) ((ex : Int) - 127 - n)

/-- The larger of two integers. -/
def maxI (a b : Int) : Int := if a < b then b else a

/-- Maximum over a list; `none` for an empty one. -/
def listMax (l : List Int) : Option Int :=
  l.foldl (fun o x => match o with
    | none => some x
    | some m => some (maxI m x)) none

/-- Whether a value is finite and nonzero. -/
def FVal.finiteNonzero (v : FVal) : Bool :=
  match v with
  | .fin _ m _ => m ≠ 0
  | _ => false

/-- Whether a value is infinite. -/
def FVal.isInf (v : FVal) : Bool :=
  match v with
  | .inf _ => true
  | _ => false

/-- The sign of a value; NaN counts as positive. -/
def FVal.neg (v : FVal) : Bool :=
  match v with
  | .nan _ => false
  | .inf n => n
  | .fin n _ _ => n

/-- One element of TEBQ: the magnitude and the flags (04 R73). -/
def tebElement (n : Nat) (ex : Nat) (v : FVal) : Nat × FFlags :=
  match v with
  | .nan _ => (0, 0)
  | .inf _ => (2 ^ n - 1, flOverflow ||| flInexact)
  | .fin _ m e =>
    if m = 0 then (0, 0)
    else if ex = 0 then (0, flUnderflow ||| flInexact)
    else
      let r := roundAt .rne false m (e + n + 127 - ex) 0
      if 2 ^ n - 1 < r.1 then (2 ^ n - 1, flOverflow ||| flInexact)
      else (r.1, flagIf r.2 flInexact ||| flagIf (r.2 && r.1 = 0) flUnderflow)

/-- TEBQ: quantises 32 exact values into a block; the flags of each element (04 R73). -/
def tebQuantise (n : Nat) (xs : List FVal) : TebBlock × List FFlags :=
  if xs.any FVal.isNan then
    ({ e0 := 255, e1 := 255, elems := (List.range 32).map fun _ => (false, false, 0) },
      xs.map fun v => flagIf v.isNan flInvalid)
  else
    let fs := xs.filter FVal.finiteNonzero
    let sel (emax : Int) (v : FVal) : Bool := v.isInf || (v.finiteNonzero && decide (emax - (n - 1) ≤ v.exponent))
    match listMax (fs.map FVal.exponent) with
    | none =>
      let e : Nat := if xs.any FVal.isInf then 254 else 0
      ({ e0 := e, e1 := e, elems := xs.map fun v => (v.neg, v.isInf, (tebElement n e v).1) },
        xs.map fun v => (tebElement n e v).2)
    | some emax =>
      let clamp (e : Int) : Nat := (if e < 1 then 0 else if 254 < e then 254 else e).toNat
      let e1 := emax + 128
      let e0 := match listMax ((fs.filter fun v => !sel emax v).map FVal.exponent) with
        | some g => g + 128
        | none => e1
      let ex (v : FVal) : Nat := if sel emax v then clamp e1 else clamp e0
      ({ e0 := clamp e0, e1 := clamp e1, elems := xs.map fun v => (v.neg, sel emax v, (tebElement n (ex v) v).1) },
        xs.map fun v => (tebElement n (ex v) v).2)

/-! ## OCP Microscaling (04 R65-R67) -/

/-- The bfloat16 pattern of an element under a scale (04 R66). -/
def mxDecode (el : FFmt) (scale x : Nat) : Nat :=
  if scale = 255 then fmtBf16.nan
  else
    match (if el = fmtE2m1 then
        (let mag := x % 8
         let ex := mag / 2
         if ex = 0 then .fin (x.testBit 3) (mag % 2) (-1) else .fin (x.testBit 3) (2 + mag % 2) ((ex : Int) - 2))
      else el.value x) with
    | .nan _ => fmtBf16.nan
    | .inf n => fmtBf16.withSign n 0x7F80
    | .fin n m e => (fmtBf16.round .rne n m (e + scale - 127)).bits

/-- The largest finite bfloat16 in place of an infinity (04 R67). -/
def bf16Finite (v : FVal) : FVal :=
  match v with
  | .inf n =>
    match fmtBf16.value 0x7F7F with
    | .fin _ m e => .fin n m e
    | w => w
  | w => w

/-- Rounds into an element format, saturated to its largest magnitude. -/
def mxElement (el : FFmt) (v : FVal) (scale : Nat) : Nat :=
  match v with
  | .fin n m e =>
    if m = 0 then el.withSign n 0
    else
      let r := el.round .rne n m (e + 127 - scale)
      if r.beyond then el.withSign n el.maxFin else r.bits
  | _ => 0

/-- Encodes 32 bfloat16 values: the scale and the elements (04 R67). -/
def mxEncode (el : FFmt) (emax : Int) (xs : List FVal) : Nat × List Nat :=
  if xs.any FVal.isNan then (255, xs.map fun _ => 0)
  else
    let ys := xs.map bf16Finite
    match listMax ((ys.filter FVal.finiteNonzero).map FVal.exponent) with
    | none => (0, ys.map fun v => el.withSign v.neg 0)
    | some m =>
      let scale := (satInt (m - emax + 127) 0 254).toNat
      (scale, ys.map fun v => mxElement el v scale)

/-! ## FX64 (04 R69, R70) -/

/-- The ends of the FX64 range. -/
def fxMin : Int := -(2 ^ 63)
def fxMax : Int := 2 ^ 63 - 1

/-- An operand entering an FX64 sum with `f` fraction bits: a multiple of 2^-f, RNE, saturated; `none` for NaN. -/
def fxEnter (f : Nat) (v : FVal) : Option Int :=
  match v with
  | .nan _ => none
  | .inf n => some (if n then fxMin else fxMax)
  | .fin n m e => some (satInt (roundInt .rne n m (e + f)).1 fxMin fxMax)

/-- Adds exactly and saturates: the result and whether it left the range (04 R70). -/
def fxAdd (x y : Int) : Int × Bool := (satInt (x + y) fxMin fxMax, decide (x + y < fxMin ∨ fxMax < x + y))

/-- The exact value of an FX64 cell. -/
def fxVal (f : Nat) (q : Int) : FVal := .fin (decide (q < 0)) q.natAbs (-(f : Int))

/-- A 64-bit pattern as two's complement. -/
def fxOf (n : Nat) : Int := (BitVec.ofNat 64 n).toInt

/-- The 64-bit pattern. -/
def fxBits (q : Int) : Nat := (q % 2 ^ 64).toNat

/-! ## The MMA sum (04 R75) -/

/-- The exact sum of one block: elements paired by position, truncated to pa and pb planes; `none` when an exponent
is 0xFF. The result is over 2^e with e the least exponent used. -/
def mmaBlock (na pa nb pb : Nat) (a b : TebBlock) : Option (Int × Int) :=
  let base : Int := -254 - na - nb
  (List.range 32).foldl (fun acc t =>
    match acc with
    | none => none
    | some s =>
      let ea := a.elems.getD t (false, false, 0)
      let eb := b.elems.getD t (false, false, 0)
      let xa := a.exponentOf ea.2.1
      let xb := b.exponentOf eb.2.1
      if xa = 255 ∨ xb = 255 then none
      else if xa = 0 ∨ xb = 0 then some s
      else
        let ma := ea.2.2 / 2 ^ (na - pa) * 2 ^ (na - pa)
        let mb := eb.2.2 / 2 ^ (nb - pb) * 2 ^ (nb - pb)
        some (dyAdd s.1 s.2 (signed (ea.1 != eb.1) (ma * mb)) (xa + xb + base)))
    (some (0, 0))

/-- One block's step of an accumulator: rne(c + T) (04 R75). -/
def mmaStep (na pa nb pb : Nat) (c : Word) (a b : TebBlock) : Word :=
  match mmaBlock na pa nb pb a b, fmtF32.value c.toNat with
  | none, _ => 0x7FC00000
  | some _, .nan _ => 0x7FC00000
  | some (t, e), v =>
    BitVec.ofNat 32 (fmtF32.addV v (.fin (decide (t < 0)) t.natAbs e)).1

end Sys2Proof.Machine
end

