-- ==== Sys2Proof/Config.lean ====
section
/-!
DEFINITION. What the spec leaves open: free values. None has a body, so no proof can see what it is; every statement
about the machine holds whatever they are.
-/
namespace Sys2Proof.Config

/-- Cycles of a core that one step of the model takes (05 R94: the counts are the core's own; log 4). -/
opaque pace (core tick : Nat) : Nat

/-- Cycles of a core from its reset to the model's `tick`. -/
def cycles (core tick : Nat) : Nat :=
  match tick with
  | 0 => 0
  | n + 1 => cycles core n + pace core n

/-- The 64-bit cycle count of a core at the model's `tick` (05 R94, R95). -/
def cycle (core tick : Nat) : DWord := BitVec.ofNat 64 (cycles core tick)

/-- The result a special-function instruction returns for an operand, before the bound of 06 R123 is applied (log 5);
`op` is the opcode. One Decty returns the same result for the same input every time (R123). -/
opaque special (op : Nat) (x : Word) : Word

/-- Which of the elements written to one byte of an overlapping transfer stays (15 R290; log 10). -/
opaque overlap (n : Nat) : Nat

/-- Which line an L1, an LLC or a TLB replaces (08 R163, 09 R188 state no policy; log 11). -/
opaque victim (n : Nat) : Nat

/-- The set of a TLB that holds a page (09 R188; log 11). -/
opaque tlbSet (ctx vbase : Nat) : Nat

/-- Which free join slot a LAUNCH takes, and where a context's sequence numbers begin (11 R262; log 17). -/
opaque joinSlot (n : Nat) : Nat
opaque joinBase (ctx : Nat) : Nat

/-- The source code in the record of a consumer of poisoned accumulator data: 21 R380 gives none (log 19). -/
opaque accSource (n : Nat) : Nat

/-- PC and MASK of a KILLED record: 21 R371 gives neither (log 20). -/
opaque killed (n : Nat) : Word

/-- Bytes attached to a second-tier port: 09 Table 9-1 gives only their bound (log 21). -/
opaque cxlBytes (home : Nat) : Nat

/-- Whether an image's interface ranges meet the running kernel's (23 R393, R401), and whether a successor supports a version of the
preserved-state table, of each TYPE of structure in it, and of the resident kernel's ABI (R394): the spec numbers none (log 13). -/
opaque imageInterfaces (image : List Byte) : Bool
opaque tableVersion (v : Nat) : Bool
opaque structVersion (type v : Nat) : Bool
opaque abiVersion (v : Nat) : Bool

/-- Which guard range a device register sets, and whether it is the range's end: 09 R199 says that register writes set the ranges, and
names no register (log 25). -/
opaque guardReg (off : Nat) : Option (Nat × Bool)

/-- Where the table that the old kernel prepared stands, by kernel generation, while no successor has looked at one (23 R393; log 86). -/
opaque tableAddress (gen : Nat) : Nat

/-- What a revert adds to the measurement log (23 R395; log 13). -/
opaque revertRecord (gen : Nat) : BitVec 256

/-- Whether a boot image passes the authentication of 23 R391 (log 13). -/
opaque imageValid (image : List Byte) : Bool

/-- The signature of a quote (23 R392; log 13). -/
opaque sign (data : List Byte) : List Byte

end Sys2Proof.Config
end

