-- ==== Sys2Proof/Machine/State.lean ====
section
/-!
DEFINITION. The state of the package: everything the spec gives the machine, as plain data; the reasons a step
can stop; and the state after reset.

Keys: die 0-3; core y * 16 + x (01 R9); cluster die * 8 + cluster in the die; a placed task is named by its
handle, core * 16 + task slot; a saved one by a handle of 3,072 or more, equal modulo 3,072 to the one it was saved from.
-/
namespace Sys2Proof.Machine

open Sys2Proof

/-! ## Threads and their registers (05) -/

/-- State of a register-stack entry: full or empty (05 R86), or awaiting the data of a remote local load, which
marks nothing empty but is interlocked (08 R166). -/
inductive RegState
  | full
  | empty
  | interlocked
  deriving DecidableEq, Repr

/-- One thread: window base and resident floor (05 R80), register-stack entries by physical entry with their
state and poison (05 R86, 21 R379), predicates (R90) and sticky flags (04 R78). -/
structure Thread where
  base : Nat
  floor : Nat
  stack : AList Word
  rstate : AList RegState
  poison : AList Bool
  preds : BitVec 8
  fpflags : BitVec 5
  deriving DecidableEq, Repr

/-- A thread at task start (05 R93). -/
def Thread.start : Thread :=
  { base := 0, floor := 0, stack := [], rstate := [], poison := [], preds := 1, fpflags := 0 }

/-! ## Queues (05 R101) -/

/-- One entry of a hardware queue: 32 words and the lanes whose word is poisoned. -/
structure QEntry where
  words : AList Word
  poison : LaneMask
  deriving DecidableEq, Repr

/-! ## What a stalled word keeps of what it read at issue (11 R260, R265) -/

/-- Launch packet (11 Table 11-1); `lost` names its 4-byte words that could not be read (R234, cause 10). -/
structure Packet where
  version : Nat
  kind : Nat
  steal : Nat
  spanbar : Nat
  lpri : Nat
  kobj : Nat
  work : Nat
  nitems : Nat
  args : Nat
  crec : Nat
  sh : List Nat
  follow : List Nat
  reserved : Bool
  lost : List Nat
  deriving DecidableEq, Repr

/-- A stream that an MSTART is to start: its segment with the code address and length of its SEGTAB entry, and s2:s3. -/
structure StreamStart where
  seg : Nat
  addr : Nat
  len : Nat
  lo : Word
  hi : Word
  deriving DecidableEq, Repr

/-! ## Frontier entries (07 R133, R134) -/

/-- Why an issued word has not completed (21 R370 lists such stalls), with the s registers that it read at issue and still needs (05
R91): `base` the address pair of a store or atomic that releases first, the ring and position of RPUB and RFREE, the argument and
the copy of s0-s31 of a SYSCALL; `asleep` waits for the home of an address to leave its self-refresh (23 R397). -/
inductive Stall
  | release (scope upto base : Nat)
  | publish (ring arg : Word) (scope upto : Nat)
  | free (ring arg : Word) (scope upto : Nat)
  | acquire (scope upto : Nat)
  | full (scope upto : Nat)
  | arrive (b scope upto : Nat)
  | notice (operand scope upto : Nat)
  | held
  | asleep (pa : Nat)
  | counter (cls : Nat)
  | waitc (cls n : Nat)
  | load (op : Nat)
  | interlock (need : List (Nat × Nat))
  | launch (p upto : Nat)
  | joinSlot (p : Packet)
  | joinl (token : Word)
  | joined (token status : Word) (upto : Nat)
  | mstart (m : StreamStart) (upto : Nat)
  | streamSlot (m : StreamStart)
  | call (arg : Word) (regs : AList Word) (upto : Nat)
  | syscall (d : Nat)
  | returned (upto : Nat)
  | reply (cmd : Nat)
  | inserter
  | matrixSlots
  | tile
  | streamDrain
  deriving DecidableEq, Repr

/-- Why lanes stand parked (07 R139, 21 R366, R367); `pastEnd` lanes have completed the last word of a full segment (03 R61) and
wait for the record; at `returned` a SYSCALL that has its reply waits for the record to deliver its DEFERRED fault (R372). -/
inductive Park
  | page
  | fault
  | noRecord
  | returned
  | pastEnd
  deriving DecidableEq, Repr

/-- State of a frontier entry (07 Table 7-1), with what it waits for. -/
inductive EState
  | ready
  | emptyReg (need : List (Nat × Nat))
  | barrier (b : Nat)
  | rcb
  | queue (pops pushes : List Nat)
  | monitor (armed : Bool)
  | migration
  | parked (why : Park)
  | exited
  | stall (k : Stall)
  deriving DecidableEq, Repr

/-- A frontier entry: PC, priority, thread mask and state (07 R133); the queue a blocked word keeps (05 R105);
the popped entry a waiting SHFL holds (05 R100). -/
structure Entry where
  pc : Word
  pri : BitVec 3
  mask : LaneMask
  st : EState
  qkeep : List (Nat × Nat)
  held : Option QEntry
  deriving DecidableEq, Repr

/-! ## Accumulators (17 R324) -/

/-- A RANK accumulator. -/
structure RankAcc where
  k : Nat
  int32 : Bool
  smallest : Bool
  fgate : Bool
  list : List (Word × Word)
  bound : Option Word
  nans : Nat
  deriving DecidableEq, Repr

/-- The three states of an accumulator. -/
inductive Acc
  | undeclared
  | sum (s : AList Word)
  | rank (r : RankAcc)
  deriving DecidableEq, Repr

/-- Candidates of one word that have reached the inserter (17 R330). -/
structure Insertion where
  acc : Nat
  cands : List (Word × Word)
  deriving DecidableEq, Repr

/-! ## Fault records (21 R364) -/

/-- A fault record; `flags` bit 0 says that it holds a fault not yet disposed of. -/
structure Record where
  kind : Nat
  flags : BitVec 8
  pc : Word
  mask : LaneMask
  detail : Word
  addr : DWord
  commit : Nat
  spec : Nat
  taskid : Word
  gang : Nat
  ctx : Nat
  crec : Nat
  cyc : DWord
  deriving DecidableEq, Repr

/-- A record that holds nothing. -/
def Record.empty : Record :=
  { kind := 0, flags := 0, pc := 0, mask := 0, detail := 0, addr := 0, commit := 0, spec := 0, taskid := 0, gang := 0,
    ctx := 0, crec := 0, cyc := 0 }

/-- One denied store word, not yet delivered (09 R200, Table 9-6). -/
structure Denial where
  pc : Word
  mask : LaneMask
  addr : Nat
  cause : Nat
  tagged : Bool
  deriving DecidableEq, Repr

/-! ## Gangs -/

/-- The five counters of 10 R226. -/
structure Counters where
  ld : Nat
  st : Nat
  bt : Nat
  bk : Nat
  rg : Nat
  deriving DecidableEq, Repr

/-- All counters zero. -/
def Counters.zero : Counters := { ld := 0, st := 0, bt := 0, bk := 0, rg := 0 }

/-- An entry of the operand latch (05 R85): a register, its lanes, and the instructions it still serves. -/
structure LatchEntry where
  reg : Nat
  lanes : LaneMask
  left : Nat
  deriving DecidableEq, Repr

/-- A gang (05, 07, 17, 21). `verdict` is what a handler decided of its fault while its task was saved, CONTINUE or not, to be carried out
when the task is restored (21 R367). -/
structure Gang where
  frontier : List Entry
  threads : AList Thread
  s : AList Word
  c : BitVec 8
  acc : AList Acc
  accPoison : AList Bool
  inserter : List Insertion
  ports : AList (Option Nat)
  counters : Counters
  tags : List (Nat × Word)
  denials : List Denial
  record : Record
  held : List Record
  verdict : Option Bool
  cyc : Option DWord
  latch : List LatchEntry
  lastIssue : Nat
  deriving DecidableEq, Repr

/-- A gang at task start (05 R93), before s2-s15 are filled; its frontier stands at code word `pc`. -/
def Gang.start (pc : Word) : Gang :=
  { frontier := [{ pc := pc, pri := 0, mask := allLanes, st := .ready, qkeep := [], held := none }],
    threads := [], s := [], c := 1, acc := [], accPoison := [], inserter := [], ports := [], counters := Counters.zero, tags := [],
    denials := [], record := Record.empty, held := [], verdict := none, cyc := none, latch := [], lastIssue := 0 }

/-- A gang slot that no task holds. -/
def Gang.absent : Gang := { Gang.start 0 with frontier := [] }

/-! ## Barriers (07 R150, 15 R302) -/

/-- A barrier: member and arrival sets by gang, expected credits X, credits Y in batches by arrival, each with the
stream notice it belongs to (16 R322). -/
structure Barrier where
  members : AList LaneMask
  arrived : AList LaneMask
  x : Nat
  y : Nat
  credits : List (Nat × Option Nat)
  deriving DecidableEq, Repr

/-- A barrier with no member. -/
def Barrier.fresh : Barrier := { members := [], arrived := [], x := 0, y := 0, credits := [] }

/-! ## Launches (11) -/

/-- Variant descriptor (11 Table 11-5). -/
structure Variant where
  bkt : List (Nat × Nat)
  threads : Nat
  depth : Nat
  gran : Nat
  spill : Nat
  nq : Nat
  nbar : Nat
  prod : Nat
  fmask : Nat
  entry : Nat
  fmap : Nat
  fstage : List Nat
  fbmap : List Nat
  deriving DecidableEq, Repr

/-- Tensor record (11 Table 11-6). -/
structure Tensor where
  ndim : Nat
  fmt : Nat
  order : Nat
  cover : Nat
  ext : List Nat
  tile : List Nat
  nplace : Nat
  place : Nat
  deriving DecidableEq, Repr

/-- Placement record (11 Table 11-7). -/
structure Placement where
  first : Nat
  count : Nat
  base : Nat
  stride : Nat
  home : Nat
  flags : Nat
  gen : Nat
  rmask : Nat
  bad : Bool
  deriving DecidableEq, Repr

/-- Identity of a task (05 R94, 11 R249, R252). -/
structure Ident where
  taskid : Word
  tile : List Word
  extx : Word
  exty : Word
  home : Nat
  spanidx : Option Nat
  args : Nat
  deriving DecidableEq, Repr

/-- Where a launch stands (11 R232, Table 11-8); `merging` waits in a merge window (R261). -/
inductive LPhase
  | accept
  | acceptSuspended
  | merging
  | walking
  | suspended
  | stopped
  | done
  | complete
  deriving DecidableEq, Repr

/-- A launch; `release` bounds the release of its completion (10 R230). -/
structure Launch where
  ctx : Nat
  die : Nat
  token : Option Word
  packet : Packet
  phase : LPhase
  map : Nat
  nseg : Nat
  segtab : Nat
  variant : Option Variant
  entryAddr : Nat
  entryLen : Nat
  tensor : Option Tensor
  followers : List (Option Tensor)
  recs : List Placement
  items : List Ident
  nread : Nat
  spec : Nat
  committed : Nat
  created : Nat
  ended : Nat
  run : Nat
  skip : Nat
  fault : Nat
  fidx : Option Word
  refusal : Nat
  wcause : Nat
  killed : Bool
  system : Bool
  crecWait : Bool
  release : Option Nat
  deriving DecidableEq, Repr

/-- A task in a home queue (11 R250). -/
structure QTask where
  launch : Nat
  lpri : Nat
  ident : Ident
  deriving DecidableEq, Repr

/-! ## Matrix units (16) -/

/-- Operand descriptor (16 Table 16-1). -/
structure OpDesc where
  laddr : Nat
  lstr : Nat
  lines : Nat
  kb : Nat
  var : Nat
  deriving DecidableEq, Repr

/-- Post descriptor (16 Table 16-6). -/
structure PostDesc where
  dst : Nat
  dstr : Nat
  row0 : Nat
  rows : Nat
  cols : Nat
  bias : Nat
  ridx : Nat
  racc : Nat
  rgang : Nat
  deriving DecidableEq, Repr

/-- Activation table (16 R318): LO, INVW and 256 slope, intercept pairs. -/
structure ActTable where
  lo : Word
  invw : Word
  segs : List (Word × Word)
  deriving DecidableEq, Repr

/-- A matrix word issued and not complete, with the copies it took at issue (16 R306). -/
inductive MatrixWord
  | mma (tile pa pb : Nat) (acc : Bool) (da db : OpDesc)
  | mzero (tile : Nat)
  | mpost (tile : Nat) (cmd : Word) (d : PostDesc)
  | mact (tbl : Nat) (t : ActTable)
  deriving DecidableEq, Repr

/-- A matrix word in a unit's queue; `offered` counts the routed offers already applied. -/
structure MatrixOp where
  id : Nat
  stream : Nat
  pc : Word
  word : MatrixWord
  offered : Nat
  deriving DecidableEq, Repr

/-- A matrix stream (11 R266, 16 R304-R307). -/
structure Stream where
  h : Nat
  g : Nat
  seg : Nat
  slot : Nat
  started : Bool
  stopping : Bool
  pc : Word
  s : AList Word
  c : BitVec 8
  counters : Counters
  tiles : AList (Option Nat)
  tables : AList (Option ActTable)
  st : EState
  lastIssue : Nat
  kept : List (Bool × MatrixOp)
  deriving DecidableEq, Repr

/-- A physical accumulator tile: owning stream slot, elements by row * 128 + column, their poison. -/
structure Tile where
  owner : Option Nat
  data : AList Word
  poison : AList Bool
  deriving DecidableEq, Repr

/-- A tile that no stream holds. -/
def Tile.free : Tile := { owner := Option.none, data := [], poison := [] }

/-- A stream saved with its task: its bound tiles, its words issued and not started (and whether each is the post chain's), the
code of its segment (16 R306). -/
structure SavedStream where
  stream : Stream
  tiles : AList Tile
  words : List (Bool × MatrixOp)
  addr : Nat
  len : Nat
  deriving DecidableEq, Repr

/-! ## Tasks -/

/-- Where a placed task stands (11, 21). -/
inductive TPhase
  | placed
  | starting
  | running
  | stopping
  | ending
  | saved
  deriving DecidableEq, Repr

/-- How a task is to end: its threads exit, a fault ends it, or its context is torn down (07 R144, 21 R368, R371). -/
inductive Fate
  | alive
  | fault
  | killed
  deriving DecidableEq, Repr

/-- A task in a task slot (or saved): identity, resources, gangs, local memory, queues, barriers. `started` says that its
registers were set at TASK_START; `saved` lists the segments (number, address, length) that its restore lands. -/
structure Task where
  ctx : Nat
  launch : Nat
  ident : Ident
  variant : Variant
  sh : List Nat
  phase : TPhase
  fate : Fate
  started : Bool
  block0 : Nat
  granules : List Nat
  gangs : AList Gang
  scratch : Memory
  scratchPoison : AList Bool
  mdesc : Memory
  queues : AList (List QEntry)
  barriers : AList Barrier
  spanbar : Nat
  spill : AList Word
  spillPoison : AList Bool
  fetchRefs : List Nat
  pins : List Nat
  tokens : List Word
  saved : List (Nat × Nat × Nat)
  streams : List SavedStream
  deriving DecidableEq, Repr

/-! ## Instruction memory (08 R174) -/

/-- A landed segment, or the slot reserved for one that is being fetched; `code` lists words by offset, an unlisted
word being the filler of 03 R60. -/
structure ISlot where
  ctx : Nat
  kobj : Nat
  seg : Nat
  landed : Bool
  addr : Nat
  len : Nat
  code : AList Word
  poison : AList Bool
  recency : Nat
  deriving DecidableEq, Repr

/-- Who waits for a segment to land (08 R403). -/
inductive FetchFor
  | cfetch (h : Nat)
  | entry (h : Nat)
  | restore (h : Nat)
  | stream (i : Nat)
  deriving DecidableEq, Repr

/-- A segment fetch in progress: into core `unit`, or into control core `unit` when `matrix`; `slot` is none while no slot is
replaceable (08 R176). -/
structure Fetch where
  id : Nat
  matrix : Bool
  unit : Nat
  slot : Option Nat
  ctx : Nat
  kobj : Nat
  seg : Nat
  addr : Nat
  len : Nat
  who : List FetchFor
  suspended : Bool
  deriving DecidableEq, Repr

/-! ## Caches and translation (09, 10) -/

/-- A byte and whether its aligned word is poisoned (21 R379). -/
abbrev PByte := Byte × Bool

/-- A line of an L1: context, virtual and physical line number, bytes (09 R188, R189), and its way: 0-31 a base way, 32 + g the
one that granule g lends (08 R163). `stream` marks a line brought in for streaming (09 R183, R202). -/
structure L1Line where
  way : Nat
  ctx : Nat
  vline : Nat
  pline : Nat
  stream : Bool
  data : List PByte
  deriving DecidableEq, Repr

/-- A guest line of a die's LLC with its dirty-word mask (10 R211); `valid` says which words are held, `stream` that it was brought in
for streaming. -/
structure GuestLine where
  pline : Nat
  stream : Bool
  data : List PByte
  valid : BitVec 32
  dirty : BitVec 32
  deriving DecidableEq, Repr

/-- A TLB entry: one page, tagged by context (09 R188), with the slot that was walked. -/
structure TlbEntry where
  ctx : Nat
  vbase : Nat
  size : Nat
  leaf : DWord
  slot : Nat
  deriving DecidableEq, Repr

/-- A monitor watching a line at a point: 0 core, 1 die, 2 home (10 R224). -/
structure Monitor where
  h : Nat
  g : Nat
  mask : LaneMask
  point : Nat
  pline : Nat
  deriving DecidableEq, Repr

/-! ## Accesses in flight (09, 10) -/

/-- Whose access it is: a gang's or a stream's. -/
inductive Owner
  | gang (h g : Nat)
  | stream (k i : Nat)
  | engine
  deriving DecidableEq, Repr

/-- One lane of a load in flight: `dst` names the physical entries, or the s registers of a uniform load; `mode` 0 goes
through the L1, 1 allocates no L1 line, 2 is performed at the home, 3 goes through the L1 for streaming; `got` holds the words already read, each an access of its own
(10 R213). -/
structure LoadLane where
  lane : Nat
  va : Nat
  pa : Nat
  mode : Nat
  dst : List Nat
  landed : Bool
  got : List (Nat × List PByte)
  deriving DecidableEq, Repr

/-- A load in flight; `value` is fixed for words that read at issue (BMRANK, BMSEL). -/
structure LoadOp where
  id : Nat
  owner : Owner
  core : Nat
  ctx : Nat
  pc : Word
  bytes : Nat
  signed : Bool
  uniform : Bool
  counted : Bool
  acq : Option Nat
  lanes : List LoadLane
  fixed : List (Nat × Option Word)
  deriving DecidableEq, Repr

/-- One lane of a store in flight; stage 0 at the core point, 1 at the die point, 2 performed or denied at the
home (10 R210); `mode` 2 is queued to the home without a guest copy (10 R212), 3 is of a streaming store; `seq` stamps its arrival at the die point. A denial
keeps its cause and its first denied byte (09 R199). -/
structure WriteLane where
  lane : Nat
  va : Nat
  pa : Nat
  mode : Nat
  data : List Byte
  poison : Bool
  stage : Nat
  seq : Nat
  denied : Nat
  deniedAt : Nat
  deriving DecidableEq, Repr

/-- A store in flight; `umask` is the entry's mask where a uniform word issued it; `ordered` is the scope of an ordered store
(10 R221); `through` marks the write-through of a near atomic, which meets no guard at its home (09 R199). -/
structure WriteOp where
  id : Nat
  owner : Owner
  core : Nat
  die : Nat
  ctx : Nat
  pc : Word
  tagged : Bool
  umask : Option LaneMask
  counted : Bool
  ordered : Option Nat
  through : Bool
  lanes : List WriteLane
  acked : Bool
  deriving DecidableEq, Repr

/-- One lane of an atomic in flight; stage 0 not performed, 1 performed or denied, 2 replied. -/
structure AtomLane where
  lane : Nat
  va : Nat
  pa : Nat
  ap : Nat
  mode : Nat
  data : List Word
  dst : List Nat
  stage : Nat
  old : List Byte
  poisoned : Bool
  denied : Bool
  deriving DecidableEq, Repr

/-- A global atomic in flight (09 R206); `ordered` says that it has an ordering suffix (10 R221). -/
structure AtomOp where
  id : Nat
  owner : Owner
  core : Nat
  die : Nat
  ctx : Nat
  pc : Word
  op : Nat
  scope : Nat
  acq : Bool
  ordered : Bool
  lanes : List AtomLane
  deriving DecidableEq, Repr

/-- What a remote local access does. -/
inductive RemoteKind
  | load (bytes : Nat)
  | store
  | latom (op : Nat)
  | block (bytes : Nat)
  deriving DecidableEq, Repr

/-- One lane of a remote local access. -/
structure RemoteLane where
  lane : Nat
  addr : Nat
  data : List Word
  bytes : List Byte
  dst : List Nat
  stage : Nat
  result : List Byte
  bad : List Bool
  poisoned : Bool
  refused : Nat
  deriving DecidableEq, Repr

/-- A space-1 or space-2 access to another core in flight (08 R168). A word of one address (`block`) names its active lanes
in `mask` and where their results go in `dsts`; `spread` says how: 1, 2, 4 the element size of a transposing load, 8 bit
planes, 16 + n a TEB block of n planes. -/
structure RemoteOp where
  id : Nat
  owner : Owner
  ctx : Nat
  pc : Word
  kind : RemoteKind
  spread : Nat
  mask : LaneMask
  dsts : List (Nat × List Nat)
  lanes : List RemoteLane
  deriving DecidableEq, Repr

/-! ## Block transfers (15) -/

/-- Transfer states (15 Table 15-4); `completing` says whether CWORD is written, and bounds the release it waits for. -/
inductive XState
  | queued
  | running
  | completing (written : Bool) (upto : Nat)
  | suspended
  | stopped
  | failed
  deriving DecidableEq, Repr

/-- A transfer descriptor as the engine holds it (15 Table 15-1). -/
structure XDesc where
  far : Nat
  esz : Nat
  store : Bool
  scope : Nat
  near : Nat
  cval : Nat
  cword : Nat
  ext : List Nat
  lo : List Nat
  hi : List Nat
  bmap : Nat
  bmen : Bool
  fstr : List Int
  nstr : List Nat
  pad : Nat
  mc : List Nat
  deriving DecidableEq, Repr

/-- A part of a follower's tile: its offset and bytes, its far address (none: zeros), and which bits of each byte belong to elements
inside the extent (12 R268). -/
structure FollowSeg where
  off : Nat
  n : Nat
  far : Option Nat
  keep : Byte
  deriving DecidableEq, Repr

/-- A follower copy (11 R254, 12 R268): its slot, stage, bitmap and byte count, and once its records are read the parts of
the tile. -/
structure Follow where
  slot : Nat
  stage : Nat
  bmap : Nat
  bytes : Nat
  segs : Option (List FollowSeg)
  deriving DecidableEq, Repr

/-- What a transfer copies. -/
inductive XSource
  | desc (d : XDesc)
  | follow (f : Follow)
  deriving DecidableEq, Repr

/-- A chunk issued and not complete (15 R297); `sent` bounds the release it waits for once its bytes are written. -/
structure Flight where
  chunk : Nat
  sent : Option Nat
  deriving DecidableEq, Repr

/-- A block transfer: its source, BTCOPY's PC and entry mask, positions, the chunk issued next, marked chunks, chunks in flight, state; the
address that suspended it. -/
structure Transfer where
  id : Nat
  cluster : Nat
  h : Nat
  g : Nat
  pc : Word
  mask : LaneMask
  src : XSource
  committed : Nat
  spec : Nat
  next : Nat
  marked : List Nat
  flight : List Flight
  st : XState
  pageAddr : Nat
  pageDetail : Nat
  deriving DecidableEq, Repr

/-! ## Bank commands (13) and gradient merges (19 R354) -/

/-- The operation of a bank command. -/
inductive BankKind
  | op (m : Nat)
  | red
  | rank
  | commit
  | read (clear : Bool)
  deriving DecidableEq, Repr

/-- The notices that end a command of a unit once its elements are done (13 R275, 19 R354): stage 0 RES is to be written, 1 CWORD, 2 the
count is to fall; the word of RES; what bounds the release that the next one carries. -/
structure Finish where
  stage : Nat
  word : Nat
  upto : Nat
  deriving DecidableEq, Repr

/-- A bank command issued and not complete; the ranges are physical. -/
structure BankCmd where
  id : Nat
  owner : Owner
  ctx : Nat
  kind : BankKind
  dfmt : Nat
  sfmtA : Nat
  sfmtB : Nat
  frac : Nat
  rmode : Nat
  sat : Bool
  scope : Nat
  group : Nat
  count : Nat
  alpha : Word
  dst : Nat
  srcA : Nat
  srcB : Nat
  hasB : Bool
  cword : Option Nat
  cval : Nat
  res : Nat
  fin : Option Finish
  deriving DecidableEq, Repr

/-- A gradient merge in progress (19 R354): element addresses are formed from the virtual addresses of the copies. -/
structure Merge where
  id : Nat
  owner : Owner
  ctx : Nat
  pc : Word
  mask : LaneMask
  dfmt : Nat
  sfmt : Nat
  frac : Nat
  rmode : Nat
  count : Nat
  copies : List Nat
  primary : Nat
  desc : Nat
  cword : Nat
  cval : Nat
  fin : Option Finish
  deriving DecidableEq, Repr

/-! ## Cores, clusters, dies -/

/-- A core: slot generations (08 R159), instruction slots (R174), L1 lines (R163), monitors (10 R224). -/
structure Core where
  slotGen : AList Nat
  islots : AList (Option ISlot)
  l1 : List L1Line
  monitors : List Monitor
  lastPlaced : Nat
  deriving DecidableEq, Repr

/-- A core with nothing in it. -/
def Core.reset : Core := { slotGen := [], islots := [], l1 := [], monitors := [], lastPlaced := 0 }

/-- A cluster: TLB (09 R188), streams and control-core slots (11 R266), the stream that the round-robin of 16 R304 looks at
first, tiles and unit queues (16). -/
structure Cluster where
  tlb : List TlbEntry
  streams : AList (Option Stream)
  nextStream : Nat
  mslots : AList (Option ISlot)
  tiles : AList Tile
  arrayQ : List MatrixOp
  postQ : List MatrixOp
  deriving DecidableEq, Repr

/-- A cluster with nothing in it. -/
def Cluster.reset : Cluster := { tlb := [], streams := [], nextStream := 0, mslots := [], tiles := [], arrayQ := [], postQ := [] }

/-- A claim or take outstanding on a ring (19 R355). -/
structure RingHold where
  pos : Word
  count : Nat
  owner : Nat
  done : Bool
  deriving DecidableEq, Repr

/-- A Trestle ring (19 Table 19-6). -/
structure Ring where
  en : Bool
  logn : Nat
  logsz : Nat
  scope : Nat
  dead : Bool
  enerr : Nat
  ctx : Nat
  base : Nat
  claim : Word
  pubp : Word
  take : Word
  freep : Word
  claims : List RingHold
  takes : List RingHold
  reserved : Nat
  deriving DecidableEq, Repr

/-- A ring at reset (19 Table 19-6). -/
def Ring.reset : Ring :=
  { en := false, logn := 0, logsz := 0, scope := 4, dead := false, enerr := 0, ctx := 0, base := 0, claim := 0, pubp := 0,
    take := 0, freep := 0, claims := [], takes := [], reserved := 0 }

/-- A host command queue (23 Table 23-1). -/
structure HostQueue where
  en : Bool
  err : Bool
  logn : Nat
  badcfg : Bool
  ctx : Nat
  base : Nat
  tail : Word
  head : Word
  deriving DecidableEq, Repr

/-- A host command queue at reset. -/
def HostQueue.reset : HostQueue :=
  { en := false, err := false, logn := 0, badcfg := false, ctx := 0, base := 0, tail := 0, head := 0 }

/-- A format window (09 Table 9-5). -/
structure FmtWindow where
  en : Bool
  fmt : Nat
  enc : Nat
  alias_ : Nat
  nblk : Nat
  deriving DecidableEq, Repr

/-- A format window at reset; ENC, ALIAS and NBLK hold no defined value (DESIGN CHOICE 0, log 3). -/
def FmtWindow.reset : FmtWindow := { en := false, fmt := 0, enc := 0, alias_ := 0, nblk := 0 }

/-- Events posted to a die's scheduler thread (21 R367, 11 R248, 08 R403, 21 R372). -/
inductive SchedEvent
  | fault (h g : Nat)
  | fetch (f ctx seg addr : Nat)
  | transfer (t : Nat)
  | crec (l : Nat)
  | crecFailed (l : Nat)
  | walker (l ctx : Nat) (packet : Packet) (cause kind detail addr committed spec : Nat)
  | syscall (h g lane : Nat) (svc : Nat) (arg : Word) (regs : AList Word)
  deriving DecidableEq, Repr

/-- States of one page move (09 Table 9-4). -/
inductive MoveState
  | protect
  | copy
  | commit
  | release
  | abort
  deriving DecidableEq, Repr

/-- A page move of a die's migration engine (09 R193): the shootdown it waits for, the physical addresses of the page's slots,
the frames as addresses. -/
structure PageMove where
  id : Nat
  sd : Nat
  ctx : Nat
  va : Nat
  slots : List Nat
  size : Nat
  old : Nat
  new : Nat
  st : MoveState
  deriving DecidableEq, Repr

/-- A merge window of a launch unit (11 R261). -/
structure MergeWindow where
  ctx : Nat
  kobj : Nat
  sh : List Nat
  lpri : Nat
  steal : Nat
  children : List Nat
  deriving DecidableEq, Repr

/-- A die; `bypass` counts how often each head was bypassed, `reserved` names the core kept for each (11 R257);
`evacuating` says that it is to go offline (09 R198). -/
structure Die where
  online : Bool
  evacuating : Bool
  guest : List GuestLine
  homeQ : AList (List QTask)
  bypass : List (QTask × Nat)
  reserved : List (QTask × Nat)
  events : List SchedEvent
  rings : AList Ring
  hostQs : AList HostQueue
  windows : AList FmtWindow
  guardLog : Nat
  winSeq : Word
  closing : Nat
  rot : AList Nat
  corrected : Nat
  moves : List PageMove
  aborts : Nat
  mergeWindows : List MergeWindow
  deriving DecidableEq, Repr

/-- A die at reset. -/
def Die.reset : Die :=
  { online := true, evacuating := false, guest := [], homeQ := [], bypass := [], reserved := [], events := [], rings := [], hostQs := [],
    windows := [], guardLog := 0, winSeq := 0, closing := 0, rot := [], corrected := 0, moves := [], aborts := 0,
    mergeWindows := [] }

/-! ## Contexts and launches -/

/-- A join slot (11 R262). -/
structure JoinSlot where
  seq : Nat
  launch : Nat
  joined : Bool
  issuerEnded : Bool
  status : Option Word
  deriving DecidableEq, Repr

/-- A context: its descriptor, its fault-log index and its join slots. -/
structure Context where
  desc : ContextDesc
  fidx : Word
  joins : AList (Option JoinSlot)
  nextSeq : Nat
  torn : Bool
  deriving DecidableEq, Repr

/-! ## Placement engine (19) -/

/-- States of a table slot (19 Table 19-4). -/
inductive GenState
  | free
  | building
  | current
  | draining
  deriving DecidableEq, Repr

/-- A table slot: state, generation number, references. -/
structure GenSlot where
  st : GenState
  gen : Nat
  refs : Nat
  deriving DecidableEq, Repr

/-- A replica's pool allocation: expert, copy, die, offset, length. -/
structure PoolBlock where
  expert : Nat
  copy : Nat
  die : Nat
  off : Nat
  len : Nat
  deriving DecidableEq, Repr

/-- A context slot of the placement engine (19 Table 19-1) with its table slots, cold runs, replicas. -/
structure PlaceSlot where
  cen : Bool
  ctx : Nat
  nexp : Nat
  tbl : Nat
  gen : Nat
  slot : Nat
  cntoff : Nat
  rva : Nat
  gens : AList GenSlot
  cold : AList Nat
  pool : List PoolBlock
  epoch : Nat
  adds : List PoolBlock
  deriving DecidableEq, Repr

/-- A context slot at reset. -/
def PlaceSlot.reset : PlaceSlot :=
  { cen := false, ctx := 0, nexp := 0, tbl := 0, gen := 0, slot := 0, cntoff := 0, rva := 0, gens := [], cold := [],
    pool := [], epoch := 0, adds := [] }

/-- The placement engine's registers (19 Table 19-1). -/
structure Engine where
  en : Bool
  freeze : Bool
  win : Nat
  hot : Nat
  cold : Nat
  idle : Nat
  w : Nat
  cpyfail : Nat
  wdraw : Nat
  slots : AList PlaceSlot
  pbase : AList Nat
  psize : AList Nat
  closesSent : Nat
  evaluated : Nat
  deriving DecidableEq, Repr

/-- The placement engine at reset (19 Table 19-1). -/
def Engine.reset : Engine :=
  { en := false, freeze := false, win := 100, hot := 0x2000, cold := 0x0400, idle := 4, w := 8, cpyfail := 0, wdraw := 0,
    slots := [], pbase := [], psize := [], closesSent := 0, evaluated := 0 }

/-! ## Commands in flight -/

/-- A ring command (19 R358-R360): `pos` is s[b]. -/
inductive RingOp
  | claim
  | pub
  | take
  | free
  deriving DecidableEq, Repr

/-- A ring command in flight; `reply` is set when the ring has performed or refused it: status, value, cause. -/
structure RingCmd where
  id : Nat
  owner : Owner
  lane : Nat
  pc : Word
  mask : LaneMask
  op : RingOp
  ring : Word
  arg : Word
  d : Nat
  m : Nat
  ctx : Nat
  fromDie : Nat
  reply : Option (Bool × Word × Nat)
  deriving DecidableEq, Repr

/-- A BARREM notice in flight (15 R303): whether a stream issued it, and whether it still counts in its owner's RG. -/
structure Notice where
  id : Nat
  owner : Owner
  stream : Bool
  counts : Bool
  pc : Word
  mask : LaneMask
  operand : Word
  arrived : Bool
  acked : Bool
  refused : Bool
  deriving DecidableEq, Repr

/-- What an expert command asks (19 R346-R351). -/
inductive ExpertOp
  | ecnt (e : Nat) (sel : Bool)
  | look (e t gen : Nat)
  | pin
  | unpin (gen : Nat)
  deriving DecidableEq, Repr

/-- An expert command in flight; `reply` holds the two result words, or a PERM cause. -/
structure ExpertCmd where
  id : Nat
  owner : Owner
  lane : Nat
  pc : Word
  mask : LaneMask
  op : ExpertOp
  d : Nat
  ctx : Nat
  die : Nat
  reply : Option (Word × Word × Nat)
  deriving DecidableEq, Repr

/-- A shootdown in progress (09 R190), and where its reply goes. -/
structure Shoot where
  id : Nat
  ctx : Nat
  base : Nat
  len : Nat
  reply : Option Nat
  deriving DecidableEq, Repr

/-- A control command taken from host queue `queue` (die * 16 + number) and not yet done (23 R389); `begun` says that a tear-down has
killed the tasks whose ends its reply awaits. -/
structure HostCmd where
  queue : Nat
  op : Nat
  cmd : ControlCmd
  begun : Bool
  deriving DecidableEq, Repr

/-! ## Boot, hand-over, power, links (23) -/

/-- Boot phases (23 R391). -/
inductive BootPhase
  | off
  | rom
  | recovery
  | running
  deriving DecidableEq, Repr

/-- Boot state: boot die, dies that have tried, mailbox, measurement log (newest first), the dies that reported a failed image on the
management port. -/
structure Boot where
  phase : BootPhase
  strap : Nat
  die : Nat
  tried : List Nat
  mailbox : Bool
  log : List (BitVec 256)
  reports : List Nat
  deriving DecidableEq, Repr

/-- Hand-over states (23 Table 23-3). -/
inductive HandState
  | running
  | staged
  | paused
  | adopting
  | accepting
  | reverted
  deriving DecidableEq, Repr

/-- An entry of the preserved-state table (23 R394). -/
structure Preserved where
  type : Nat
  version : Nat
  addr : Nat
  len : Nat
  deriving DecidableEq, Repr

/-- Hand-over state, kernel generation, the staged image's digest, what the 256 MiB reserved region holds of an image, the entries of
the preserved-state table last adopted, and where the table of this hand-over stands once the successor has looked at it. -/
structure Hand where
  st : HandState
  gen : BitVec 16
  image : Option (BitVec 256)
  region : List Byte
  table : List Preserved
  tableAt : Option Nat
  deriving DecidableEq, Repr

/-- Lehr state, tolerance in microseconds, exit under way and its target (23 R397, R398). -/
structure Lehr where
  level : Nat
  tolerance : Nat
  exit : Option Nat
  deriving DecidableEq, Repr

/-! ## The whole package -/

/-- Whose word is being executed. -/
inductive Who
  | gang (h g : Nat)
  | stream (k i : Nat)
  deriving DecidableEq, Repr

/-- The issuing frontier entry, or stream, during one step (07 R135): taken out of the frontier while it issues. -/
structure Issuer where
  who : Who
  entry : Entry
  deriving DecidableEq, Repr

/-- What moves next (log 1): a gang offers its word, a stalled entry (by its place in the frontier) completes its word, a stream
issues, or an event of the device comes about. -/
inductive Turn
  | gang (h g : Nat)
  | resume (h g n : Nat)
  | stream (k i : Nat)
  | event (e : Instr)
  deriving DecidableEq, Repr

/-- `guards` holds the guard ranges, half-open: range i of home h under 16 * h + i, at most 16 of a home (09 R199). -/
structure State where
  turns : List Turn
  cur : Option Issuer
  tick : Nat
  nextId : Nat
  mem : Memory
  memPoison : AList Bool
  sticky : AList Bool
  guards : AList (Nat × Nat)
  tasks : AList (Option Task)
  cores : AList Core
  clusters : AList Cluster
  dies : AList Die
  contexts : AList (Option Context)
  launches : AList (Option Launch)
  nextLaunch : Nat
  loads : List LoadOp
  writes : List WriteOp
  atoms : List AtomOp
  remotes : List RemoteOp
  transfers : List Transfer
  fetches : List Fetch
  bankCmds : List BankCmd
  merges : List Merge
  engine : Engine
  ringCmds : List RingCmd
  notices : List Notice
  experts : List ExpertCmd
  shoots : List Shoot
  cmds : List HostCmd
  readData : DWord
  boot : Boot
  hand : Hand
  lehr : Lehr
  edgesDown : List Nat
  versions : List (LinkRef × Option Nat)
  retransmits : List LinkRef
  fabricOut : List (Nat × List Byte)
  fabricIn : List (Nat × List Byte)
  deriving DecidableEq, Repr

/-- Why a run stops. -/
inductive Fault
  /-- Raised by `exec` of an instruction word when no agent is issuing. Safe: `step` never does so. -/
  | noIssuer
  deriving DecidableEq, Repr

/-- Why a step has no meaning. -/
inductive Refusal
  /-- Raised by an arm of `exec` whose instruction has no meaning yet. Safe. -/
  | notModelled (mnemonic : String)
  deriving DecidableEq, Repr

/-- The package right after reset: power not yet applied to the boot ROM (23 R391), nothing resident; the registers
whose reset values the spec states at those values, the others as logs 2 and 3 say. -/
def State.reset : State :=
  { turns := [], cur := none, tick := 0, nextId := 0, mem := [], memPoison := [], sticky := [], guards := [], tasks := [],
    cores := [], clusters := [], dies := [], contexts := [], launches := [], nextLaunch := 0, loads := [], writes := [],
    atoms := [], remotes := [], transfers := [], fetches := [], bankCmds := [], merges := [], engine := Engine.reset,
    ringCmds := [], notices := [], experts := [], shoots := [], cmds := [], readData := 0,
    boot := { phase := .off, strap := 0, die := 0, tried := [], mailbox := false, log := [], reports := [] },
    hand := { st := .running, gen := 0, image := none, region := [], table := [], tableAt := none }, lehr := { level := 0, tolerance := 0, exit := none },
    edgesDown := [], versions := [], retransmits := [], fabricOut := [], fabricIn := [] }

end Sys2Proof.Machine
end

