-- ==== Sys2Proof/Machine/Ops.lean ====
section
/-!
DEFINITION. Named operations over the state: where things stand (01), registers and condition bits (05), frontier
entries (07), and raising a fault, freeing a record (21).
-/
namespace Sys2Proof.Machine

open Sys2Proof

/-- The outcome of a step. -/
abbrev Out := Host.Outcome State Fault Refusal

/-! ## Geometry (01 R8, R9) -/

def coreX (c : Nat) : Nat := c % 16
def coreY (c : Nat) : Nat := c / 16
/-- The die of a core. -/
def dieOf (c : Nat) : Nat := (coreY c / 6) * 2 + coreX c / 8
/-- The cluster within the die. -/
def clusterIn (c : Nat) : Nat := (coreY c % 6 / 3) * 4 + coreX c % 8 / 2
/-- The core within the cluster. -/
def coreIn (c : Nat) : Nat := coreX c % 8 % 2 + 2 * (coreY c % 6 % 3)
/-- The key of a core's cluster. -/
def clusterOf (c : Nat) : Nat := dieOf c * 8 + clusterIn c
/-- The core with index `i` in cluster `k`. -/
def coreAt (k i : Nat) : Nat :=
  (k / 8 / 2 * 6 + k % 8 / 4 * 3 + i / 2) * 16 + (k / 8 % 2 * 8 + k % 8 % 4 * 2 + i % 2)
/-- The six cores of a cluster. -/
def clusterCores (k : Nat) : List Nat := (List.range 6).map (coreAt k)
/-- The 48 cores of a die. -/
def dieCores (d : Nat) : List Nat := (List.range 8).flatMap fun c => clusterCores (d * 8 + c)
/-- A task's handle. -/
def handleOf (core slot : Nat) : Nat := core * 16 + slot
def hCore (h : Nat) : Nat := h / 16
def hSlot (h : Nat) : Nat := h % 16
/-- The die and the cluster of a task; a saved one's are those it was saved from. -/
def hDie (h : Nat) : Nat := dieOf (hCore h % 192)
def hCluster (h : Nat) : Nat := clusterOf (hCore h % 192)

/-! ## Physical addresses (01 R11, 09 R180) -/

def homeOf (pa : Nat) : Nat := pa / 2 ^ 47
def homeOff (pa : Nat) : Nat := pa % 2 ^ 47
/-- The owning die of a home other than 31 (01 Table 1-1). -/
def ownerDie (home : Nat) : Nat :=
  if home < 4 then home
  else if home < 8 then home - 4
  else if home < 16 then (home - 8) / 2
  else 0

/-- The die that owns a physical address; of a device register, bits 46-45 say (01 Table 1-1). -/
def dieOfPa (pa : Nat) : Nat := if homeOf pa = 31 then bits pa 46 45 else ownerDie (homeOf pa)

/-- Whether a home can be accessed: in LS3 the HBM of dies 1-3 is in self-refresh, in LS4 the package stands by (23 R397). -/
def State.awake (s : State) (pa : Nat) : Bool :=
  decide (s.lehr.level < 3) || (decide (s.lehr.level = 3) && !(decide (1 ≤ homeOf pa) && decide (homeOf pa ≤ 3)))

/-- The bits V and T and the field FRAME of a page-table entry (09 Table 9-2). -/
def pteV (e : Nat) : Bool := e.testBit 0
def pteT (e : Nat) : Bool := e.testBit 1
def pteFrame (e : Nat) : Nat := bits e 51 12

/-- The tables that can be reached from one of a level. -/
def tablesFrom (m : Memory) (table : Nat) : Nat → List Nat
  | 0 => [table]
  | n + 1 => table :: (List.range 512).flatMap fun i =>
      let e := Memory.readNat m (table + 8 * i) 8
      if pteV e && pteT e then tablesFrom m (pteFrame e * 4096) n else []

/-- A page table of a context that lies in a home that cannot be accessed: its translations wait until the package has left the state (23
R397), those too that need not reach that table: DESIGN CHOICE (log 71). -/
def State.asleepTable (s : State) (ctx : Nat) : Option Nat :=
  if s.lehr.level < 3 then none
  else
    (AList.get none s.contexts ctx).bind fun c =>
      (c.desc.roots.flatMap fun r => if r.2 = 0 then [] else tablesFrom s.mem r.2 3).find? fun a => !s.awake a

/-- Whether a die can take a task (23 R397). -/
def State.dieAwake (s : State) (die : Nat) : Bool := decide (s.lehr.level < 3) || (decide (s.lehr.level = 3) && decide (die = 0))

/-- The lanes of a mask, ascending. -/
def lanesOf (m : LaneMask) : List Nat := (List.range 32).filter fun i => m.getLsbD i

/-- The mask of one lane. -/
def laneBit (i : Nat) : LaneMask := (1 : LaneMask) <<< i

/-- The mask of the lanes that satisfy a test. -/
def maskOf (p : Nat → Bool) : LaneMask := (List.range 32).foldl (fun m i => if p i then m ||| laneBit i else m) 0

/-- The lowest lane of a mask. -/
def lowestLane (m : LaneMask) : Nat := (lanesOf m).headD 0

/-! ## Finding and changing parts of the state -/

def State.task (s : State) (h : Nat) : Option Task := AList.get none s.tasks h
def State.setTask (s : State) (h : Nat) (t : Option Task) : State := { s with tasks := AList.set none s.tasks h t }
def State.modTask (s : State) (h : Nat) (f : Task → Task) : State :=
  match s.task h with
  | none => s
  | some t => s.setTask h (some (f t))
def Task.gang (t : Task) (g : Nat) : Gang := AList.get Gang.absent t.gangs g
def Task.setGang (t : Task) (g : Nat) (v : Gang) : Task := { t with gangs := AList.set Gang.absent t.gangs g v }
def State.gang (s : State) (h g : Nat) : Gang :=
  match s.task h with
  | none => Gang.absent
  | some t => t.gang g
def State.modGang (s : State) (h g : Nat) (f : Gang → Gang) : State :=
  s.modTask h fun t => t.setGang g (f (t.gang g))
def State.core (s : State) (c : Nat) : Core := AList.get Core.reset s.cores c
def State.modCore (s : State) (c : Nat) (f : Core → Core) : State :=
  { s with cores := AList.modify Core.reset s.cores c f }
def State.cluster (s : State) (k : Nat) : Cluster := AList.get Cluster.reset s.clusters k
def State.modCluster (s : State) (k : Nat) (f : Cluster → Cluster) : State :=
  { s with clusters := AList.modify Cluster.reset s.clusters k f }
def State.die (s : State) (d : Nat) : Die := AList.get Die.reset s.dies d
def State.modDie (s : State) (d : Nat) (f : Die → Die) : State :=
  { s with dies := AList.modify Die.reset s.dies d f }
def State.context (s : State) (c : Nat) : Option Context := AList.get none s.contexts c
def State.modContext (s : State) (c : Nat) (f : Context → Context) : State :=
  match s.context c with
  | none => s
  | some x => { s with contexts := AList.set none s.contexts c (some (f x)) }
def State.launch (s : State) (l : Nat) : Option Launch := AList.get none s.launches l
def State.modLaunch (s : State) (l : Nat) (f : Launch → Launch) : State :=
  match s.launch l with
  | none => s
  | some x => { s with launches := AList.set none s.launches l (some (f x)) }
def State.stream (s : State) (k i : Nat) : Option Stream := AList.get none (s.cluster k).streams i
def State.modStream (s : State) (k i : Nat) (f : Stream → Stream) : State :=
  s.modCluster k fun c =>
    match AList.get none c.streams i with
    | none => c
    | some x => { c with streams := AList.set none c.streams i (some (f x)) }

/-- Whether the boot die's resident kernel runs, and the register space answers (23 R384). -/
def State.booted (s : State) : Bool := s.boot.phase == .running

/-- Whether the resident kernel has created a context, and not torn it down. -/
def State.created (s : State) (ctx : Nat) : Bool :=
  match s.context ctx with
  | some c => !c.torn
  | none => false

/-- A fresh operation id. -/
def State.fresh (s : State) : Nat × State := (s.nextId, { s with nextId := s.nextId + 1 })

/-- Posts an event to a die's scheduler thread (21 R367). -/
def State.post (s : State) (d : Nat) (e : SchedEvent) : State := s.modDie d fun x => { x with events := x.events ++ [e] }

/-- Whether an event still waits for a scheduler thread. -/
def State.posted (s : State) (e : SchedEvent) : Bool := s.dies.any fun d => d.2.events.contains e

/-- Whether a walker's event still waits for a scheduler thread. -/
def State.walkerPosted (s : State) (n : Nat) : Bool :=
  s.dies.any fun d => d.2.events.any fun e => match e with
    | .walker l _ _ _ _ _ _ _ _ => l == n
    | _ => false

/-! ## Lane registers (05 R80, R86) -/

/-- The physical entry of register vk. -/
def Thread.phys (D : Nat) (t : Thread) (k : Nat) : Nat := (t.base + k) % D
def Thread.reg (D : Nat) (t : Thread) (k : Nat) : Word := AList.get 0 t.stack (t.phys D k)
def Thread.regState (D : Nat) (t : Thread) (k : Nat) : RegState := AList.get .full t.rstate (t.phys D k)
def Thread.regPoison (D : Nat) (t : Thread) (k : Nat) : Bool := AList.get false t.poison (t.phys D k)

/-- Writes a physical entry: full and without poison. -/
def Thread.writePhys (p : Nat) (v : Word) (t : Thread) : Thread :=
  { t with stack := AList.set 0 t.stack p v, rstate := AList.set .full t.rstate p .full,
           poison := AList.set false t.poison p false }
/-- Writes register vk (05 R86). -/
def Thread.write (D k : Nat) (v : Word) (t : Thread) : Thread := t.writePhys (t.phys D k) v
/-- Marks a physical entry. -/
def Thread.markPhys (p : Nat) (st : RegState) (t : Thread) : Thread := { t with rstate := AList.set .full t.rstate p st }

/-- Predicate pn; p0 is always true (05 R90). -/
def Thread.pred (t : Thread) (n : Nat) : Bool := n == 0 || t.preds.getLsbD n
/-- Writes predicate pn; p0 discards. -/
def Thread.setPred (n : Nat) (b : Bool) (t : Thread) : Thread :=
  if n = 0 then t
  else { t with preds := if b then t.preds ||| ((1 : BitVec 8) <<< n) else t.preds &&& ~~~((1 : BitVec 8) <<< n) }

def Gang.thread (gg : Gang) (i : Nat) : Thread := AList.get Thread.start gg.threads i
def Gang.modThread (gg : Gang) (i : Nat) (f : Thread → Thread) : Gang :=
  { gg with threads := AList.modify Thread.start gg.threads i f }
/-- Changes the threads of the listed lanes. -/
def Gang.modLanes (gg : Gang) (ls : List Nat) (f : Nat → Thread → Thread) : Gang :=
  { gg with threads := ls.foldl (fun a i => AList.modify Thread.start a i (f i)) gg.threads }

/-- A write by the gang invalidates a held operand (05 R85). -/
def Gang.dropLatch (gg : Gang) (reg : Nat) (m : LaneMask) : Gang :=
  { gg with latch := gg.latch.filter fun l => !(l.reg == reg && (l.lanes &&& m) != 0) }

/-- Writes a lane register of the active lanes (05 R86, R89). -/
def Gang.writeReg (D : Nat) (gg : Gang) (m : LaneMask) (k : Nat) (v : Nat → Word) : Gang :=
  (gg.modLanes (lanesOf m) fun i t => t.write D k (v i)).dropLatch k m

/-- Ors sticky flags into the active lanes (04 R78). -/
def Gang.orFlags (gg : Gang) (m : LaneMask) (f : Nat → BitVec 5) : Gang :=
  gg.modLanes (lanesOf m) fun i t => { t with fpflags := t.fpflags ||| f i }

/-! ## Uniform registers and condition bits (05 R91, R92) -/

def Gang.sreg (gg : Gang) (n : Nat) : Word := if n = 0 then 0 else AList.get 0 gg.s n
def Gang.setS (gg : Gang) (n : Nat) (v : Word) : Gang := if n = 0 then gg else { gg with s := AList.set 0 gg.s n v }
def Gang.cbit (gg : Gang) (n : Nat) : Bool := n == 0 || gg.c.getLsbD n
def setBit8 (c : BitVec 8) (n : Nat) (b : Bool) : BitVec 8 :=
  if n = 0 then c else if b then c ||| ((1 : BitVec 8) <<< n) else c &&& ~~~((1 : BitVec 8) <<< n)
def Gang.setC (gg : Gang) (n : Nat) (b : Bool) : Gang := { gg with c := setBit8 gg.c n b }
def Stream.sreg (x : Stream) (n : Nat) : Word := if n = 0 then 0 else AList.get 0 x.s n
def Stream.setS (n : Nat) (v : Word) (x : Stream) : Stream := if n = 0 then x else { x with s := AList.set 0 x.s n v }

/-- s register n of a gang or a stream. -/
def State.sreg (s : State) (w : Who) (n : Nat) : Word :=
  match w with
  | .gang h g => (s.gang h g).sreg n
  | .stream k i =>
    match s.stream k i with
    | none => 0
    | some x => x.sreg n

/-- Writes s register n; s0 discards (05 R91). -/
def State.setS (s : State) (w : Who) (n : Nat) (v : Word) : State :=
  match w with
  | .gang h g => s.modGang h g fun gg => gg.setS n v
  | .stream k i => s.modStream k i (Stream.setS n v)

/-- The 64-bit value of an s pair. -/
def State.spair (s : State) (w : Who) (n : Nat) : Nat := (s.sreg w n).toNat + 2 ^ 32 * (s.sreg w (n + 1)).toNat

/-- Condition bit cn; c0 is always true (05 R92). -/
def State.cbit (s : State) (w : Who) (n : Nat) : Bool :=
  match w with
  | .gang h g => (s.gang h g).cbit n
  | .stream k i =>
    match s.stream k i with
    | none => n == 0
    | some x => n == 0 || x.c.getLsbD n

/-- Writes condition bit cn; c0 discards. -/
def State.setC (s : State) (w : Who) (n : Nat) (b : Bool) : State :=
  match w with
  | .gang h g => s.modGang h g fun gg => gg.setC n b
  | .stream k i => s.modStream k i fun x => { x with c := setBit8 x.c n b }

/-- The gang a word acts for: a stream's is the gang that issued MSTART (16 R305). -/
def State.gangOf (s : State) (w : Who) : Nat × Nat :=
  match w with
  | .gang h g => (h, g)
  | .stream k i =>
    match s.stream k i with
    | none => (0, 0)
    | some x => (x.h, x.g)

/-- The owner of an access that a word makes. -/
def Who.owner (w : Who) : Owner :=
  match w with
  | .gang h g => .gang h g
  | .stream k i => .stream k i

/-- The context a task runs in. -/
def State.ctxOf (s : State) (h : Nat) : Nat :=
  match s.task h with
  | none => 0
  | some t => t.ctx

/-- The stack depth D of a task (02 R34). -/
def State.depth (s : State) (h : Nat) : Nat :=
  match s.task h with
  | none => 0
  | some t => t.variant.depth

/-! ## Frontier entries (07 R133, R138) -/

/-- Adds an entry to a frontier; an empty mask makes none. -/
def State.putEntry (s : State) (h g : Nat) (e : Entry) : State :=
  if e.mask = 0 then s else s.modGang h g fun gg => { gg with frontier := gg.frontier ++ [e] }

/-- The ready entry at a code word. -/
def Entry.at (e : Entry) (pc : Word) (m : LaneMask) : Entry :=
  { e with pc := pc, mask := m, st := .ready, qkeep := [], held := none }

/-- Moves lanes to the single exited entry (07 R133). -/
def Gang.exitLanes (gg : Gang) (m : LaneMask) : Gang :=
  if m = 0 then gg
  else
    let old := (gg.frontier.filter fun x => x.st == .exited).foldl (fun a x => a ||| x.mask) 0
    { gg with
      frontier := (gg.frontier.filter fun x => x.st != .exited) ++
        [{ pc := 0, pri := 0, mask := old ||| m, st := .exited, qkeep := [], held := none }] }

/-- Whether a stalled word has issued, so that it goes on without being chosen again; one that waits for a unit has not: its entry is
ready in the sense of Table 7-1. -/
def Stall.issued (k : Stall) : Bool :=
  match k with
  | .held | .asleep _ | .counter _ | .interlock _ | .inserter | .matrixSlots | .tile | .streamDrain => false
  | _ => true

/-- Whether an entry's word has issued and goes on. -/
def EState.issued (st : EState) : Bool :=
  match st with
  | .stall k => k.issued
  | _ => false

/-! ## Faults (21 R364-R367) -/

def kILLEGAL : Nat := 1
def kALIGN : Nat := 2
def kPAGE : Nat := 3
def kPERM : Nat := 4
def kEMPTYREAD : Nat := 5
def kPRODUCER : Nat := 6
def kSEGMISS : Nat := 7
def kSTACKOVF : Nat := 8
def kDEFERRED : Nat := 9
def kPOISON : Nat := 10
def kBARRIER : Nat := 11
def kQUEUE : Nat := 12
def kRING : Nat := 13
def kWALKER : Nat := 14
def kTRAP : Nat := 15
def kWATCHDOG : Nat := 16
def kKILLED : Nat := 17

/-- What a fault puts into the record beyond the identity of its gang; `flags` holds bits 1 and 2 only. -/
structure FaultInfo where
  kind : Nat
  flags : BitVec 8
  pc : Word
  mask : LaneMask
  detail : Nat
  addr : Nat
  commit : Nat
  spec : Nat
  deriving DecidableEq, Repr

/-- A fault of a lane word. -/
def FaultInfo.lane (kind : Nat) (pc : Word) (m : LaneMask) (detail addr : Nat) : FaultInfo :=
  { kind := kind, flags := 0, pc := pc, mask := m, detail := detail, addr := addr, commit := 0, spec := 0 }

/-- A fault of a uniform word. -/
def FaultInfo.uniform (kind : Nat) (pc : Word) (m : LaneMask) (detail addr : Nat) : FaultInfo :=
  { kind := kind, flags := 4, pc := pc, mask := m, detail := detail, addr := addr, commit := 0, spec := 0 }

/-- Whether a record holds a fault not yet disposed of. -/
def Record.busy (r : Record) : Bool := r.flags.getLsbD 0

/-- The record a fault writes (21 Table 21-1). -/
def State.recordOf (s : State) (h g : Nat) (f : FaultInfo) : Record :=
  { kind := f.kind, flags := f.flags ||| 1, pc := f.pc, mask := f.mask, detail := BitVec.ofNat 32 f.detail,
    addr := BitVec.ofNat 64 f.addr, commit := f.commit, spec := f.spec,
    taskid := (match s.task h with
      | none => 0
      | some t => t.ident.taskid),
    gang := g, ctx := s.ctxOf h,
    crec := (match s.task h with
      | none => 0
      | some t =>
        match s.launch t.launch with
        | none => 0
        | some l => l.packet.crec),
    cyc := Config.cycle (hCore h) s.tick }

/-- Writes a fault to the gang's record and posts the event (21 R367). -/
def State.writeRecord (s : State) (h g : Nat) (r : Record) : State :=
  (s.modGang h g fun gg => { gg with record := r }).post (hDie h) (.fault h g)

/-- Raises a fault at a word's issue: `e` holds the lanes that stop at it. While the record is busy they park without
one (21 R366). -/
def State.raise (s : State) (h g : Nat) (f : FaultInfo) (e : Entry) : State :=
  if e.mask = 0 then s
  else if (s.gang h g).record.busy then s.putEntry h g { e with st := .parked .noRecord }
  else
    (s.writeRecord h g (s.recordOf h g f)).putEntry h g
      { e with st := .parked (if f.kind = kPAGE then .page else .fault), qkeep := [], held := none }

/-- Raises a fault after its word (21 R404): parks no lane, and is held while the record is busy (R366). -/
def State.raiseLater (s : State) (h g : Nat) (f : FaultInfo) : State :=
  match s.task h with
  | none => s
  | some _ =>
    if (s.gang h g).record.busy then s.modGang h g fun gg => { gg with held := gg.held ++ [s.recordOf h g f] }
    else s.writeRecord h g (s.recordOf h g f)

/-- Entries parked without a record become ready when the record is freed (21 R366); a SYSCALL that has its reply goes on to deliver
(R372). -/
def Gang.unparkNoRecord (gg : Gang) : Gang :=
  { gg with frontier := gg.frontier.map fun e =>
      if e.st == .parked .noRecord then { e with st := .ready }
      else if e.st == .parked .returned then { e with st := .stall (.returned 0) }
      else e }

/-- Changes the streams of a gang, on its cluster or saved with its task. -/
def State.mapStreams (s : State) (h g : Nat) (f : Stream → Stream) : State :=
  (s.modCluster (hCluster h) fun c =>
    { c with streams := c.streams.map fun p =>
        match p.2 with
        | some x => if x.h = h ∧ x.g = g then (p.1, some (f x)) else p
        | none => p }).modTask h fun t =>
      { t with streams := t.streams.map fun x => if x.stream.g = g then { x with stream := f x.stream } else x }

/-- A stream parked for a reason becomes ready. -/
def Stream.unpark (why : Park) (x : Stream) : Stream := if x.st = .parked why then { x with st := .ready } else x

/-- The streams of a gang, on its cluster or saved with its task. -/
def State.gangStreams (s : State) (h g : Nat) : List Stream :=
  ((s.cluster (hCluster h)).streams.filterMap fun p => match p.2 with
    | some x => if x.h = h ∧ x.g = g then some x else none
    | none => none) ++
  (match s.task h with
    | some t => (t.streams.map SavedStream.stream).filter fun x => x.g == g
    | none => [])

/-- Marks a gang's record as disposed of. -/
def State.clearRecord (s : State) (h g : Nat) : State :=
  s.modGang h g fun gg => { gg with record := { gg.record with flags := gg.record.flags &&& 0xFE } }

/-- The map number of a task's context (03 R49). -/
def State.mapOf (s : State) (h : Nat) : Nat :=
  match s.context (s.ctxOf h) with
  | none => 3
  | some c => c.desc.map

/-- ILLEGAL with cause 10, past the last word of a full segment (03 R61); FLAGS bit 2 is set for a stream's (log 61). -/
def State.pastEndInfo (s : State) (h : Nat) (stream : Bool) (pc : Word) (m : LaneMask) : FaultInfo :=
  { kind := kILLEGAL, flags := if stream then 6 else 0, pc := pc, mask := m, detail := 10 + 256 * s.mapOf h, addr := 0x2000,
    commit := 0, spec := 0 }

/-- Lanes that have completed the last word of a full segment raise ILLEGAL; while the record is busy they wait for it. -/
def State.raisePastEnd (s : State) (h g : Nat) (e : Entry) : State :=
  if (s.gang h g).record.busy then s.putEntry h g { e with st := .parked .pastEnd }
  else s.raise h g (s.pastEndInfo h false e.pc e.mask) e

/-- The next fault past the end of a segment takes a free record: an entry's, else a stream's. -/
def State.servePastEnd (s : State) (h g : Nat) : State :=
  match (s.gang h g).frontier.find? fun e => e.st == .parked .pastEnd with
  | some e => (s.modGang h g fun gg => { gg with frontier := gg.frontier.erase e }).raisePastEnd h g e
  | none =>
    match (s.gangStreams h g).find? fun x => x.st == .parked .pastEnd with
    | none => s
    | some x =>
      (s.writeRecord h g (s.recordOf h g (s.pastEndInfo h true x.pc 0))).mapStreams h g fun y =>
        if y = x then { y with st := .parked .fault } else y

/-- A record that is freed: the words that wait for it are issued again (21 R366); the next held fault takes it, else the next
that is past the end of a segment. -/
def State.serveHeld (s : State) (h g : Nat) : State :=
  let s := (s.modGang h g Gang.unparkNoRecord).mapStreams h g (Stream.unpark .noRecord)
  if (s.gang h g).record.busy then s
  else
    match (s.gang h g).held with
    | r :: rest => (s.modGang h g fun gg => { gg with held := rest }).writeRecord h g r
    | [] => s.servePastEnd h g

/-- Frees a gang's record (21 R366). -/
def State.freeRecord (s : State) (h g : Nat) : State := (s.clearRecord h g).serveHeld h g

/-- Raises ILLEGAL for every lane of an entry (03 R58); `word` is the address field. -/
def State.raiseIllegal (s : State) (h g : Nat) (e : Entry) (uniform : Bool) (cause word : Nat) : State :=
  s.raise h g { kind := kILLEGAL, flags := if uniform then 4 else 0, pc := e.pc, mask := e.mask,
                detail := cause + 256 * s.mapOf h, addr := word, commit := 0, spec := 0 } e

/-- Lanes of an entry move to the next word; past the last word of a segment that fills its slot they raise ILLEGAL
with cause 10 (03 R61). -/
def State.advance (s : State) (h g : Nat) (e : Entry) (m : LaneMask) : State :=
  if m = 0 then s
  else if e.pc.toNat % 8192 = 0x1FFC then s.raisePastEnd h g (e.at e.pc m)
  else s.putEntry h g (e.at (e.pc + 4) m)

/-- Runs the meaning of a word of a gang: takes the issuing entry out of `cur`. -/
def State.issuing (s : State) (k : Nat → Nat → Entry → State → State) : Out :=
  match s.cur with
  | some ⟨.gang h g, e⟩ => .next (k h g e { s with cur := none })
  | some ⟨.stream _ _, _⟩ => .fault .noIssuer
  | none => .fault .noIssuer

/-- Runs the meaning of a uniform word of a gang or stream. -/
def State.issuingAny (s : State) (k : Who → Entry → State → State) : Out :=
  match s.cur with
  | some ⟨w, e⟩ => .next (k w e { s with cur := none })
  | none => .fault .noIssuer

/-- A gang's entry, or a stream, stays at its word in a state. -/
def State.stayAt (s : State) (w : Who) (e : Entry) (st : EState) : State :=
  match w with
  | .gang h g => s.putEntry h g { e with st := st }
  | .stream k i => s.modStream k i fun x => { x with st := st }

/-- A fault of a stream: the mask is 0, FLAGS bit 1 is set, and bit 2 where a uniform word raised it (16 R305). -/
def State.raiseStream (s : State) (k i : Nat) (uniform : Bool) (pc : Word) (kind detail addr : Nat) : State :=
  match s.stream k i with
  | none => s
  | some x =>
    if (s.gang x.h x.g).record.busy then s.modStream k i fun y => { y with st := .parked .noRecord }
    else
      (s.writeRecord x.h x.g (s.recordOf x.h x.g
        { kind := kind, flags := if uniform then 6 else 2, pc := pc, mask := 0, detail := detail, addr := addr, commit := 0,
          spec := 0 })).modStream k i fun y => { y with st := .parked (if kind = kPAGE then .page else .fault) }

/-- A fault of a uniform word: the whole entry parks, or the stream. -/
def State.raiseUniform (s : State) (w : Who) (e : Entry) (kind detail addr : Nat) : State :=
  match w with
  | .gang h g => s.raise h g (.uniform kind e.pc e.mask detail addr) e
  | .stream k i => s.raiseStream k i true e.pc kind detail addr

/-- Raises ILLEGAL of a gang's entry or of a stream (03 R58). -/
def State.illegal (s : State) (w : Who) (e : Entry) (uniform : Bool) (cause word : Nat) : State :=
  match w with
  | .gang h g => s.raiseIllegal h g e uniform cause word
  | .stream k i => s.raiseStream k i uniform e.pc kILLEGAL (cause + 256 * s.mapOf (s.gangOf (.stream k i)).1) word

/-- A stream stands at its next word, or past the end of a full segment (03 R61). -/
def State.streamNext (s : State) (k i : Nat) (pc : Word) : State :=
  if pc.toNat % 8192 = 0x1FFC then
    match s.stream k i with
    | none => s
    | some x =>
      if (s.gang x.h x.g).record.busy then s.modStream k i fun y => { y with pc := pc, st := .parked .pastEnd }
      else
        (s.writeRecord x.h x.g (s.recordOf x.h x.g (s.pastEndInfo x.h true pc 0))).modStream k i fun y =>
          { y with pc := pc, st := .parked .fault }
  else s.modStream k i fun x => { x with pc := pc + 4, st := .ready }

/-- A gang or stream moves to the next word, or past the end of a full segment (03 R61). -/
def State.nextWord (s : State) (w : Who) (e : Entry) : State :=
  match w with
  | .gang h g => s.advance h g e e.mask
  | .stream k i => s.streamNext k i e.pc

/-- Runs a uniform word under its guard (03 R44): a false guard only moves on. The guard is read once, at issue: a word that has issued
and goes on reads it no more. -/
def State.uniform (c : BitVec 3) (s : State) (k : Who → Entry → State → State) : Out :=
  s.issuingAny fun w e s => if e.st.issued || s.cbit w c.toNat then k w e s else s.nextWord w e

/-- A uniform word that only a gang issues. -/
def State.uniformGang (c : BitVec 3) (s : State) (k : Nat → Nat → Entry → State → State) : Out :=
  s.issuing fun h g e s => if e.st.issued || s.cbit (.gang h g) c.toNat then k h g e s else s.advance h g e e.mask

/-- An event of the device: changes nothing where it is not enabled (log 12). -/
def event (o : Option State) (s : State) : Out :=
  match o with
  | some t => .next t
  | none => .next s

end Sys2Proof.Machine
end

