-- ==== Sys2Proof/Machine/Special.lean ====
section
/-!
DEFINITION. The special-function unit (06 R123, R124): the special values and exact cases, and for every other operand
the free value of Config held to the bound of Table 6-6. The bound is measured against a reference in fixed point with
256 fraction bits, whose error is below the distance of every inexact result from a binary32 number; where the result lies closer than
that to the operand (TANH near 0) or to 1 (COS near 0), the reference is a value just below it.
-/
namespace Sys2Proof.Machine

/-- Fraction bits of the reference arithmetic. -/
def fxP : Nat := 256

/-- 1.0. -/
def fxOne : Int := 2 ^ fxP

/-- ln 2. -/
def fxLn2 : Int := 0xb17217f7d1cf79abc9e3b39803f2f6af40f343267298b62d8a0d175b8baafa2b

/-- Pi with 448 fraction bits, enough to reduce every binary32 argument. -/
def pi448 : Int := 0x3243f6a8885a308d313198a2e03707344a4093822299f31d0082efa98ec4e6c89452821e638d01377be5466cf34e90c6cc0ac29b7c97c50dd

/-- Product in fixed point. -/
def fxMul (a b : Int) : Int := a * b / fxOne

/-- Sum of the terms of a power series in `x`: term k+1 is term k times `x` divided by `d k`. -/
def fxSeries (x : Int) (d : Nat → Int) (k : Nat) (term acc : Int) (fuel : Nat) : Int :=
  match fuel with
  | 0 => acc
  | fuel + 1 => fxSeries x d (k + 1) (fxMul term x / d k) (acc + fxMul term x / d k) fuel

/-- e^t for |t| below 1. -/
def fxExp (t : Int) : Int := fxSeries t (fun k => k + 1) 0 fxOne fxOne 60

/-- Odd terms z^(2k+1) / (2k+1). -/
def fxAtanh (z2 : Int) (k : Nat) (pw acc : Int) (fuel : Nat) : Int :=
  match fuel with
  | 0 => acc
  | fuel + 1 => fxAtanh z2 (k + 1) (fxMul pw z2) (acc + pw / (2 * k + 1)) fuel

/-- ln v for v in [1, 2). -/
def fxLn (v : Int) : Int :=
  let z := (v - fxOne) * fxOne / (v + fxOne)
  2 * fxAtanh (fxMul z z) 0 z 0 90

/-- sin r for |r| at most pi. -/
def fxSin (r : Int) : Int := fxSeries (-(fxMul r r)) (fun k => (2 * k + 2) * (2 * k + 3)) 0 r r 64

/-- cos r for |r| at most pi. -/
def fxCos (r : Int) : Int := fxSeries (-(fxMul r r)) (fun k => (2 * k + 1) * (2 * k + 2)) 0 fxOne fxOne 64

/-- Integer square root by bits. -/
def isqrt (n : Nat) (bit acc : Nat) (fuel : Nat) : Nat :=
  match fuel with
  | 0 => acc
  | fuel + 1 =>
    let t := acc + bit
    isqrt n (bit / 2) (if t * t ≤ n then t else acc) fuel

/-- m * 2^e in fixed point, rounded down. -/
def fxOfDyadic (m : Int) (e : Int) : Int :=
  let k := e + fxP
  if 0 ≤ k then m * 2 ^ k.toNat else m / 2 ^ (-k).toNat

/-- 2^x for an exact x: a mantissa in fixed point and an exponent, held to 2000 either way (far past overflow and underflow). -/
def refExp2 (x e : Int) : Int × Int :=
  let v := fxOfDyadic x e
  let n := v / fxOne
  (fxExp (fxMul (v - n * fxOne) fxLn2), (if 2000 < n then 2000 else if n < -2000 then -2000 else n) - fxP)

/-- log2 of m * 2^e, m positive. -/
def refLog2 (m : Nat) (e : Int) : Int :=
  let l := Nat.log2 m
  fxLn (fxOfDyadic m (-(l : Int))) * fxOne / fxLn2 + (e + l) * fxOne

/-- The argument reduced to [-pi, pi). -/
def refReduce (x e : Int) : Int :=
  let v := if 0 ≤ e + 448 then x * 2 ^ (e + 448).toNat else x / 2 ^ (-(e + 448)).toNat
  ((v + pi448) % (2 * pi448) - pi448) / 2 ^ (448 - fxP)

/-- A sine or cosine lies in [-1, 1]. -/
def fxUnit (v : Int) : Int := if v < -fxOne then -fxOne else if fxOne < v then fxOne else v

/-- The special-function opcodes. -/
inductive SfuOp
  | rcp
  | rsq
  | exp2
  | log2
  | sin
  | cos
  | tanh
  deriving DecidableEq, Repr

/-- The opcode (06 Table 6-6). -/
def SfuOp.code (o : SfuOp) : Nat :=
  match o with
  | .rcp => 0x110
  | .rsq => 0x111
  | .exp2 => 0x112
  | .log2 => 0x113
  | .sin => 0x114
  | .cos => 0x115
  | .tanh => 0x116

/-- A value just below m * 2^e. -/
def justBelow (neg : Bool) (m : Nat) (e : Int) : Int × Int := (signed neg (m * 2 ^ fxP - 1), e - fxP)

/-- The reference value of f(x) for a finite nonzero operand, as a dyadic number; tanh x stays below x and below 1, cos x below 1. -/
def SfuOp.ref (o : SfuOp) (neg : Bool) (m : Nat) (e : Int) : Int × Int :=
  match o with
  | .rcp => (signed neg (2 ^ fxP / m), -e - fxP)
  | .rsq =>
    let m' := if e % 2 = 0 then m else 2 * m
    let e' := if e % 2 = 0 then e else e - 1
    ((isqrt (2 ^ (2 * fxP) / m') (2 ^ fxP) 0 (fxP + 1) : Nat), -(e' / 2) - fxP)
  | .exp2 => refExp2 (signed neg m) e
  | .log2 => (refLog2 m e, -fxP)
  | .sin => (fxUnit (fxSin (refReduce (signed neg m) e)), -fxP)
  | .cos => if e + Nat.log2 m < -60 then justBelow false 1 0 else (fxUnit (fxCos (refReduce (signed neg m) e)), -fxP)
  | .tanh =>
    let a := fxOfDyadic m e
    if e + Nat.log2 m < -60 then justBelow neg m e
    else if 100 * fxOne < a then justBelow neg 1 0
    else
      let u := refExp2 (-(2 * a * fxOne / fxLn2)) (-fxP)
      let w := fxOfDyadic u.1 u.2
      let t := max 0 (min ((fxOne - w) * fxOne / (fxOne + w)) (fxOne - 1))
      (if neg then -t else t, -fxP)

/-- Whether f(x) is a binary32 number that the unit returns exactly (06 R124): its dyadic value. -/
def SfuOp.exact (o : SfuOp) (neg : Bool) (m : Nat) (e : Int) : Option (Int × Int) :=
  let pow2 := m = 2 ^ Nat.log2 m
  let k := e + Nat.log2 m
  match o with
  | .rcp => if pow2 && decide (-127 ≤ k) && decide (k ≤ 149) then some (signed neg 1, -k) else none
  | .rsq => if pow2 && k % 2 = 0 then some (1, -(k / 2)) else none
  | .exp2 =>
    let v := if 0 ≤ e then signed neg m * 2 ^ e.toNat else signed neg m / 2 ^ (-e).toNat
    if (0 ≤ e ∨ m % 2 ^ (-e).toNat = 0) ∧ -149 ≤ v ∧ v ≤ 127 then some (1, v) else none
  | .log2 => if pow2 then some (k, 0) else none
  | .sin => none
  | .cos => none
  | .tanh => none

/-- The bound of 06 Table 6-6, against a reference r * 2^e: ulps of the reference, or 2^-22; one part in 2^100 of the bound is kept for the reference's own error (log 5). -/
def SfuOp.within (o : SfuOp) (y : FVal) (r e : Int) : Bool :=
  match y with
  | .fin n m ey =>
    let d := dyAdd (signed n m) ey (-r) e
    let top : Int := e + Nat.log2 r.natAbs
    let ulp : Int := (if top < -126 then -126 else top) - 23
    let ulps : Int := match o with
      | .rcp => 1
      | .sin => 0
      | .cos => 0
      | _ => 2
    let bound : Int × Int := match o with
      | .sin => (1, -22)
      | .cos => (1, -22)
      | _ => (ulps, ulp)
    let g := dyAdd (bound.1 * (2 ^ 100 - 1)) (bound.2 - 100) (-(d.1.natAbs : Int)) d.2
    decide (0 ≤ g.1) && (match o with
      | .tanh => decide (FVal.cmp (.fin false m ey) (.fin false 1 0) ≠ .gt)
      | _ => true)
  | _ => false

/-- Underflow, for a result that is a subnormal (06 R124). -/
def tinyFlag (z : Word) : FFlags := flagIf (decide (0 < z.toNat % 2 ^ 31) && decide (z.toNat % 2 ^ 31 < 2 ^ 23)) flUnderflow

/-- One result of the special-function unit (06 R123, R124): underflow follows the value returned (log 73). -/
def sfu (o : SfuOp) (x : Word) : Word × FFlags :=
  let nan : Word × FFlags := (0x7FC00000, flInvalid)
  let one : Word := 0x3F800000
  let inf (n : Bool) : Word := if n then 0xFF800000 else 0x7F800000
  let zero (n : Bool) : Word := if n then 0x80000000 else 0
  match fmtF32.value x.toNat with
  | .nan s => (0x7FC00000, flagIf s flInvalid)
  | .inf n =>
    match o with
    | .rcp => (zero n, 0)
    | .rsq => if n then nan else (0, 0)
    | .exp2 => (if n then 0 else inf false, 0)
    | .log2 => if n then nan else (inf false, 0)
    | .sin => nan
    | .cos => nan
    | .tanh => (if n then 0xBF800000 else one, 0)
  | .fin n m e =>
    if m = 0 then
      match o with
      | .rcp => (inf n, flDivZero)
      | .rsq => (inf n, flDivZero)
      | .exp2 => (one, 0)
      | .log2 => (inf true, flDivZero)
      | .sin => (zero n, 0)
      | .cos => (one, 0)
      | .tanh => (zero n, 0)
    else if n && (o == .rsq || o == .log2) then nan
    else
      match o.exact n m e with
      | some (v, k) =>
        let p := FRes.word (fmtF32.rne v k false)
        (p.1, p.2 ||| tinyFlag p.1)
      | none =>
        let r := o.ref n m e
        let near := fmtF32.round .rne (decide (r.1 < 0)) r.1.natAbs r.2
        if near.beyond then (BitVec.ofNat 32 near.bits, flOverflow ||| flInexact)
        else
          let y := Config.special o.code x
          let z : Word := if o.within (fmtF32.value y.toNat) r.1 r.2 then y else BitVec.ofNat 32 near.bits
          (z, flInexact ||| flagIf (z.toNat % 2 ^ 31 == 0) flUnderflow ||| tinyFlag z)

end Sys2Proof.Machine
end

