-- ==== Sys2Proof/Machine/Flags.lean ====
section
/-!
DEFINITION. Integer results (06 Table 6-3), compare conditions (Table 6-4), the combination of a compare into a
predicate (R114), and where sticky flags are set (04 R78).
-/
namespace Sys2Proof.Machine

open Sys2Proof

/-- Shift counts are the whole value of y (06 R113). -/
def intShl (x y : Word) : Word := if 32 ≤ y.toNat then 0 else x <<< y.toNat
def intShr (x y : Word) : Word := if 32 ≤ y.toNat then 0 else x >>> y.toNat
def intSar (x y : Word) : Word :=
  if 32 ≤ y.toNat then (if x.getLsbD 31 then BitVec.allOnes 32 else 0) else x.sshiftRight y.toNat
def intMulHi (x y : Word) : Word := BitVec.ofInt 32 (x.toInt * y.toInt / 2 ^ 32)
def intMulHu (x y : Word) : Word := BitVec.ofNat 32 (x.toNat * y.toNat / 2 ^ 32)
def intMin (x y : Word) : Word := if x.toInt ≤ y.toInt then x else y
def intMax (x y : Word) : Word := if x.toInt ≤ y.toInt then y else x
def intMinu (x y : Word) : Word := if x.toNat ≤ y.toNat then x else y
def intMaxu (x y : Word) : Word := if x.toNat ≤ y.toNat then y else x
def intPopc (x : Word) : Word := (List.range 32).foldl (fun n i => if x.getLsbD i then n + 1 else n) 0
def intClz (x : Word) : Word := if x = 0 then 32 else BitVec.ofNat 32 (31 - Nat.log2 x.toNat)
def intBrev (x : Word) : Word := (List.range 32).foldl (fun r i => if x.getLsbD (31 - i) then r ||| ((1 : Word) <<< i) else r) 0
def intAddSat (x y : Word) : Word := BitVec.ofInt 32 (satInt (x.toInt + y.toInt) (-(2 ^ 31)) (2 ^ 31 - 1))

/-- Conditions of ICMP and UCMP (06 Table 6-4). -/
inductive ICond
  | eq
  | ne
  | lt
  | le
  | gt
  | ge
  | ltu
  | leu
  | gtu
  | geu
  deriving DecidableEq, Repr

/-- An integer condition. -/
def icmp (c : ICond) (x y : Word) : Bool :=
  match c with
  | .eq => x == y
  | .ne => x != y
  | .lt => decide (x.toInt < y.toInt)
  | .le => decide (x.toInt ≤ y.toInt)
  | .gt => decide (y.toInt < x.toInt)
  | .ge => decide (y.toInt ≤ x.toInt)
  | .ltu => decide (x.toNat < y.toNat)
  | .leu => decide (x.toNat ≤ y.toNat)
  | .gtu => decide (y.toNat < x.toNat)
  | .geu => decide (y.toNat ≤ x.toNat)

/-- The combine field of LC words (06 R114). -/
def combine (comb : BitVec 2) (old r : Bool) : Bool :=
  if comb = 0 then r else if comb = 1 then old && r else if comb = 2 then old || r else old ^^ r

end Sys2Proof.Machine
end

