-- ==== Sys2Proof/Machine/Operands.lean ====
section
/-!
DEFINITION. How a lane word takes its operands and gives its result: guard, queue ports, waits on empty registers,
EMPTYREAD, poison (05 R86-R90, R100-R103; 21 R380), and the masked write (R89).
-/
namespace Sys2Proof.Machine

open Sys2Proof

/-- Lanes in which a source is read other than the active ones: the lowest active lane (07 R149, 08 R172), or lanes
0-3 that hold the row addresses of TLD (08 R171). -/
inductive ReadLanes
  | lowest
  | rows
  deriving DecidableEq, Repr

/-- The lanes read. -/
def ReadLanes.of (r : ReadLanes) (act : LaneMask) : LaneMask :=
  match r with
  | .lowest => if act = 0 then 0 else laneBit (lowestLane act)
  | .rows => (lanesOf act).foldl (fun m i => m ||| laneBit (i % 4)) 0

/-- What a lane word reads and writes. `srcs` are single registers or ports with their empty action; `third` are the
further registers read in active lanes, which always wait; `more` those read in other lanes, which wait too; `dsts` the registers it writes; `push` the port in d. -/
structure LaneSpec where
  guard : Nat := 0
  srcs : List (Nat × Bool) := []
  third : List Nat := []
  more : List (Nat × ReadLanes) := []
  dsts : List Nat := []
  push : Option Nat := none
  hold : Option Nat := none
  deriving DecidableEq, Repr

/-- A lane word that has its operands: the entry and its active lanes, those that stop at it left out; `low` the lowest of the lanes that
were active at its issue (08 R172); the popped entry, the queue it pushes. -/
structure LaneCtx where
  h : Nat
  g : Nat
  e : Entry
  act : LaneMask
  low : Nat
  popped : Option QEntry
  pushQ : Option Nat
  deriving DecidableEq, Repr

/-- Whether a register field names a port (03 R46). -/
def isPort (r : Nat) : Bool := decide (28 ≤ r)

/-- The active lanes of an entry under a guard (05 R90). -/
def Gang.active (gg : Gang) (m : LaneMask) (n : Nat) : LaneMask :=
  if n = 0 then m else maskOf fun i => m.getLsbD i && (gg.thread i).pred n

/-- The queue a port is bound to: the one a blocked entry keeps, else the gang's binding (05 R105). -/
def Gang.queueOf (gg : Gang) (e : Entry) (port : Nat) : Option Nat :=
  match e.qkeep.find? fun p => p.1 == port with
  | some p => some p.2
  | none => AList.get none gg.ports (port - 28)

/-- A task's queue. -/
def Task.queue (t : Task) (q : Nat) : List QEntry := AList.get [] t.queues q
def Task.setQueue (t : Task) (q : Nat) (v : List QEntry) : Task := { t with queues := AList.set [] t.queues q v }

/-- Lanes of `m` whose register `k` is not full. -/
def Gang.notFull (D : Nat) (gg : Gang) (m : LaneMask) (k : Nat) : LaneMask :=
  maskOf fun i => m.getLsbD i && (gg.thread i).regState D k != .full

/-- Lanes of `m` whose register `k` awaits a remote local load: an interlock, never an EMPTYREAD (08 R166). -/
def Gang.interlocked (D : Nat) (gg : Gang) (m : LaneMask) (k : Nat) : LaneMask :=
  maskOf fun i => m.getLsbD i && (gg.thread i).regState D k == .interlocked

/-- Lanes of `m` whose register `k` is poisoned. -/
def Gang.poisoned (D : Nat) (gg : Gang) (m : LaneMask) (k : Nat) : LaneMask :=
  maskOf fun i => m.getLsbD i && (gg.thread i).regPoison D k

/-- The physical entries of register `k` in the lanes of `m`. -/
def Gang.physOf (D : Nat) (gg : Gang) (m : LaneMask) (k : Nat) : List (Nat × Nat) :=
  (lanesOf m).map fun i => (i, (gg.thread i).phys D k)

/-- What a word must wait for before it issues (05 R87, R88). A word waits for its destination before the empty test of a trapping
source is made; R87 and R88 do not order the two (log 79). -/
def Gang.waits (D : Nat) (gg : Gang) (act : LaneMask) (sp : LaneSpec) : List (Nat × Nat) :=
  (sp.srcs.flatMap fun p =>
    if isPort p.1 then []
    else gg.physOf D (if p.2 then gg.interlocked D act p.1 else gg.notFull D act p.1) p.1) ++
  (sp.more.flatMap fun p => if isPort p.1 then [] else gg.physOf D (gg.notFull D (p.2.of act) p.1) p.1) ++
  (sp.third ++ sp.dsts).flatMap fun k => gg.physOf D (gg.notFull D act k) k

/-- How a word waits for registers: blocked on the empty ones, and no longer than they are empty (07 Table 7-1); where the data of
remote local loads alone is missing, a stall for their latency, which lets no lower entry pass (07 R136, 08 R166). -/
def Gang.waiting (gg : Gang) (need : List (Nat × Nat)) : EState :=
  match need.filter fun p => AList.get .full (gg.thread p.1).rstate p.2 == .empty with
  | [] => .stall (.interlock need)
  | l => .emptyReg l

/-- Lanes that a trapping source finds empty (05 R87). -/
def Gang.traps (D : Nat) (gg : Gang) (act : LaneMask) (sp : LaneSpec) : LaneMask :=
  sp.srcs.foldl (fun m p => if p.2 && !isPort p.1 then m ||| gg.notFull D act p.1 else m) 0

/-- Lanes whose registers are read poisoned. -/
def Gang.poisonRead (D : Nat) (gg : Gang) (act : LaneMask) (sp : LaneSpec) : LaneMask :=
  (sp.srcs.map Prod.fst ++ sp.third).foldl (fun m k => if isPort k then m else m ||| gg.poisoned D act k) 0 |||
    (if sp.more.any fun p => !isPort p.1 && gg.poisoned D (p.2.of act) p.1 != 0 then act else 0)

/-- The port that a word pops, if any: at most one source is a port (03 R46). -/
def LaneSpec.pop (sp : LaneSpec) : Option Nat := (sp.srcs.map Prod.fst ++ sp.more.map Prod.fst).find? isPort

/-- Raises QUEUE for an unbound port (05 R107). -/
def State.raiseUnbound (s : State) (h g : Nat) (e : Entry) (port : Nat) : State :=
  s.raise h g (.lane kQUEUE e.pc e.mask (1 + 256 * (port - 28)) 0) e

/-- Whether the pop and the push can proceed (05 R102, R103: a pop precedes the push of the same queue). -/
def Task.queuesReady (t : Task) (pops pushes : List Nat) : Bool :=
  (pops.all fun q => (t.queue q) != []) &&
  (pushes.all fun q => decide ((t.queue q).length < 16) || (pops.contains q && decide ((t.queue q).length = 16)))

/-- Raises EMPTYREAD: every active lane stops at the word, the others go on (05 R87). -/
def State.raiseEmpty (s : State) (h g : Nat) (e : Entry) (act m : LaneMask) : State :=
  (s.raise h g (.lane kEMPTYREAD e.pc m 0 0) { e with mask := act }).advance h g e (e.mask &&& ~~~act)

/-- Raises POISON in the lanes of `m` that read poisoned registers (`mr`) or queue words (21 R380); the rest of the
entry goes on. -/
def State.raisePoison (s : State) (h g : Nat) (e : Entry) (m mr : LaneMask) : State :=
  s.raise h g (.lane kPOISON e.pc m (if mr.getLsbD (lowestLane m) then 3 else 4) 0) { e with mask := m }

/-- Pops the head of a queue. -/
def State.popQueue (s : State) (h : Nat) (q : Option Nat) : Option QEntry × State :=
  match q, s.task h with
  | some q, some t =>
    match t.queue q with
    | x :: rest => (some x, s.setTask h (some (t.setQueue q rest)))
    | [] => (none, s)
  | _, _ => (none, s)

/-- Keeps source a in the operand latch (05 R85). -/
def Gang.hold (gg : Gang) (r : Option Nat) (m : LaneMask) : Gang :=
  match r with
  | none => gg
  | some k => { gg with latch := (gg.latch ++ [(⟨k, m, 2⟩ : LatchEntry)]).drop (gg.latch.length - 2) }

/-- A lane word at issue: waits, blocks or faults as 05 R87-R88, R102-R103 say, else runs `k` on the lanes left. An unbound port faults
before the word waits for a register or tests one for empty (log 79). -/
def State.laneIssue (s : State) (h g : Nat) (e : Entry) (sp : LaneSpec) (k : LaneCtx → State → State) : State :=
  match s.task h with
  | none => s
  | some t =>
    let gg := t.gang g
    let D := t.variant.depth
    let act := gg.active e.mask sp.guard
    let popQ := sp.pop.map fun p => (p, gg.queueOf e p)
    let pushQ := sp.push.map fun p => (p, gg.queueOf e p)
    match popQ, pushQ with
    | some (p, none), _ => s.raiseUnbound h g e p
    | _, some (p, none) => s.raiseUnbound h g e p
    | _, _ =>
      let pops := match popQ with
        | some (_, some q) => [q]
        | _ => []
      let pushes := match pushQ with
        | some (_, some q) => [q]
        | _ => []
      let need := gg.waits D act sp
      if need ≠ [] then s.putEntry h g { e with st := gg.waiting need }
      else if !t.queuesReady pops pushes then
        s.putEntry h g { e with
          st := .queue pops pushes,
          qkeep := (sp.pop.toList.zip pops) ++ (sp.push.toList.zip pushes) }
      else
        let (x, s) := s.popQueue h pops.head?
        let empty := gg.traps D act sp
        if empty ≠ 0 then s.raiseEmpty h g e act empty
        else
          let mr := gg.poisonRead D act sp
          let mq := match x with
            | some q => if sp.more.any fun p => isPort p.1 && q.poison &&& p.2.of act != 0 then act else q.poison &&& act
            | none => 0
          let bad := mr ||| mq
          let s := s.raisePoison h g e bad mr
          let s := s.modGang h g fun gg => gg.hold sp.hold act
          k { h := h, g := g, e := { e with mask := e.mask &&& ~~~bad }, act := act &&& ~~~bad, low := lowestLane act, popped := x,
              pushQ := pushes.head? } s

/-- The value a field supplies to a lane. -/
def State.val (s : State) (c : LaneCtx) (r lane : Nat) : Word :=
  if isPort r then
    match c.popped with
    | some q => AList.get 0 q.words lane
    | none => 0
  else ((s.gang c.h c.g).thread lane).reg (s.depth c.h) r

/-- Pushes one entry: zero in the lanes that are not active (05 R102). -/
def State.pushQueue (s : State) (c : LaneCtx) (v : Nat → Word) : State :=
  match c.pushQ with
  | none => s
  | some q =>
    s.modTask c.h fun t =>
      t.setQueue q (t.queue q ++
        [{ words := (lanesOf c.act).foldl (fun a i => AList.set 0 a i (v i)) [], poison := 0 }])

/-- Writes d of the active lanes, or pushes (05 R89, R102). -/
def State.laneWrite (s : State) (c : LaneCtx) (d : Nat) (v : Nat → Word) : State :=
  if isPort d then s.pushQueue c v
  else s.modGang c.h c.g fun gg => gg.writeReg (s.depth c.h) c.act d v

/-- The whole entry goes on to the next word. -/
def State.laneDone (s : State) (c : LaneCtx) : State := s.advance c.h c.g c.e c.e.mask

/-- Writes a result without flags and goes on. -/
def State.laneResult (s : State) (c : LaneCtx) (d : Nat) (v : Nat → Word) : State := (s.laneWrite c d v).laneDone c

/-- Writes a floating-point result and its flags, and goes on. -/
def State.laneFloat (s : State) (c : LaneCtx) (d : Nat) (v : Nat → Word × FFlags) : State :=
  ((s.laneWrite c d fun i => (v i).1).modGang c.h c.g fun gg => gg.orFlags c.act fun i => (v i).2).laneDone c

/-- Combines a truth value into pd of the active lanes, sets flags, and goes on (06 R114, R117). -/
def State.lanePred (s : State) (c : LaneCtx) (pd : BitVec 3) (comb : BitVec 2) (r : Nat → Bool × FFlags) : State :=
  (s.modGang c.h c.g fun gg =>
    gg.modLanes (lanesOf c.act) fun i t =>
      { t.setPred pd.toNat (combine comb (t.pred pd.toNat) (r i).1) with fpflags := t.fpflags ||| (r i).2 }).laneDone c

/-- Runs a lane word of a gang. -/
def State.lane (s : State) (sp : LaneSpec) (k : LaneCtx → State → State) : Out :=
  s.issuing fun h g e s => s.laneIssue h g e sp k

/-- What d of an LR or LI word does: a register is a destination, a port is pushed. -/
def dstOf (d : BitVec 5) : List Nat := if isPort d.toNat then [] else [d.toNat]
def pushOf (d : BitVec 5) : Option Nat := if isPort d.toNat then some d.toNat else none

/-- Operands of an LR word with two sources. -/
def specLR (w : LR) (readsD guarded : Bool) : LaneSpec :=
  { guard := if guarded then w.g.toNat else 0, srcs := [(w.a.toNat, w.ea), (w.b.toNat, w.eb)],
    third := if readsD then [w.d.toNat] else [], dsts := dstOf w.d, push := pushOf w.d,
    hold := if w.h then some w.a.toNat else none }

/-- Operands of an LR word with one source. -/
def specLRA (w : LRA) : LaneSpec :=
  { guard := w.g.toNat, srcs := [(w.a.toNat, w.ea)], dsts := dstOf w.d, push := pushOf w.d,
    hold := if w.h then some w.a.toNat else none }

/-- Operands of a compare. -/
def specLC (w : LC) : LaneSpec :=
  { guard := w.g.toNat, srcs := [(w.a.toNat, w.ea), (w.b.toNat, w.eb)], hold := if w.h then some w.a.toNat else none }

/-- Operands of an LI word. -/
def specLI (w : LI) : LaneSpec :=
  { guard := w.g.toNat, srcs := [(w.a.toNat, false)], dsts := dstOf w.d, push := pushOf w.d }

/-- An integer operation of two or three operands. -/
def intWord (w : LR) (readsD : Bool) (f : Word → Word → Word → Word) (s : State) : Out :=
  s.lane (specLR w readsD true) fun c s =>
    s.laneResult c w.d.toNat fun i => f (s.val c w.a.toNat i) (s.val c w.b.toNat i) (s.val c w.d.toNat i)

/-- An integer operation of one operand. -/
def intWord1 (w : LRA) (f : Word → Word) (s : State) : Out :=
  s.lane (specLRA w) fun c s => s.laneResult c w.d.toNat fun i => f (s.val c w.a.toNat i)

/-- An integer operation with an immediate (06 R118). -/
def immWord (w : LI) (f : Word → Word → Word) (s : State) : Out :=
  s.lane (specLI w) fun c s => s.laneResult c w.d.toNat fun i => f (s.val c w.a.toNat i) (w.imm.signExtend 32)

/-- A shift by an immediate count. -/
def shiftWord (w : LI5) (f : Word → Word → Word) (s : State) : Out :=
  s.lane { guard := w.g.toNat, srcs := [(w.a.toNat, false)], dsts := dstOf w.d, push := pushOf w.d } fun c s =>
    s.laneResult c w.d.toNat fun i => f (s.val c w.a.toNat i) (w.imm.setWidth 32)

/-- A compare. -/
def cmpWord (w : LC) (f : Word → Word → Bool × FFlags) (s : State) : Out :=
  s.lane (specLC w) fun c s => s.lanePred c w.pd w.comb fun i => f (s.val c w.a.toNat i) (s.val c w.b.toNat i)

/-- A floating-point operation of two or three operands. -/
def floatWord (w : LR) (readsD : Bool) (f : Word → Word → Word → Word × FFlags) (s : State) : Out :=
  s.lane (specLR w readsD true) fun c s =>
    s.laneFloat c w.d.toNat fun i => f (s.val c w.a.toNat i) (s.val c w.b.toNat i) (s.val c w.d.toNat i)

/-- A floating-point operation of one operand. -/
def floatWord1 (w : LRA) (f : Word → Word × FFlags) (s : State) : Out :=
  s.lane (specLRA w) fun c s => s.laneFloat c w.d.toNat fun i => f (s.val c w.a.toNat i)

/-- A predicate operation (06 R116). -/
def predWord (pd : BitVec 3) (comb : BitVec 2) (g : BitVec 3) (f : Thread → Bool) (s : State) : Out :=
  s.lane { guard := g.toNat } fun c s =>
    s.lanePred c pd comb fun i => (f ((s.gang c.h c.g).thread i), 0)

end Sys2Proof.Machine
end

