-- ==== Sys2Proof/Machine/Ordering.lean ====
section
/-!
DEFINITION. Releases and acquires (10 R215-R222), what a pending one holds back, and the delivery of deferred store
faults (09 R200).

An access in flight carries an operation id that rises with issue; a release or acquire waits for ids below the one
that stood when it issued.
-/
namespace Sys2Proof.Machine

open Sys2Proof

/-- The core whose store queue takes a writer's stores; a matrix control core counts as one of its own. -/
def coreOf (w : Who) : Nat :=
  match w with
  | .gang h _ => hCore h
  | .stream k _ => 1024 + k

/-- The die of a writer. -/
def Who.die (w : Who) : Nat :=
  match w with
  | .gang h _ => hDie h
  | .stream k _ => k / 8

/-- Every earlier load of the agent has landed (10 R216, R217): global, uniform and remote local loads, units among them (08 R168). -/
def State.loadsLanded (s : State) (o : Owner) (upto : Nat) : Bool :=
  (s.loads.all fun x => !(x.owner == o && decide (x.id < upto) && x.lanes.any fun l => !l.landed)) &&
  (s.remotes.all fun x => !(x.owner == o && decide (x.id < upto) && (match x.kind with
    | .load _ => x.lanes.any fun l => decide (l.stage < 2)
    | .latom _ => x.lanes.any fun l => decide (l.stage < 2)
    | .block _ => x.lanes.any fun l => decide (l.stage < 2)
    | .store => false)))

/-- Whether an order at a scope covers a local address of another core: space 1 from die scope on, space 2 from cluster scope on
(08 R168). -/
def coversRemote (scope addr : Nat) : Bool := decide (addr / 2 ^ 28 ≠ 1) || decide (4 ≤ scope)

/-- Remote scratchpad accesses of the agent that a scope covers are accepted at their destinations (10 Table 10-2). -/
def State.remotesAccepted (s : State) (o : Owner) (scope upto : Nat) : Bool :=
  s.remotes.all fun x => !(x.owner == o && decide (x.id < upto) &&
    x.lanes.any fun l => decide (l.stage = 0) && coversRemote scope l.addr)

/-- Every write a core accepted earlier is at the die point (an atomic: has executed). -/
def State.writesAtDie (s : State) (core upto : Nat) : Bool :=
  (s.writes.all fun x => !(x.core == core && decide (x.id < upto) && x.lanes.any fun l => decide (l.stage = 0))) &&
  (s.atoms.all fun x => !(x.core == core && decide (x.id < upto) && x.lanes.any fun l => decide (l.stage = 0)))

/-- Every write a core accepted earlier is acknowledged at its home, and every word dirty in its die's LLC by then. -/
def State.writesAtHome (s : State) (core die upto : Nat) : Bool :=
  s.writes.all fun x => x.acked ||
    (!(x.core == core && decide (x.id < upto)) &&
      !(x.die == die && x.lanes.any fun l => decide (1 ≤ l.stage) && decide (l.mode ≠ 2) && decide (l.seq < upto)))

/-- What a release of a core waits for beyond the agent's loads (10 Table 10-2). A write that is only queued at the core point or the
die point (R212) counts as visible there: every read of its core, or of its die, waits for it (`State.readable`). -/
def State.writesVisible (s : State) (o : Owner) (core die scope upto : Nat) : Bool :=
  decide (scope ≤ 2) ||
    (s.writesAtDie core upto && s.remotesAccepted o scope upto && (decide (scope ≤ 4) || s.writesAtHome core die upto))

/-- Whether a release has completed (10 Table 10-2). -/
def State.releaseDone (s : State) (w : Who) (scope upto : Nat) : Bool :=
  s.loadsLanded w.owner upto && s.writesVisible w.owner (coreOf w) w.die scope upto

/-- Whether the release of an arrival at a barrier has completed: a stream that takes part in the phase sees every local write of
the arriving gang (16 R323), those to other cores among them (log 62). -/
def State.arrivalDone (s : State) (w : Who) (scope upto : Nat) : Bool :=
  s.releaseDone w scope upto && s.remotesAccepted w.owner 4 upto

/-- Whether a store lane is visible at a scope's point; reads there wait for a write that is only queued (R212). -/
def WriteLane.visibleAt (scope : Nat) (l : WriteLane) : Bool :=
  decide (scope ≤ 2) || (decide (1 ≤ l.stage) && (decide (scope ≤ 4) || decide (l.stage = 2)))

/-- Whether the ordered stores and atomics that an agent issued before an ordered access have taken effect, as far as the two
scopes overlap (10 R221). -/
def State.orderedBefore (s : State) (o : Owner) (id scope : Nat) : Bool :=
  (s.writes.all fun w => !(w.owner == o && decide (w.id < id)) ||
    (match w.ordered with
      | none => true
      | some sc => w.lanes.all (WriteLane.visibleAt (if sc < scope then sc else scope)))) &&
  (s.atoms.all fun x => !(x.owner == o && decide (x.id < id) && x.ordered) || x.lanes.all fun l => decide (l.stage ≠ 0))

/-- Clean words of a guest line are dropped; dirty words stay (10 Table 10-3). -/
def dropClean (l : List GuestLine) : List GuestLine :=
  (l.map fun x => { x with valid := x.valid &&& x.dirty }).filter fun x => x.valid != 0 || x.dirty != 0

/-- What an acquire discards (10 Table 10-3). -/
def State.discard (s : State) (core die scope : Nat) : State :=
  let s := if 3 ≤ scope then s.modCore core fun c => { c with l1 := [] } else s
  if 5 ≤ scope then s.modDie die fun d => { d with guest := dropClean d.guest } else s

/-- A pending release or acquire of an entry. -/
def EState.orders (st : EState) : Bool :=
  match st with
  | .stall (.release _ _ _) => true
  | .stall (.publish _ _ _ _) => true
  | .stall (.free _ _ _ _) => true
  | .stall (.call _ _ _) => true
  | .stall (.returned _) => true
  | .stall (.acquire _ _) => true
  | .stall (.full _ _) => true
  | .stall (.arrive _ _ _) => true
  | .stall (.notice _ _ _) => true
  | .stall (.launch _ _) => true
  | .stall (.mstart _ _) => true
  | _ => false

/-- Whether a pending release, acquire or ordered access holds back the agent's later accesses (10 R216, R217), or a page table in
self-refresh every translation (23 R397). -/
def State.heldBack (s : State) (w : Who) : Bool :=
  (match w with
    | .gang h g => (s.gang h g).frontier.any fun e => e.st.orders
    | .stream _ _ => false) ||
  (s.loads.any fun x => x.owner == w.owner && x.acq.isSome) ||
  (s.atoms.any fun x => x.owner == w.owner && x.acq) || (s.asleepTable (s.ctxOf (s.gangOf w).1)).isSome

/-- A pending release with its bound at `n`. -/
def EState.boundAt (n : Nat) (st : EState) : EState :=
  match st with
  | .stall (.release scope _ base) => .stall (.release scope n base)
  | .stall (.publish ring arg scope _) => .stall (.publish ring arg scope n)
  | .stall (.free ring arg scope _) => .stall (.free ring arg scope n)
  | .stall (.call arg regs _) => .stall (.call arg regs n)
  | .stall (.full scope _) => .stall (.full scope n)
  | .stall (.arrive b scope _) => .stall (.arrive b scope n)
  | .stall (.notice v scope _) => .stall (.notice v scope n)
  | .stall (.launch p _) => .stall (.launch p n)
  | .stall (.mstart m _) => .stall (.mstart m n)
  | _ => st

/-- An agent that has read a word orders what it read before its pending releases too (10 R218, R219): they wait for every write that is
under way by now. -/
def State.observe (s : State) (o : Owner) : State :=
  match o with
  | .gang h g => s.modGang h g fun gg => { gg with frontier := gg.frontier.map fun e => { e with st := e.st.boundAt s.nextId } }
  | _ => s

/-- The operation id that bounds what an ordered word waits for: that of its first issue, raised as its agent's loads land. -/
def State.upto (s : State) (e : Entry) : Nat :=
  match e.st with
  | .stall (.release _ n _) => n
  | .stall (.publish _ _ _ n) => n
  | .stall (.free _ _ _ n) => n
  | .stall (.call _ _ n) => n
  | .stall (.returned n) => n
  | .stall (.acquire _ n) => n
  | .stall (.full _ n) => n
  | .stall (.arrive _ _ n) => n
  | .stall (.notice _ _ n) => n
  | .stall (.launch _ n) => n
  | .stall (.joined _ _ n) => n
  | .stall (.mstart _ n) => n
  | _ => s.nextId

/-- A word that accesses memory or a unit waits while it is held back, else runs. -/
def State.gate (s : State) (w : Who) (e : Entry) (k : State → State) : State :=
  if s.heldBack w then
    s.stayAt w e (.stall (match s.asleepTable (s.ctxOf (s.gangOf w).1) with
      | some pa => .asleep pa
      | none => .held))
  else k s

/-- The address pair of a word that releases first: as its entry read it at issue (05 R91). -/
def State.baseOf (s : State) (w : Who) (e : Entry) (sb : Nat) : Nat :=
  match e.st with
  | .stall (.release _ _ base) => base
  | _ => s.spair w sb

/-- A release, then the rest of the word (10 R216); `base` is the address pair that the word read at issue. -/
def State.release (s : State) (w : Who) (e : Entry) (scope base : Nat) (k : State → State) : State :=
  if s.releaseDone w scope (s.upto e) then k s else s.stayAt w e (.stall (.release scope (s.upto e) base))

/-- Takes the DEFERRED record of a gang's undelivered denials (09 R200, Table 9-6). -/
def deferredInfo (l : List Denial) : FaultInfo :=
  match l with
  | [] => .lane kDEFERRED 0 0 0 0
  | d :: _ =>
    .lane kDEFERRED (if d.tagged then d.pc else BitVec.allOnes 32) (if d.tagged then d.mask else 0)
      (d.cause + 256 * (l.length % 65536) + (if l.any fun x => !x.tagged then 2 ^ 24 else 0)) d.addr

/-- Delivers deferred store faults at a word, or completes it: with none to deliver the entry goes on; else it stands
at the word until the record is disposed of (09 R200). -/
def State.deliver (s : State) (h g : Nat) (e : Entry) (uniform : Bool) : State :=
  let l := (s.gang h g).denials
  if l = [] then s.advance h g e e.mask
  else if (s.gang h g).record.busy then s.putEntry h g { e with st := .parked .noRecord }
  else
    (s.modGang h g fun gg => { gg with denials := [] }).raise h g
      { deferredInfo l with flags := if uniform then 4 else 0 } e

/-- Whether a FENCE of a kind may complete: 0 full, 1 acquire, 2 release (10 R220). -/
def State.fenceReady (s : State) (w : Who) (kind scope upto : Nat) : Bool :=
  (decide (kind = 1) || s.releaseDone w scope upto) &&
  (decide (kind = 2) || s.loadsLanded w.owner upto) &&
  (decide (kind ≠ 0) || s.writesVisible w.owner (coreOf w) w.die scope upto)

/-- Whether every earlier word of a stream has completed: its matrix words, its UST acknowledged, its BARREM acknowledged
(16 R321, 10 Table 10-4). -/
def State.streamDrained (s : State) (w : Who) : Bool :=
  match w with
  | .gang _ _ => true
  | .stream k i =>
    (((s.cluster k).arrayQ ++ (s.cluster k).postQ).all fun x => x.stream != i) &&
      (s.writes.all fun x => x.owner != .stream k i || x.acked) && (s.notices.all fun x => x.owner != .stream k i)

/-- FENCE (10 R220). -/
def fenceWord (w : LFence) (kind : Nat) (s : State) : Out :=
  s.lane { guard := w.g.toNat } fun c s =>
    if c.act = 0 then s.laneDone c
    else
      let scope := w.scope.toNat
      let who := Who.gang c.h c.g
      let upto := s.upto c.e
      if s.fenceReady who kind scope upto then
        let s := if kind = 2 then s else s.discard (hCore c.h) (hDie c.h) scope
        s.deliver c.h c.g c.e false
      else
        s.stayAt who c.e (.stall (if kind = 0 then .full scope upto else if kind = 1 then .acquire scope upto
          else .release scope upto 0))

/-- FENCE, full. -/
def execFence (w : LFence) (s : State) : Out := fenceWord w 0 s

/-- FENCE.ACQ. -/
def execFenceAcq (w : LFence) (s : State) : Out := fenceWord w 1 s

/-- FENCE.REL. -/
def execFenceRel (w : LFence) (s : State) : Out := fenceWord w 2 s

/-- An entry whose barrier phase completed returns: an acquire at the scope, then the next word (07 R154, R155;
15 R302). It waits for the gang's earlier loads. -/
def State.acquireReturn (s : State) (h g : Nat) (e : Entry) (scope : Nat) : State :=
  let upto := s.upto e
  if s.loadsLanded (.gang h g) upto then (s.discard (hCore h) (hDie h) scope).advance h g e e.mask
  else s.putEntry h g { e with st := .stall (.acquire scope upto) }

/-- Counter of a class (03 R48). -/
def Counters.get (c : Counters) (cls : Nat) : Nat :=
  match cls with
  | 0 => c.ld
  | 1 => c.st
  | 2 => c.bt
  | 3 => c.bk
  | _ => c.rg

/-- Changes a counter. -/
def Counters.map (c : Counters) (cls : Nat) (f : Nat → Nat) : Counters :=
  match cls with
  | 0 => { c with ld := f c.ld }
  | 1 => { c with st := f c.st }
  | 2 => { c with bt := f c.bt }
  | 3 => { c with bk := f c.bk }
  | _ => { c with rg := f c.rg }

/-- A class count of a gang or stream. -/
def State.count (s : State) (w : Who) (cls : Nat) : Nat :=
  match w with
  | .gang h g => (s.gang h g).counters.get cls
  | .stream k i =>
    match s.stream k i with
    | none => 0
    | some x => x.counters.get cls

/-- Changes a class count. -/
def State.addCount (s : State) (w : Who) (cls : Nat) (f : Nat → Nat) : State :=
  match w with
  | .gang h g => s.modGang h g fun gg => { gg with counters := gg.counters.map cls f }
  | .stream k i => s.modStream k i fun x => { x with counters := x.counters.map cls f }

/-- A word that releases before it counts issues only while the count is below 63 (10 R226). -/
def State.hasCount (s : State) (w : Who) (e : Entry) (cls : Nat) (k : State → State) : State :=
  if !e.st.issued && decide (63 ≤ s.count w cls) then s.stayAt w e (.stall (.counter cls)) else k s

/-- A word that counts in a class issues only while the count is below 63 (10 R226). -/
def State.counted (s : State) (w : Who) (e : Entry) (cls : Nat) (k : State → State) : State :=
  if 63 ≤ s.count w cls then s.stayAt w e (.stall (.counter cls)) else k (s.addCount w cls (· + 1))

/-- Lowers the count of an access's owner. -/
def State.uncount (s : State) (o : Owner) (cls : Nat) : State :=
  match o with
  | .gang h g => s.addCount (.gang h g) cls (· - 1)
  | .stream k i => s.addCount (.stream k i) cls (· - 1)
  | .engine => s

/-- WAITC (10 R227, R228): waits for the count; of BT, BK or RG with n = 0 it is an acquire at die scope; of ST it
delivers deferred store faults. -/
def execWaitc (w : UWaitc) (s : State) : Out :=
  s.uniform w.c fun who e s =>
    let cls := w.cls.toNat
    if s.count who cls ≤ w.n.toNat ∨ e.st.orders then
      match who with
      | .gang h g =>
        if 2 ≤ cls ∧ w.n = 0 then s.acquireReturn h g e 4
        else if cls = 1 then s.deliver h g e true
        else s.nextWord who e
      | .stream k _ => (if 2 ≤ cls ∧ w.n = 0 then s.discard (1024 + k) (k / 8) 4 else s).nextWord who e
    else s.stayAt who e (.stall (.waitc cls w.n.toNat))

end Sys2Proof.Machine
end

