-- ==== Sys2Proof/Machine/Translate.lean ====
section
/-!
DEFINITION. Addresses, page tables, the cluster TLB, the checks of an access (09 R179-R191).
-/
namespace Sys2Proof.Machine

open Sys2Proof

/-- Bits 63-56 all equal bit 55 (09 R179). -/
def canonical (va : Nat) : Bool := decide (va / 2 ^ 55 = 0) || decide (va / 2 ^ 55 = 511)

/-- Populated bytes of a home (09 Table 9-1); homes 17-31 have none. -/
def populated (home : Nat) : Nat :=
  if home < 4 then 192000000000
  else if home < 8 then 32 * 2 ^ 20
  else if home < 16 then (if 768000000000 < Config.cxlBytes home then 768000000000 else Config.cxlBytes home)
  else if home = 16 then 2 ^ 47
  else 0

/-- Whether `n` bytes at a physical address lie in a home's populated range (09 R180). -/
def inHome (pa n : Nat) : Bool := decide (homeOff pa + n ≤ populated (homeOf pa))

/-! ## Page-table entries (09 R182-R185) -/

def pteR (e : Nat) : Bool := e.testBit 2
def pteW (e : Nat) : Bool := e.testBit 3
def pteSize (e : Nat) : Nat := bits e 7 4
def pteAp (e : Nat) : Nat := bits e 9 8
def pteMt (e : Nat) : Nat := bits e 11 10
def pteMig (e : Nat) : Bool := e.testBit 52
def pteA (e : Nat) : Bool := e.testBit 53
def pteD (e : Nat) : Bool := e.testBit 54

/-- A home in which a table may lie (09 R182). -/
def tableHome (home : Nat) : Bool := decide (home ≤ 3) || (decide (8 ≤ home) && decide (home ≤ 16))

/-- A well-formed table pointer names such a home. -/
def pointerOk (e : Nat) : Bool := tableHome (pteFrame e / 2 ^ 35)

/-- A well-formed leaf of a level (09 R183, R185). -/
def leafOk (level e : Nat) : Bool :=
  (if level = 0 then decide (pteSize e ≤ 8) else decide (9 ≤ pteSize e)) &&
  decide (pteFrame e % 2 ^ pteSize e = 0) && decide (pteMt e ≠ 3) &&
  !(decide (17 ≤ pteFrame e / 2 ^ 35) && decide (pteFrame e / 2 ^ 35 ≤ 30))

/-- A walk's end: a leaf and the slot that held it, or PAGE with cause and level. -/
inductive Walk
  | leaf (e slot : Nat)
  | page (cause level : Nat)
  deriving DecidableEq, Repr

/-- The bits of an address that index a level's table. -/
def levelIndex (va level : Nat) : Nat := bits va (20 + 9 * level) (12 + 9 * level)

/-- Walks from the table at `table` down from a level. -/
def walkFrom (m : Memory) (va table : Nat) (level : Nat) : Walk :=
  let slot := table + 8 * levelIndex va level
  let e := Memory.readNat m slot 8
  if !pteV e then .page 1 level
  else
    match level with
    | 0 => if pteT e || !leafOk 0 e then .page 2 0 else .leaf e slot
    | n + 1 =>
      if pteT e then (if pointerOk e then walkFrom m va (pteFrame e * 4096) n else .page 2 (n + 1))
      else if n = 0 && leafOk 1 e then .leaf e slot
      else .page 2 (n + 1)

/-- The root entry of an address (09 R182). -/
def rootEntry (d : ContextDesc) (va : Nat) : Nat := AList.get 0 d.roots (bits va 55 48)

/-- The walk of 09 R185. -/
def State.walk (s : State) (ctx va : Nat) : Walk :=
  match s.context ctx with
  | none => .page 1 3
  | some c =>
    let r := rootEntry c.desc va
    if r = 0 then .page 1 3
    else if r % 4096 ≠ 0 ∨ 2 ^ 52 ≤ r ∨ !tableHome (homeOf r) then .page 2 3
    else walkFrom s.mem va r 3

/-- Bytes of a page. -/
def pageBytes (e : Nat) : Nat := 4096 * 2 ^ pteSize e

/-- The 56 significant bits. -/
def sigVa (va : Nat) : Nat := va % 2 ^ 56

/-- The physical address of a virtual one under a leaf. -/
def leafPa (e va : Nat) : Nat := pteFrame e * 4096 + sigVa va % pageBytes e

/-- The physical address that the page tables give a virtual one; 0 where they give none. -/
def State.walkPa (s : State) (ctx va : Nat) : Nat :=
  match s.walk ctx va with
  | .leaf e _ => leafPa e va
  | .page _ _ => 0

/-! ## The TLB (09 R188) -/

/-- Whether an entry translates an address of a context. -/
def TlbEntry.covers (t : TlbEntry) (ctx va : Nat) : Bool :=
  t.ctx == ctx && decide (t.vbase ≤ sigVa va) && decide (sigVa va < t.vbase + pageBytes t.leaf.toNat)

/-- ORs bits into the slot of an entry (09 R185: A and D are set by an atomic OR). -/
def State.orSlot (s : State) (slot b : Nat) : State :=
  { s with mem := Memory.writeBytes s.mem slot (leBytes 8 (Memory.readNat s.mem slot 8 ||| b)) }

/-- A TLB has 256 sets of 16 ways (09 R188): a full set loses an entry; sets and victims are open (log 11). -/
def Cluster.addTlb (c : Cluster) (tick va : Nat) (t : TlbEntry) : Cluster :=
  let rest := c.tlb.filter fun x => !x.covers t.ctx va
  if rest.length < 16 then { c with tlb := t :: rest }
  else
    let set (x : TlbEntry) : Nat := Config.tlbSet x.ctx x.vbase % 256
    let same := rest.filter fun x => set x == set t
    if same.length < 16 then { c with tlb := t :: rest }
    else { c with tlb := t :: (rest.filter fun x => set x != set t) ++ same.eraseIdx (Config.victim tick % same.length) }

/-- The TLB entry of an address under a leaf. -/
def tlbEntryOf (ctx va leaf slot : Nat) : TlbEntry :=
  { ctx := ctx, vbase := sigVa va / pageBytes leaf * pageBytes leaf, size := pteSize leaf, leaf := BitVec.ofNat 64 leaf, slot := slot }

/-- A walk that installs its translation in a cluster's TLB; `dirty` sets D too. -/
def State.install (s : State) (k ctx va : Nat) (dirty : Bool) : Except (Nat × Nat) Nat × State :=
  match s.walk ctx va with
  | .page c l => (.error (c, l), s)
  | .leaf e slot =>
    let b := if dirty then 2 ^ 53 + 2 ^ 54 else 2 ^ 53
    let e' := e ||| b
    (.ok e', (s.orSlot slot b).modCluster k fun c => c.addTlb s.tick va (tlbEntryOf ctx va e' slot))

/-- The level of the slot that a TLB entry was walked from. -/
def TlbEntry.level (t : TlbEntry) : Nat := if t.size ≤ 8 then 0 else 1

/-- The first virtual address that the walked slot of a TLB entry stands for. -/
def TlbEntry.slotBase (t : TlbEntry) : Nat :=
  let unit := 2 ^ (12 + 9 * t.level)
  t.vbase / (512 * unit) * (512 * unit) + t.slot / 8 % 512 * unit

/-- The first store or atomic that a clean entry translates re-reads the walked slot and sets D there; an entry that has changed is
used as it stands, and where it no longer covers the address the tables are walked again (09 R185). -/
def State.setDirty (s : State) (k ctx va : Nat) (t : TlbEntry) : Except (Nat × Nat) Nat × State :=
  let e := Memory.readNat s.mem t.slot 8
  let base := t.slotBase / pageBytes e * pageBytes e
  if !pteV e then (.error (1, t.level), s)
  else if pteT e || !leafOk t.level e then (if t.level = 1 ∧ pteT e then s.install k ctx va true else (.error (2, t.level), s))
  else if base ≤ sigVa va ∧ sigVa va < base + pageBytes e then
    (.ok (e ||| 2 ^ 54), (s.orSlot t.slot (2 ^ 54)).modCluster k fun c => c.addTlb s.tick va (tlbEntryOf ctx va (e ||| 2 ^ 54) t.slot))
  else s.install k ctx va true

/-- Translates through a cluster's TLB: the leaf used, or PAGE with cause and level. -/
def State.translate (s : State) (k ctx va : Nat) (write : Bool) : Except (Nat × Nat) Nat × State :=
  match (s.cluster k).tlb.find? fun t => t.covers ctx va with
  | some t => if write && !pteD t.leaf.toNat then s.setDirty k ctx va t else (.ok t.leaf.toNat, s)
  | none => s.install k ctx va write

/-! ## The checks of an access (09 R191) -/

/-- Kinds of access; an atomic carries its operation number. -/
inductive Access
  | read
  | write
  | atomic (op : Nat)
  deriving DecidableEq, Repr

/-- The access code of a PAGE record (09 Table 9-3). -/
def Access.code (a : Access) : Nat :=
  match a with
  | .read => 0
  | .write => 1
  | .atomic _ => 2

/-- Whether an access needs W, sets D and waits for a migration. -/
def Access.writes (a : Access) : Bool :=
  match a with
  | .read => false
  | _ => true

/-- Operations that a PCIe AtomicOp carries (09 R186). -/
def hostCarried (op : Nat) : Bool := op == 0 || op == 1 || op == 10 || op == 12 || op == 13 || op == 14

/-- The permission and placement check: the lowest cause that applies (09 R191, Table 9-3). -/
def permCause (leaf pa n : Nat) (a : Access) : Option Nat :=
  let home := homeOf pa
  let atomicOp := match a with
    | .atomic op => some op
    | _ => none
  if (a == .read || atomicOp.isSome) && !pteR leaf then some 2
  else if a.writes && !pteW leaf then some 3
  else if atomicOp.isSome && pteAp leaf == 3 then some 4
  else if home ≠ 31 ∧ !inHome pa n then some 5
  else if (match atomicOp with
      | some op => pteAp leaf == 2 && (home != 16 || !hostCarried op)
      | none => false) then some 6
  else if home = 31 then some 10
  else none

/-- What the checks find for one address. -/
inductive Checked
  | ok (pa leaf : Nat)
  | align
  | perm (cause : Nat)
  | page (cause level : Nat)
  | mig
  deriving DecidableEq, Repr

/-- Alignment, canonical form, translation, permission, in this order (09 R191); then the migration wait (R194). -/
def State.check (s : State) (k ctx va align n : Nat) (a : Access) : Checked × State :=
  if va % align ≠ 0 then (.align, s)
  else if !canonical va then (.perm 1, s)
  else
    match s.translate k ctx va a.writes with
    | (.error (c, l), s) => (.page c l, s)
    | (.ok leaf, s) =>
      let pa := leafPa leaf va
      match permCause leaf pa n a with
      | some c => (.perm c, s)
      | none => if a.writes && pteMig leaf then (.mig, s) else (.ok pa leaf, s)

/-- The cluster through whose TLB an agent translates. -/
def Who.cluster (w : Who) : Nat :=
  match w with
  | .gang h _ => hCluster h
  | .stream k _ => k

/-- The detail word of a PAGE record (09 Table 9-3). -/
def pageDetail (cause level : Nat) (a : Access) : Nat := cause + 256 * a.code + 1024 * level

/-- The context of an agent. -/
def State.whoCtx (s : State) (w : Who) : Nat := s.ctxOf (s.gangOf w).1

end Sys2Proof.Machine
end

