-- ==== Sys2Proof/Machine/Memory.lean ====
section
/-!
DEFINITION. The data paths of global memory: the homes with their format windows and guards (09 R196-R199), guest lines
and L1s (10 R210-R213, 09 R189), and how accesses in flight land, are performed and retire (09 R202-R206, 10 R226).
-/
namespace Sys2Proof.Machine

open Sys2Proof

def lineOf (pa : Nat) : Nat := pa / 128
/-- Whether two byte ranges meet. -/
def meets (a n b m : Nat) : Bool := decide (a < b + m) && decide (b < a + n)
/-- Bank memory: homes 4-7. -/
def isBank (pa : Nat) : Bool := decide (4 ≤ homeOf pa) && decide (homeOf pa ≤ 7)
/-- Whether the LLC of a die is the home of an address (10 Table 10-1); every LLC copy of home 16 is a guest. -/
def ownHome (die pa : Nat) : Bool := decide (homeOf pa ≤ 15) && dieOfPa pa == die

/-! ## Format windows (09 R196, R197) -/

/-- Bytes of an encoded block. -/
def FmtWindow.blockBytes (w : FmtWindow) : Nat := if w.fmt = 15 then 20 else 36

/-- The 32 bfloat16 patterns of an encoded block. -/
def FmtWindow.decode (w : FmtWindow) (bs : List Byte) : List Nat :=
  if w.fmt = 12 then
    let b := TebBlock.ofWords 6 ((List.range 9).map fun j => field bs (4 * j) 4)
    (List.range 32).map fun i =>
      match b.value 6 6 i with
      | .fin n m e => (fmtBf16.round .rne n m e).bits
      | _ => fmtBf16.nan
  else if w.fmt = 14 then (List.range 32).map fun i => mxDecode fmtE4m3 (field bs 32 1) (field bs i 1)
  else (List.range 32).map fun i => mxDecode fmtE2m1 (field bs 16 1) (bits (field bs (i / 2) 1) (4 * (i % 2) + 3) (4 * (i % 2)))

/-- The encoded block of 32 bfloat16 patterns; reserved bytes are zero. -/
def FmtWindow.encode (w : FmtWindow) (xs : List Nat) : List Byte :=
  let vs := xs.map fun x => fmtBf16.value x
  if w.fmt = 12 then ((tebQuantise 6 vs).1.words 6).flatMap fun v => leBytes 4 v
  else if w.fmt = 14 then
    let r := mxEncode fmtE4m3 8 vs
    (r.2.flatMap fun e => leBytes 1 e) ++ leBytes 4 r.1
  else
    let r := mxEncode fmtE2m1 2 vs
    ((List.range 16).flatMap fun j => leBytes 1 (r.2.getD (2 * j) 0 % 16 + 16 * (r.2.getD (2 * j + 1) 0 % 16))) ++ leBytes 4 r.1

/-- The enabled window whose alias range holds an address, with the offset in that range. -/
def State.aliasAt (s : State) (pa : Nat) : Option (FmtWindow × Nat) :=
  if homeOf pa ≤ 3 then
    (s.die (homeOf pa)).windows.findSome? fun p =>
      if p.2.en ∧ p.2.alias_ ≤ homeOff pa ∧ homeOff pa < p.2.alias_ + 64 * p.2.nblk then some (p.2, homeOff pa - p.2.alias_)
      else none
  else none

/-- Physical address of the encoded block behind an alias offset. -/
def FmtWindow.blockAt (w : FmtWindow) (home off : Nat) : Nat := home * 2 ^ 47 + w.enc + off / 64 * w.blockBytes

/-! ## The homes -/

/-- A byte as its home holds it, with the poison of its word; an alias byte is decoded. -/
def State.homeByte (s : State) (pa : Nat) : PByte :=
  match s.aliasAt pa with
  | none => (Memory.read s.mem pa, AList.get false s.memPoison (pa / 4))
  | some (w, off) =>
    let blk := w.blockAt (homeOf pa) off
    let xs := w.decode (Memory.readBytes s.mem blk w.blockBytes)
    (BitVec.ofNat 8 (xs.getD (off % 64 / 2) 0 / 256 ^ (off % 2)),
      (List.range (w.blockBytes / 4)).any fun j => AList.get false s.memPoison (blk / 4 + j))

/-- Bytes as their home holds them. -/
def State.homeRead (s : State) (pa n : Nat) : List PByte := (List.range n).map fun j => s.homeByte (pa + j)

/-- The aligned words that a range covers whole lose their poison; a word that it covers in part keeps it (21 R379). -/
def clearWords (m : AList Bool) (a n : Nat) : AList Bool :=
  (List.range ((a + n) / 4 - (a + 3) / 4)).foldl (fun m j => AList.set false m ((a + 3) / 4 + j) false) m

/-- A write clears the poison of the words that it covers whole. -/
def State.clearPoison (s : State) (pa n : Nat) : State := { s with memPoison := clearWords s.memPoison pa n }

/-- A plain store, an atomic, a BKOP write or a clearing BKREAD of a bank cell clears its sticky overflow flag; the other writes of bank
commands leave it (13 R277). A write of an engine or of system software is a plain store: DESIGN CHOICE (log 88). -/
def State.clearSticky (s : State) (pa n : Nat) : State :=
  if isBank pa then
    { s with sticky := (List.range ((pa % 8 + n + 7) / 8)).foldl (fun m j => AList.set false m (pa / 8 + j) false) s.sticky }
  else s

/-- Replaces bytes of a list from an offset. -/
def patchBytes {α : Type} (data : List α) (off : Nat) (bs : List α) : List α := data.take off ++ bs ++ data.drop (off + bs.length)

/-- Parts of a physical range, none crossing an alias block of 64 bytes. -/
def aliasParts (pa n : Nat) : List (Nat × Nat) :=
  (List.range (n / 64 + 2)).filterMap fun j =>
    let a := pa / 64 * 64 + 64 * j
    let lo := if a < pa then pa else a
    let hi := if pa + n < a + 64 then pa + n else a + 64
    if lo < hi then some (lo, hi - lo) else none

/-- Whether a range touches an alias range. -/
def State.aliasIn (s : State) (pa n : Nat) : Bool := (aliasParts pa n).any fun p => (s.aliasAt p.1).isSome

/-- Writes bytes that no alias range holds. -/
def State.plainWrite (s : State) (pa : Nat) (bs : List Byte) : State :=
  { s with mem := Memory.writeBytes s.mem pa bs }.clearPoison pa bs.length

/-- Writes bytes of one alias block: it is decoded, merged and encoded again as a whole (09 R197). -/
def State.blockWrite (s : State) (pa : Nat) (bs : List Byte) : State :=
  match s.aliasAt pa with
  | none => s.plainWrite pa bs
  | some (w, off) =>
    let blk := w.blockAt (homeOf pa) off
    let old := (w.decode (Memory.readBytes s.mem blk w.blockBytes)).flatMap fun x => leBytes 2 x
    let new := patchBytes old (off % 64) bs
    { s with mem := Memory.writeBytes s.mem blk (w.encode ((List.range 32).map fun i => field new (2 * i) 2)) }

/-- Writes bytes at their home. -/
def State.homeWrite (s : State) (pa : Nat) (bs : List Byte) : State :=
  if s.aliasIn pa bs.length then
    (aliasParts pa bs.length).foldl (fun s p => s.blockWrite p.1 ((bs.drop (p.1 - pa)).take p.2)) s
  else s.plainWrite pa bs

/-- Writes bytes at their home as a plain store does. -/
def State.plainStore (s : State) (pa : Nat) (bs : List Byte) : State := (s.homeWrite pa bs).clearSticky pa bs.length

/-- An access by physical address of the resident kernel or of a unit that does not translate: one that names a home that holds nothing,
or an offset beyond a home's range, reads and writes nothing (01 R12, 09 R180); the PERM that it raises is its issuer's own (log 68). -/
def State.physRead (s : State) (pa n : Nat) : List PByte := if inHome pa n then s.homeRead pa n else List.replicate n (0, false)
def State.physWrite (s : State) (pa : Nat) (bs : List Byte) : State :=
  if inHome pa bs.length then s.plainStore pa bs else s

/-- Poisons the words of a plain range. -/
def State.poisonWords (s : State) (pa n : Nat) : State :=
  { s with memPoison := (List.range ((pa % 4 + n + 3) / 4)).foldl (fun m j => AList.set false m (pa / 4 + j) true) s.memPoison }

/-- Poisons the words of a range, where a write carries poison; behind an alias address, the words of its encoded block. -/
def State.markPoison (s : State) (pa n : Nat) (bad : Bool) : State :=
  if bad then
    match s.aliasAt pa with
    | none => s.poisonWords pa n
    | some (w, off) => s.poisonWords (w.blockAt (homeOf pa) off) w.blockBytes
  else s

/-- The first byte of a range that a guard range of its home covers (09 R199). -/
def State.guarded (s : State) (pa n : Nat) : Option Nat :=
  (List.range n).findSome? fun j =>
    if s.guards.any fun g => g.1 / 16 == homeOf pa && decide (g.2.1 ≤ homeOff pa + j) && decide (homeOff pa + j < g.2.2) then some (pa + j)
    else none

/-- Whether a store is denied: cause and first denied byte (09 R199, Table 9-6). -/
def State.storeDenied (s : State) (pa n : Nat) : Option (Nat × Nat) :=
  match s.guarded pa n with
  | some b => some (1, b)
  | none => if n = 1 ∧ (s.aliasAt pa).isSome then some (2, pa) else none

/-- Whether an atomic is denied. -/
def State.atomDenied (s : State) (pa n : Nat) : Bool := (s.guarded pa n).isSome || (s.aliasAt pa).isSome

/-- One denied lane adds one to the checking die's log counter. -/
def State.logDenial (s : State) (die : Nat) : State := s.modDie die fun d => { d with guardLog := d.guardLog + 1 }

/-! ## Guest lines (10 R211, R212) -/

/-- Words of a line that a range touches. -/
def wordMask (pa n : Nat) : BitVec 32 := maskOf fun j => decide (pa % 128 / 4 ≤ j) && decide (j ≤ (pa % 128 + n - 1) / 4)

/-- Whether a range covers the whole of an aligned word that a byte lies in. -/
def coversWord (pa n a : Nat) : Bool := decide (pa ≤ a / 4 * 4) && decide (a / 4 * 4 + 4 ≤ pa + n)

/-- Lays bytes over a list that starts at `base`: words covered whole take the poison of the write, the others keep theirs. -/
def layOver (base : Nat) (data : List PByte) (pa : Nat) (bs : List Byte) (bad : Bool) : List PByte :=
  (List.range data.length).map fun j =>
    let old := data.getD j (0, false)
    if pa ≤ base + j ∧ base + j < pa + bs.length then
      (bs.getD (base + j - pa) 0, bad || (old.2 && !coversWord pa bs.length (base + j)))
    else old

/-- A die's guest copy of a line. -/
def Die.guestLine (d : Die) (pl : Nat) : GuestLine :=
  (d.guest.find? fun x => x.pline == pl).getD
    { pline := pl, stream := false, data := (List.range 128).map fun _ => (0, false), valid := 0, dirty := 0 }

/-- A line that a die does not hold yet takes the mark of the access that brings it in (09 R202). -/
def Die.lineFor (d : Die) (pl : Nat) (stream : Bool) : GuestLine :=
  let x := d.guestLine pl
  if x.valid = 0 ∧ x.dirty = 0 then { x with stream := stream } else x

/-- Stores a guest line; a line with no valid and no dirty word is gone. -/
def Die.setGuest (d : Die) (x : GuestLine) : Die :=
  { d with guest := (d.guest.filter fun y => y.pline != x.pline) ++ (if x.valid = 0 ∧ x.dirty = 0 then [] else [x]) }

/-- The words of a line that those of a die's writes touch which satisfy a test. -/
def State.lineWrites (s : State) (die pl : Nat) (p : WriteOp → WriteLane → Bool) : BitVec 32 :=
  s.writes.foldl (fun m w =>
    if w.die = die then w.lanes.foldl (fun m l => if lineOf l.pa = pl && p w l then m ||| wordMask l.pa l.data.length else m) m else m) 0

/-- A store of fewer than 4 bytes between the die point and its home (10 R212). -/
def WriteLane.narrow (l : WriteLane) : Bool := decide (l.stage = 1) && decide (l.mode ≠ 2) && decide (l.data.length < 4)

/-- Bytes of the pinning allowance that a die's open rings hold, each what its enable reserved (19 R357). -/
def Die.pinned (d : Die) : Nat := d.rings.foldl (fun n p => n + p.2.reserved) 0

/-- Whether every page of a range is mapped on a home. -/
def State.mappedOn (s : State) (home ctx va n : Nat) : Bool :=
  (List.range (n / 4096 + 2)).all fun j =>
    let a := (va / 4096 + j) * 4096
    decide (va + n ≤ a) || (match s.walk ctx a with
      | .leaf e _ => homeOf (leafPa e a) == home
      | .page _ _ => false)

/-- The lines of its LLC that a die's open rings pin (19 R357): of an array that is not mapped on its home, none; two arrays of 64 bytes may
share one. -/
def State.pinnedLines (s : State) (die : Nat) : Nat :=
  let l := ((s.die die).rings.map Prod.snd).filter fun r => r.en && !r.dead && s.mappedOn die r.ctx r.base r.reserved
  l.foldl (fun n r => n + r.reserved / 128) ((l.filter fun r => decide (r.reserved < 128)).map fun r => lineOf (s.walkPa r.ctx r.base)).eraseDups.length

/-- The lines of a die's LLC that guests may take: 128 MiB (01 R16), less what open rings pin (19 R357). -/
def State.llcLines (s : State) (die : Nat) : Nat := 2 ^ 20 - s.pinnedLines die

/-- A clean guest line other than `keep` leaves the LLC: a streaming one first (09 R202), else which one is open (log 11). -/
def Die.dropGuest (d : Die) (tick keep : Nat) : Die :=
  let clean := d.guest.filter fun x => x.dirty == 0 && x.pline != keep
  let first := clean.filter fun x => x.stream
  let l := if first = [] then clean else first
  match l[Config.victim tick % l.length]? with
  | none => d
  | some v => { d with guest := d.guest.filter fun x => x.pline != v.pline }

/-- Clean guest lines leave the LLC until the others fit in its `lines`. -/
def Die.fitGuest (d : Die) (lines tick keep : Nat) : Die :=
  (List.range (d.guest.length - lines)).foldl (fun d j => d.dropGuest (tick + j) keep) d

/-- Whether a die's LLC can take `n` more guest lines: dirty ones stay. -/
def State.hasLines (s : State) (die n : Nat) : Bool :=
  decide (((s.die die).guest.filter fun x => x.dirty != 0).length + n ≤ s.llcLines die)

/-- Whether a die's LLC can take a guest line. -/
def State.takesLine (s : State) (die pl : Nat) : Bool := s.hasLines die 1 || (s.die die).guest.any fun x => x.pline == pl

/-- Whether a write can come to the die point: its home or bank is there, or it leaves no copy, or the LLC can take its guest line. -/
def State.lineRoom (s : State) (die pa mode : Nat) : Bool :=
  ownHome die pa || isBank pa || decide (mode = 2) || s.takesLine die (lineOf pa)

/-- A guest line as a fetch makes it: valid words stay, the others come from the home; a word that a narrow store of the die is still to
change there stays invalid (10 R213). -/
def State.fetchedLine (s : State) (die pl : Nat) (stream : Bool) : GuestLine :=
  let x := (s.die die).lineFor pl stream
  let h := s.homeRead (128 * pl) 128
  { x with
    data := (List.range 128).map fun j => if x.valid.getLsbD (j / 4) then x.data.getD j (0, false) else h.getD j (0, false),
    valid := x.valid ||| ~~~(s.lineWrites die pl fun _ l => l.narrow) }

/-- A read at the die point; a guest line is brought in if the LLC can take it. -/
def State.dieRead (s : State) (die pa n : Nat) (stream : Bool := false) : List PByte × State :=
  if ownHome die pa || isBank pa then (s.homeRead pa n, s)
  else
    let x := s.fetchedLine die (lineOf pa) stream
    ((x.data.drop (pa % 128)).take n,
      if s.takesLine die (lineOf pa) then s.modDie die fun d => (d.setGuest x).fitGuest (s.llcLines die) s.tick (lineOf pa) else s)

/-- A write updates a guest line: words of 4 bytes or more become valid and dirty, a narrower one is invalidated. -/
def State.guestWrite (s : State) (die pa : Nat) (bs : List Byte) (bad : Bool) (stream : Bool := false) : State :=
  s.modDie die fun d =>
    let x := d.lineFor (lineOf pa) stream
    let m := wordMask pa bs.length
    (d.setGuest
      (if bs.length < 4 then { x with valid := x.valid &&& ~~~m, dirty := x.dirty ||| m }
       else { x with data := layOver (128 * lineOf pa) x.data pa bs bad, valid := x.valid ||| m, dirty := x.dirty ||| m })).fitGuest
      (s.llcLines die) s.tick (lineOf pa)

/-- Whether a write of a die to some of these bytes is at the die point and not yet at its home. -/
def State.underWay (s : State) (die pa n : Nat) : Bool :=
  s.writes.any fun w => w.die == die && w.lanes.any fun l => decide (l.stage = 1) && meets l.pa l.data.length pa n

/-- Words of a guest line are dropped, but for those a write under way will make newer (10 R213). -/
def State.forgetGuest (s : State) (die pa n : Nat) : State :=
  if ownHome die pa then s
  else
    let keep := s.lineWrites die (lineOf pa) fun _ l => decide (l.stage = 1) && decide (l.mode ≠ 2)
    s.modDie die fun d =>
      let x := d.guestLine (lineOf pa)
      d.setGuest { x with valid := x.valid &&& ~~~(wordMask pa n &&& ~~~keep) }

/-! ## L1s (08 R163, 09 R188, R189) -/

/-- The line of an L1 under a virtual address. -/
def Core.l1Line (c : Core) (ctx va : Nat) : Option L1Line := c.l1.find? fun x => x.ctx == ctx && x.vline == va / 128

/-- The cluster of a core key; a matrix control core 1024 + k stands in cluster k. -/
def keyCluster (core : Nat) : Nat := if core < 1024 then clusterOf core else core - 1024

/-- Drops the cluster's copies of a physical line under another virtual address (09 R189). -/
def State.dropOthers (s : State) (k ctx va pl : Nat) : State :=
  (clusterCores k).foldl (fun s c => s.modCore c fun x =>
    { x with l1 := x.l1.filter fun y => !(y.pline == pl && !(y.ctx == ctx && y.vline == va / 128)) }) s

/-- A core's L1 loses its copies of a physical line. -/
def State.dropL1 (s : State) (core pl : Nat) : State := s.modCore core fun c => { c with l1 := c.l1.filter fun x => x.pline != pl }

/-- Granules of a core that tasks hold. -/
def State.heldGranules (s : State) (c : Nat) : List Nat :=
  s.tasks.flatMap fun p => match p.2 with
    | some t => if hCore p.1 = c then t.granules else []
    | none => []

/-- Ways of a core's L1: 32 base ways, and one lent by each free granule (08 R163). -/
def State.l1Ways (s : State) (c : Nat) : List Nat :=
  List.range 32 ++ ((List.range 64).filter fun i => !(s.heldGranules c).contains i).map (32 + ·)

/-- The way that a new line of a set takes: an empty one, else a streaming line's (09 R202), else another's, which one being open
(log 11). -/
def fillWay (tick : Nat) (ways : List Nat) (same : List L1Line) : Nat :=
  let pick (l : List Nat) : Nat := l.getD (Config.victim tick % l.length) 0
  match ways.filter fun w => same.all fun x => x.way != w with
  | [] =>
    match ways.filter fun w => same.any fun x => x.way == w && x.stream with
    | [] => pick ways
    | l => pick l
  | l => pick l

/-- Fills a line into an L1; the set is given by virtual address bits 11-7. -/
def State.fillL1 (s : State) (core ctx va pl : Nat) (stream : Bool) (data : List PByte) : State :=
  let s := s.dropOthers (keyCluster core) ctx va pl
  let ways := s.l1Ways core
  s.modCore core fun c =>
    let way := fillWay s.tick ways (c.l1.filter fun x => x.vline % 32 == va / 128 % 32)
    { c with l1 := { way := way, ctx := ctx, vline := va / 128, pline := pl, stream := stream, data := data } ::
        c.l1.filter fun x => !(x.vline % 32 == va / 128 % 32 && x.way == way) }

/-- A read by a core: mode 0 through the L1, 3 the same for streaming, 1 allocating no L1 line, 2 at the home. Matrix control cores have
no L1. -/
def State.coreRead (s : State) (core die ctx va pa n mode : Nat) : List PByte × State :=
  if mode = 2 then (s.homeRead pa n, if isBank pa then s else (s.dropL1 core (lineOf pa)).forgetGuest die pa n)
  else
    match (s.core core).l1Line ctx va with
    | some x => ((x.data.drop (va % 128)).take n, s)
    | none =>
      if mode ≠ 1 ∧ core < 1024 then
        let (line, s) := s.dieRead die (128 * lineOf pa) 128 (mode == 3)
        ((line.drop (pa % 128)).take n, s.fillL1 core ctx va (lineOf pa) (mode == 3) line)
      else s.dieRead die pa n (mode == 3)

/-- What the store queue of a core lays over a read (10 Table 10-1): the writes that it held as the reader issued and that are still at the
core point. A matrix control core has none: its reads and writes act at the die point (16 R305). -/
def State.overlay (s : State) (core id pa : Nat) (data : List PByte) : List PByte :=
  if 1024 ≤ core then data
  else s.writes.foldl (fun d w =>
    if w.core = core ∧ w.id < id then
      w.lanes.foldl (fun d l => if l.stage = 0 ∧ l.mode ≠ 2 then layOver pa d l.pa l.data l.poison else d) d
    else d) data

/-- The mode of an access: at the home for uncached pages and banks, and for writes to alias lines (10 R212); else as the policy
says, a streaming page making a normal access streaming (09 R202). A decoded alias line may be cached (09 R197). -/
def State.accessMode (s : State) (leaf pa pol : Nat) (write : Bool) : Nat :=
  if pteMt leaf = 2 ∨ isBank pa ∨ (write ∧ (s.aliasAt pa).isSome) then 2
  else if pol = 2 then 1
  else if pol = 1 ∨ pteMt leaf = 1 then 3
  else 0

/-! ## When a read may be made (10 R213) -/

/-- The words of a load's lane: number and bytes of each. -/
def wordCount (bytes : Nat) : Nat := (bytes + 3) / 4
def wordBytes (bytes : Nat) : Nat := if bytes < 4 then bytes else 4

/-- Whether a word of a lane is still to be read. -/
def LoadLane.lacks (l : LoadLane) (j : Nat) : Bool := !l.landed && !(l.got.any fun p => p.1 == j)

/-- Whether a lane is still to read some of these bytes. -/
def LoadLane.pending (l : LoadLane) (bytes pa n : Nat) : Bool :=
  (List.range (wordCount bytes)).any fun j => l.lacks j && meets (l.pa + 4 * j) (wordBytes bytes) pa n

/-- The core and the die of an owner. -/
def Owner.place (o : Owner) : Nat × Nat :=
  match o with
  | .gang h _ => (hCore h % 192, hDie h)
  | .stream k _ => (1024 + k, k / 8)
  | .engine => (2048, 4)

/-- Whether a read at the die point of a die misses no write that has come there: one that is only queued there (10 R212), or whose word
the guest line does not hold; it waits for a narrow store of the die to its line; and its home is awake. -/
def State.dieReadable (s : State) (die pa n mode : Nat) : Bool :=
  s.awake pa &&
  (s.writes.all fun w => w.lanes.all fun l =>
    !(w.die == die && decide (l.stage = 1) && meets l.pa l.data.length pa n &&
      (decide (mode = 2) || decide (l.mode = 2) ||
        ((s.die die).guestLine (lineOf pa)).valid &&& wordMask l.pa l.data.length != wordMask l.pa l.data.length))) &&
  (decide (mode = 2) || ownHome die pa || s.lineWrites die (lineOf pa) (fun _ l => l.narrow) == 0)

/-- Whether a read of a core misses no write that its core has accepted (10 R210): an atomic of the core that was issued earlier to the
same bytes has executed, and a write that the store queue cannot lay over the read (one that is queued to its home, or any where the
read is made at the home) has left the core. -/
def State.coreReadable (s : State) (o : Owner) (id pa n mode : Nat) : Bool :=
  (s.atoms.all fun x => !(x.core == o.place.1 && decide (x.id < id) &&
    x.lanes.any fun l => decide (l.stage = 0) && meets l.pa 16 pa n)) &&
  (s.writes.all fun w => !(w.core == o.place.1 && decide (w.id < id)) || w.lanes.all fun l =>
    !(decide (l.stage = 0) && meets l.pa l.data.length pa n && (decide (l.mode = 2) || decide (mode = 2))))

/-- Whether a read may be made: at the core point and the die point it misses no write (10 R210, R213), and no load of the reader to the
same words is outstanding; `lane` is the lane that reads. -/
def State.readable (s : State) (o : Owner) (die id pa n mode : Nat) (lane : Option Nat) : Bool :=
  s.dieReadable die pa n mode && s.coreReadable o id pa n mode &&
  (s.loads.all fun x => !(x.owner == o && decide (x.id < id) &&
    x.lanes.any fun l => l.pending x.bytes pa n && (match lane with
      | some i => l.lane == i || x.uniform
      | none => true)))

/-! ## Acquires attached to reads, and counters (10 R217, R226) -/

/-- Performs the acquires whose reads, and the loads before them, have landed. -/
def State.performAcquires (s : State) : State :=
  let s := s.loads.foldl (fun s x =>
    match x.acq with
    | none => s
    | some sc =>
      if (x.lanes.all fun l => l.landed) && s.loadsLanded x.owner x.id then
        { s.discard x.owner.place.1 x.owner.place.2 sc with
          loads := s.loads.map fun y => if y.id = x.id then { y with acq := none } else y }
      else s) s
  s.atoms.foldl (fun s x =>
    if x.acq && (x.lanes.all fun l => decide (l.stage = 2)) && s.loadsLanded x.owner x.id then
      { s.discard x.owner.place.1 x.owner.place.2 x.scope with
        atoms := s.atoms.map fun y => if y.id = x.id then { y with acq := false } else y }
    else s) s

def LoadOp.complete (x : LoadOp) : Bool := (x.lanes.all fun l => l.landed) && x.acq.isNone
def AtomOp.complete (x : AtomOp) : Bool := (x.lanes.all fun l => decide (l.stage = 2)) && !x.acq

/-- Whether a load leaves the machine: complete, and so are the counted loads before it (10 Table 10-4). -/
def State.loadRetires (s : State) (x : LoadOp) : Bool :=
  x.complete && (!x.counted || s.loads.all fun y => !(y.owner == x.owner && y.counted && decide (y.id < x.id)) || y.complete)

/-- Whether every counted store and atomic of an owner before `id` is complete. -/
def State.storesBefore (s : State) (o : Owner) (id : Nat) : Bool :=
  (s.writes.all fun y => !(y.owner == o && y.counted && decide (y.id < id)) || y.acked) &&
  (s.atoms.all fun y => !(y.owner == o && decide (y.id < id)) || y.complete)

/-- Retires what has completed; classes LD and ST fall in issue order. -/
def State.retire (s : State) : State :=
  let ld := s.loads.filter s.loadRetires
  let st := s.writes.filter fun x => x.acked && (!x.counted || s.storesBefore x.owner x.id)
  let at_ := s.atoms.filter fun x => x.complete && s.storesBefore x.owner x.id
  let t := { s with
    loads := s.loads.filter fun x => !s.loadRetires x,
    writes := s.writes.filter fun x => !(x.acked && (!x.counted || s.storesBefore x.owner x.id)),
    atoms := s.atoms.filter fun x => !(x.complete && s.storesBefore x.owner x.id) }
  let t := ld.foldl (fun t x => if x.counted then t.uncount x.owner 0 else t) t
  let t := st.foldl (fun t x => if x.counted then t.uncount x.owner 1 else t) t
  at_.foldl (fun t x => t.uncount x.owner 1) t

/-- Acquires, then retirement. -/
def State.settle (s : State) : State := s.performAcquires.retire

/-! ## Landing of loads -/

/-- The words of read bytes: zero- or sign-extended below 32 bits. -/
def loadWords (signed : Bool) (n : Nat) (bs : List PByte) : List Word :=
  let bytes := bs.map Prod.fst
  if n = 1 then [if signed then (BitVec.ofNat 8 (leNat bytes)).signExtend 32 else BitVec.ofNat 32 (leNat bytes)]
  else if n = 2 then [if signed then (BitVec.ofNat 16 (leNat bytes)).signExtend 32 else BitVec.ofNat 32 (leNat bytes)]
  else (List.range (n / 4)).map fun j => BitVec.ofNat 32 (field bytes (4 * j) 4)

/-- Writes words to physical entries of a lane, full. -/
def State.writeEntries (s : State) (h g lane : Nat) (dst : List Nat) (ws : List Word) : State :=
  s.modGang h g fun gg => gg.modThread lane fun t => (dst.zip ws).foldl (fun t p => t.writePhys p.1 p.2) t

/-- Marks entries full with their old values. -/
def State.refill (s : State) (h g lane : Nat) (dst : List Nat) : State :=
  s.modGang h g fun gg => gg.modThread lane fun t => dst.foldl (fun t p => t.markPhys p .full) t

/-- Marks registers `regs` of a lane as `st`, and gives their physical entries. -/
def State.markLane (s : State) (h g lane : Nat) (regs : List Nat) (st : RegState) : State :=
  let D := s.depth h
  s.modGang h g fun gg =>
    regs.foldl (fun gg k => gg.dropLatch k (laneBit lane))
      (gg.modThread lane fun t => regs.foldl (fun t k => t.markPhys (t.phys D k) st) t)

/-- The physical entries of registers of a lane. -/
def State.entriesOf (s : State) (h g lane : Nat) (regs : List Nat) : List Nat :=
  let D := s.depth h
  regs.map fun k => ((s.gang h g).thread lane).phys D k

/-- The entries of a gang that wait for a load. -/
def State.loadWaiters (s : State) (h g id : Nat) : List Entry := (s.gang h g).frontier.filter fun e => e.st == .stall (.load id)

/-- The entries that wait for a load go on, at the next word or into a fault. -/
def State.wakeLoad (s : State) (h g id : Nat) (k : Entry → State → State) : State :=
  let es := s.loadWaiters h g id
  let s := s.modGang h g fun gg => { gg with frontier := gg.frontier.filter fun e => e.st != .stall (.load id) }
  es.foldl (fun s e => k e s) s

/-- The source code of a POISON record for global data (21 R380). -/
def poisonSource (pa : Nat) : Nat := if isBank pa then 7 else 1

/-- Data of one lane returns (09 R202, 21 R380); `ws` is none for poisoned data. -/
def State.landLane (s : State) (x : LoadOp) (l : LoadLane) (ws : Option (List Word)) : State :=
  match x.owner, ws with
  | .gang h g, some ws =>
    if x.uniform then
      let s := (l.dst.zip ws).foldl (fun s p => s.setS (.gang h g) p.1 p.2) s
      s.wakeLoad h g x.id fun e s => s.advance h g e e.mask
    else s.writeEntries h g l.lane l.dst ws
  | .gang h g, none =>
    if x.uniform then
      s.wakeLoad h g x.id fun e s => s.raiseUniform (.gang h g) e kPOISON (poisonSource l.pa) l.va
    else s.refill h g l.lane l.dst
  | .stream k i, some ws => ((l.dst.zip ws).foldl (fun s p => s.setS (.stream k i) p.1 p.2) s).streamNext k i x.pc
  | .stream k i, none =>
    s.raiseUniform (.stream k i) { pc := x.pc, pri := 0, mask := 0, st := .ready, qkeep := [], held := none } kPOISON
      (poisonSource l.pa) l.va
  | .engine, _ => s

/-- Changes one lane of a load. -/
def State.modLoad (s : State) (id lane : Nat) (f : LoadLane → LoadLane) : State :=
  { s with loads := s.loads.map fun x =>
      if x.id = id then { x with lanes := x.lanes.map fun l => if l.lane = lane then f l else l } else x }

/-- Whether a lane's data came back poisoned. -/
def LoadLane.poisoned (l : LoadLane) : Bool := l.got.any fun p => p.2.any Prod.snd

/-- The data of a lane, word after word. -/
def LoadLane.data (l : LoadLane) (bytes : Nat) : List PByte :=
  (List.range (wordCount bytes)).flatMap fun j => ((l.got.find? fun p => p.1 == j).map Prod.snd).getD []

/-- POISON of a load whose every lane has landed: one record, which names its poisoned lanes and the data of the lowest
(21 R380, R404). -/
def State.loadPoison (s : State) (h g : Nat) (y : LoadOp) : State :=
  match y.lanes.filter fun l => l.poisoned && l.dst != [] with
  | [] => s
  | l :: t => s.raiseLater h g (.lane kPOISON y.pc (t.foldl (fun m x => m ||| laneBit x.lane) (laneBit l.lane)) (poisonSource l.pa) l.va)

/-- When a word's every lane has landed: an entry that waits for it goes on (09 R209), and its poison is reported. -/
def State.finishLanes (s : State) (x : LoadOp) : State :=
  match x.owner, s.loads.find? fun y => y.id == x.id with
  | .gang h g, some y =>
    if !x.uniform && y.lanes.all fun l => l.landed then
      (s.wakeLoad h g x.id fun e s => s.advance h g e e.mask).loadPoison h g y
    else s
  | _, _ => s

/-- A lane has all its data: `l` as it now stands. -/
def State.landed1 (s : State) (x : LoadOp) (l : LoadLane) (ws : Option (List Word)) : State :=
  ((((s.modLoad x.id l.lane fun _ => { l with landed := true }).observe x.owner).landLane x l ws).finishLanes x).settle

/-- Whether a word of a lane may be read now: lower lanes of the same instruction have read the bytes before it (05 R89), earlier
ordered accesses have taken effect (10 R221), and nothing of its own is missed (R213). -/
def State.mayRead (s : State) (x : LoadOp) (l : LoadLane) (pa n : Nat) : Bool :=
  (x.lanes.all fun m => decide (l.lane ≤ m.lane) || !m.pending x.bytes pa n) &&
  (match x.acq with
    | some sc => s.orderedBefore x.owner x.id sc
    | none => true) &&
  s.readable x.owner x.owner.place.2 x.id pa n l.mode (if x.uniform then none else some l.lane)

/-- One word of a lane is read, at its point. -/
def State.readWord (s : State) (x : LoadOp) (l : LoadLane) (j : Nat) : Option State :=
  let pa := l.pa + 4 * j
  let n := wordBytes x.bytes
  if l.lacks j && decide (j < wordCount x.bytes) && s.mayRead x l pa n then
    let r := s.coreRead x.core x.owner.place.2 x.ctx (l.va + 4 * j) pa n l.mode
    let l := { l with got := l.got ++ [(j, s.overlay x.core x.id pa r.1)] }
    if (List.range (wordCount x.bytes)).any l.lacks then some (r.2.modLoad x.id l.lane fun _ => l)
    else
      some (r.2.landed1 x l (if l.poisoned then none else some (loadWords x.signed x.bytes (l.data x.bytes))))
  else none

/-- LOAD_DATA_LANDS: a word of a lane is read; with the last one the lane's data returns (09 R202, 10 R210-R214). A prefetched line waits
for a narrow store of its die that would make it stale (R213). -/
def State.loadLands (s : State) (op lane word : Nat) : Option State :=
  match s.loads.find? fun x => x.id == op with
  | none => none
  | some x =>
    match x.lanes.find? fun l => l.lane == lane && !l.landed with
    | none => none
    | some l =>
      match x.fixed.find? fun p => p.1 == lane with
      | some (_, v) => some (s.landed1 x (if v.isNone then { l with got := [(0, [(0, true)])] } else l) (v.map fun w => [w]))
      | none =>
        if x.owner = .engine then
          let die := if x.core < 1024 then dieOf x.core else (x.core - 1024) / 8
          if !s.awake l.pa ∨ s.lineWrites die (lineOf l.pa) (fun _ m => m.narrow) ≠ 0 then none
          else some ((s.coreRead x.core die x.ctx l.va l.pa x.bytes l.mode).2.modLoad op lane fun y => { y with landed := true }).settle
        else s.readWord x l word

/-- LOAD_DATA_LANDS. -/
def execLoadDataLands (op : Nat) (lane : LaneWord) (s : State) : Out := event (s.loadLands op lane.lane lane.word) s

/-! ## Stores on their way -/

/-- Changes one lane of a store. -/
def State.modWrite (s : State) (op lane : Nat) (f : WriteLane → WriteLane) : State :=
  { s with writes := s.writes.map fun x =>
      if x.id = op then { x with lanes := x.lanes.map fun l => if l.lane = lane then f l else l } else x }

/-- A store lane is performed at its home, or denied there (09 R199). The words of a wide plain store reach their home in one step, so
that no access there falls between them (13 R270, 10 R213): DESIGN CHOICE (log 89). -/
def State.performStore (s : State) (x : WriteOp) (l : WriteLane) : State :=
  match (if x.through then none else s.storeDenied l.pa l.data.length) with
  | some (c, b) =>
    (s.logDenial (dieOfPa l.pa)).modWrite x.id l.lane fun y => { y with stage := 2, denied := c, deniedAt := b }
  | none =>
    let s := ((s.plainStore l.pa l.data).markPoison l.pa l.data.length l.poison).modWrite x.id l.lane fun y => { y with stage := 2 }
    if l.mode = 2 ∧ x.core < 1024 then (s.dropL1 x.core (lineOf l.pa)).forgetGuest x.die l.pa l.data.length else s

/-- A lane of a store in a stage. -/
def State.writeLane (s : State) (op lane stage : Nat) : Option (WriteOp × WriteLane) :=
  match s.writes.find? fun x => x.id == op with
  | none => none
  | some x => (x.lanes.find? fun l => l.lane == lane && decide (l.stage = stage)).map fun l => (x, l)

/-- Whether a store lane still in the same core's queue touches the same bytes: of an earlier word, or a lower lane of the same. -/
def State.olderInCore (s : State) (x : WriteOp) (l : WriteLane) : Bool :=
  s.writes.any fun y => y.core == x.core && y.lanes.any fun m =>
    decide (m.stage = 0) && (decide (y.id < x.id) || (y.id == x.id && decide (m.lane < l.lane))) &&
      meets m.pa m.data.length l.pa l.data.length

/-- Whether a store lane that came to the die point earlier, and is not at its home yet, touches the same bytes. -/
def State.olderAtDie (s : State) (x : WriteOp) (l : WriteLane) : Bool :=
  s.writes.any fun y => y.die == x.die && y.lanes.any fun m =>
    decide (m.stage = 1) && decide (m.seq < l.seq) && meets m.pa m.data.length l.pa l.data.length

/-- A store may leave the core: its older stores, and the earlier reads of its owner, have passed these bytes. -/
def State.mayLeave (s : State) (x : WriteOp) (l : WriteLane) : Bool :=
  !s.olderInCore x l &&
  (s.loads.all fun y => !(y.owner == x.owner && decide (y.id < x.id) &&
    y.lanes.any fun m => m.pending y.bytes l.pa l.data.length)) &&
  (s.atoms.all fun y => !(y.core == x.core && decide (y.id < x.id) &&
    y.lanes.any fun m => decide (m.stage = 0) && meets m.pa 16 l.pa l.data.length))

/-- The issuing core's L1 line takes the bytes (10 R211); where the write is queued to its home it is dropped. -/
def State.l1Write (s : State) (core pa mode : Nat) (bs : List Byte) (bad : Bool) : State :=
  if mode = 2 then s.dropL1 core (lineOf pa)
  else s.modCore core fun c =>
    { c with l1 := c.l1.map fun x => if x.pline = lineOf pa then { x with data := layOver (128 * x.pline) x.data pa bs bad } else x }

/-- The LLC accepts a store lane (10 R210-R212): a home of the die, and a bank, perform it. -/
def State.acceptAtDie (s : State) (x : WriteOp) (l : WriteLane) : State :=
  if ownHome x.die l.pa || isBank l.pa then s.performStore x l
  else
    let (q, s) := s.fresh
    let s := s.modWrite x.id l.lane fun y => { y with stage := 1, seq := q }
    if l.mode = 2 then s.forgetGuest x.die l.pa l.data.length else s.guestWrite x.die l.pa l.data l.poison (l.mode == 3)

/-- WRITE_AT_DIE_POINT: the LLC accepts a store lane that it has room for. -/
def State.writeAtDie (s : State) (op lane : Nat) : Option State :=
  match s.writeLane op lane 0 with
  | none => none
  | some (x, l) =>
    if s.mayLeave x l && s.lineRoom x.die l.pa l.mode then some ((s.l1Write x.core l.pa l.mode l.data l.poison).acceptAtDie x l) else none

/-- WRITE_AT_DIE_POINT. -/
def execWriteAtDiePoint (op lane : Nat) (s : State) : Out := event (s.writeAtDie op lane) s

/-- STORE_AT_HOME: a store lane is performed or denied at its home, in the order its die sent it. -/
def State.storeHome (s : State) (op lane : Nat) : Option State :=
  match s.writeLane op lane 1 with
  | none => none
  | some (x, l) => if s.olderAtDie x l ∨ !s.awake l.pa then none else some (s.performStore x l)

/-- STORE_AT_HOME. -/
def execStoreAtHome (op lane : Nat) (s : State) : Out := event (s.storeHome op lane) s

/-- The denial of a store, if a lane was denied (09 Table 9-6). -/
def WriteOp.denial (x : WriteOp) : Option Denial :=
  let d := x.lanes.filter fun l => decide (l.denied ≠ 0)
  match d with
  | [] => none
  | l :: _ => some { pc := x.pc, mask := x.umask.getD (d.foldl (fun m l => m ||| laneBit l.lane) 0), addr := l.deniedAt, cause := l.denied, tagged := x.tagged }

/-- An acknowledged lane: its guest words are no longer dirty, but for those that another write of the die, not yet acknowledged,
wrote too (10 R211); a denied one leaves no copy on its die or core. -/
def State.ackLane (s : State) (x : WriteOp) (l : WriteLane) : State :=
  let others := s.lineWrites x.die (lineOf l.pa) fun w m => !w.acked && w.id != x.id && decide (1 ≤ m.stage) && decide (m.mode ≠ 2)
  let s := if ownHome x.die l.pa || isBank l.pa then s
    else s.modDie x.die fun d =>
      let y := d.guestLine (lineOf l.pa)
      (d.setGuest { y with dirty := y.dirty &&& ~~~(wordMask l.pa l.data.length &&& ~~~others) }).fitGuest (s.llcLines x.die) s.tick (lineOf l.pa)
  if l.denied ≠ 0 then (s.dropL1 x.core (lineOf l.pa)).forgetGuest x.die l.pa l.data.length else s

/-- Marks a store acknowledged. -/
def State.markAcked (s : State) (op : Nat) : State :=
  { s with writes := s.writes.map fun y => if y.id = op then { y with acked := true } else y }

/-- STORE_ACK_RETURNS: the tag is freed, denials are recorded, dirty bits clear, the count falls in order (09 R200). -/
def State.storeAck (s : State) (op : Nat) : Option State :=
  match s.writes.find? fun x => x.id == op && !x.acked with
  | none => none
  | some x =>
    if x.lanes.all fun l => decide (l.stage = 2) then
      let s : State := x.lanes.foldl (fun s l => s.ackLane x l) s
      let s := s.markAcked op
      let s := match x.owner, x.denial with
        | .gang h g, some d => s.modGang h g fun gg => { gg with denials := gg.denials ++ [d] }
        | .stream k i, some d => s.modGang (s.gangOf (.stream k i)).1 (s.gangOf (.stream k i)).2 fun gg => { gg with denials := gg.denials ++ [d] }
        | _, _ => s
      let s := match x.owner with
        | .gang h g => s.modGang h g fun gg => { gg with tags := gg.tags.filter fun p => p.1 != op }
        | .stream k i => s.modGang (s.gangOf (.stream k i)).1 (s.gangOf (.stream k i)).2 fun gg => { gg with tags := gg.tags.filter fun p => p.1 != op }
        | .engine => s
      some s.settle
    else none

/-- STORE_ACK_RETURNS. -/
def execStoreAckReturns (op : Nat) (s : State) : Out := event (s.storeAck op) s

/-! ## Atomics (09 R186, R187, R199, R201, R206) -/

/-- Width of an atomic. -/
def atomWidth (op : Nat) : Nat := if op = 1 ∨ op = 13 then 8 else if op = 14 then 16 else 4

/-- New value of an atomic from the old one and the lane's data words (09 Table 9-7). -/
def atomNew (op : Nat) (old : Nat) (d : List Word) : Nat :=
  let x := d.getD 0 0
  let o : Word := BitVec.ofNat 32 old
  let words (i n : Nat) := (List.range n).foldr (fun j v => (d.getD (i + j) 0).toNat + 2 ^ 32 * v) 0
  match op with
  | 0 => (o + x).toNat
  | 1 => (old + words 0 2) % 2 ^ 64
  | 2 => (f32Add o x).1.toNat
  | 3 => (intMin o x).toNat
  | 4 => (intMax o x).toNat
  | 5 => (intMinu o x).toNat
  | 6 => (intMaxu o x).toNat
  | 7 => (o &&& x).toNat
  | 8 => (o ||| x).toNat
  | 9 => (o ^^^ x).toNat
  | 10 => x.toNat
  | 11 => if o.toNat < x.toNat then (o + 1).toNat else old
  | 12 => if old = words 0 1 then words 1 1 else old
  | 13 => if old = words 0 2 then words 2 2 else old
  | _ => if old = words 0 4 then words 4 4 else old

/-- Whether an atomic writes (09 R206). -/
def atomWrites (op old new : Nat) : Bool := decide (new ≠ old) || !(decide (op = 11) || decide (12 ≤ op))

/-- Whether an atomic executes in the issuing die's LLC (09 R186); one to an uncached page is reached at its home (10 R212). -/
def nearAtomic (pa ap mode scope : Nat) : Bool := !isBank pa && decide (mode ≠ 2) && decide (ap = 0) && decide (scope ≤ 4)

def AtomLane.near (l : AtomLane) (scope : Nat) : Bool := nearAtomic l.pa l.ap l.mode scope

/-- Changes one lane of an atomic. -/
def State.modAtom (s : State) (op lane : Nat) (f : AtomLane → AtomLane) : State :=
  { s with atoms := s.atoms.map fun x =>
      if x.id = op then { x with lanes := x.lanes.map fun l => if l.lane = lane then f l else l } else x }

/-- A near atomic's write-through towards the home, under the atomic's own id. -/
def State.writeThrough (s : State) (x : AtomOp) (l : AtomLane) (bs : List Byte) : State :=
  let (q, s) := s.fresh
  let s := s.guestWrite x.die l.pa bs false
  let m : WriteLane :=
    { lane := l.lane, va := l.va, pa := l.pa, mode := 0, data := bs, poison := false, stage := 1, seq := q, denied := 0, deniedAt := 0 }
  if s.writes.any fun w => w.id == x.id then
    { s with writes := s.writes.map fun w => if w.id = x.id then { w with lanes := w.lanes ++ [m], acked := false } else w }
  else
    { s with writes := s.writes ++ [{ id := x.id, owner := x.owner, core := x.core, die := x.die, ctx := x.ctx, pc := x.pc, tagged := false,
                                      umask := none, counted := false, ordered := none, through := true, lanes := [m], acked := false }] }

/-- Stores the result of an atomic where it executes. -/
def State.atomWrite (s : State) (x : AtomOp) (l : AtomLane) (bs : List Byte) : State :=
  if l.near x.scope && !ownHome x.die l.pa then s.writeThrough x l bs else s.homeWrite l.pa bs

/-- A lane of an atomic executes (09 R206). -/
def State.atomLane (s : State) (x : AtomOp) (l : AtomLane) : State :=
  let w := atomWidth x.op
  let near := l.near x.scope
  let s := s.dropL1 x.core (lineOf l.pa)
  if s.atomDenied l.pa w then
    (s.logDenial (if near then x.die else dieOfPa l.pa)).modAtom x.id l.lane fun y => { y with stage := 1, denied := true }
  else
    let r := if near then s.dieRead x.die l.pa w else (s.homeRead l.pa w, s.forgetGuest x.die l.pa w)
    let old := r.1.map Prod.fst
    let bad := r.1.any Prod.snd
    let new := atomNew x.op (leNat old) l.data
    let q := r.2.clearSticky l.pa w
    let s := if (if bad then decide (x.op = 10) else atomWrites x.op (leNat old) new) then q.atomWrite x l (leBytes w new) else q
    (s.modAtom x.id l.lane fun y => { y with stage := 1, old := old, poisoned := bad }).observe x.owner

/-- An atomic lane may execute: the lower lanes, the older stores and atomics to its bytes, and its owner's older loads of them are done;
one at the home waits for every write of its die that a load may have read there (10 R213). -/
def State.atomReady (s : State) (x : AtomOp) (l : AtomLane) : Bool :=
  let w := atomWidth x.op
  let near := l.near x.scope
  s.awake l.pa &&
  (x.lanes.all fun m => decide (l.lane ≤ m.lane) || decide (m.stage ≠ 0)) &&
  (!x.ordered || s.orderedBefore x.owner x.id x.scope) &&
  (s.atoms.all fun y => !(y.core == x.core && decide (y.id < x.id) &&
    y.lanes.any fun m => decide (m.stage = 0) && meets m.pa (atomWidth y.op) l.pa w)) &&
  (s.writes.all fun y => !((y.core == x.core && decide (y.id < x.id)) || (y.die == x.die && !near)) ||
    y.lanes.all fun m => !meets m.pa m.data.length l.pa w ||
      (if near then decide (m.stage ≠ 0) && (decide (m.mode ≠ 2) || decide (m.stage = 2))
       else decide (m.stage = 2) || (decide (m.stage = 0) && decide (x.id < y.id)))) &&
  (!near || s.lineRoom x.die l.pa l.mode) &&
  (!near || ownHome x.die l.pa ||
    !(s.underWay x.die l.pa w) ||
    ((s.die x.die).guestLine (lineOf l.pa)).valid &&& wordMask l.pa w == wordMask l.pa w) &&
  (s.loads.all fun y => !(y.owner == x.owner && decide (y.id < x.id) &&
    y.lanes.any fun m => m.pending y.bytes l.pa w))

/-- ATOMIC_EXECUTES. -/
def State.atomExecutes (s : State) (op lane : Nat) : Option State :=
  match s.atoms.find? fun x => x.id == op with
  | none => none
  | some x =>
    match x.lanes.find? fun l => l.lane == lane && decide (l.stage = 0) with
    | none => none
    | some l => if s.atomReady x l then some (s.atomLane x l) else none

/-- ATOMIC_EXECUTES. -/
def execAtomicExecutes (op lane : Nat) (s : State) : Out := event (s.atomExecutes op lane) s

/-- The reply of one lane: the old value, or none where the lane was denied (09 R201) or its data poisoned (21 R380). -/
def State.atomReplyLane (s : State) (x : AtomOp) (l : AtomLane) : State :=
  match x.owner with
  | .gang h g =>
    if l.denied || l.poisoned then s.refill h g l.lane l.dst
    else s.writeEntries h g l.lane l.dst ((List.range (atomWidth x.op / 4)).map fun j => BitVec.ofNat 32 (field l.old (4 * j) 4))
  | _ => s

/-- A fault of some lanes of an atomic, once its reply is whole: one record, which names them and the address of the lowest. -/
def State.atomFault (s : State) (x : AtomOp) (p : AtomLane → Bool) (kind : Nat) (detail : AtomLane → Nat) : State :=
  match x.owner, x.lanes.filter p with
  | .gang h g, l :: t =>
    s.raiseLater h g (.lane kind x.pc (t.foldl (fun m y => m ||| laneBit y.lane) (laneBit l.lane)) (detail l) l.va)
  | _, _ => s

/-- The faults of an atomic whose every lane has replied: the denied lanes' PERM cause 7, then the poisoned lanes' POISON. -/
def State.atomFaults (s : State) (x : AtomOp) : State :=
  (s.atomFault x (fun l => l.denied) kPERM fun _ => 7).atomFault x (fun l => !l.denied && l.poisoned) kPOISON fun l => poisonSource l.pa

/-- ATOMIC_REPLY. -/
def State.atomReply (s : State) (op lane : Nat) : Option State :=
  match s.atoms.find? fun x => x.id == op with
  | none => none
  | some x =>
    match x.lanes.find? fun l => l.lane == lane && decide (l.stage = 1) with
    | none => none
    | some l =>
      let s := (s.modAtom op lane fun y => { y with stage := 2 }).atomReplyLane x l
      some (if x.lanes.all fun m => m.lane == lane || decide (m.stage = 2) then s.atomFaults x else s).settle

/-- ATOMIC_REPLY. -/
def execAtomicReply (op lane : Nat) (s : State) : Out := event (s.atomReply op lane) s

end Sys2Proof.Machine
end

