-- ==== Sys2Proof/Machine/Global.lean ====
section
/-!
DEFINITION. Global loads and stores, prefetch, atomics, uniform loads and stores, routing bitmaps (09 R202-R209), WAITA
and its monitors (10 R223-R225).
-/
namespace Sys2Proof.Machine

open Sys2Proof

/-- What the checks of one lane found, the address checked, and the mode of its access. -/
structure LaneCheck where
  lane : Nat
  va : Nat
  res : Checked
  mode : Nat
  deriving DecidableEq, Repr

/-- ea(i): the 64-bit base of an s pair, as read at issue, and the unsigned lane offset (09 before R202). -/
def State.ea (s : State) (c : LaneCtx) (sb a : BitVec 5) (i : Nat) : Nat :=
  (s.baseOf (.gang c.h c.g) c.e sb.toNat + (s.val c a.toNat i).toNat) % 2 ^ 64

/-- Checks one address of a core's access; a load that hits its L1 is not translated (09 R188), and a store or atomic
drops the cluster's copies under other addresses (R189). -/
def State.checkOne (s : State) (core ctx va align n pol : Nat) (a : Access) : (Checked × Nat) × State :=
  let k := keyCluster core
  match (if a = .read ∧ va % align = 0 ∧ canonical va then (s.core core).l1Line ctx va else none) with
  | some x => ((.ok (128 * x.pline + va % 128) 0, if pol = 2 then 1 else if pol = 1 || x.stream then 3 else 0), s)
  | none =>
    match s.check k ctx va align n a with
    | (.ok pa leaf, s) => ((.ok pa leaf, s.accessMode leaf pa pol a.writes), if a.writes then s.dropOthers k ctx va (lineOf pa) else s)
    | (r, s) => ((r, 0), s)

/-- Checks the lanes of a word in ascending order. -/
def State.checkLanes (s : State) (h : Nat) (m : LaneMask) (ea : Nat → Nat) (align n pol : Nat) (a : Access) :
    List LaneCheck × State :=
  (lanesOf m).foldl (fun r i =>
    let q := r.2.checkOne (hCore h) (s.ctxOf h) (ea i) align n pol a
    (r.1 ++ [{ lane := i, va := ea i, res := q.1.1, mode := q.1.2 }], q.2)) ([], s)

def Checked.isOk (c : Checked) : Bool :=
  match c with
  | .ok _ _ => true
  | _ => false
def Checked.isAlign (c : Checked) : Bool := c == .align
def Checked.isPerm (c : Checked) : Bool :=
  match c with
  | .perm _ => true
  | _ => false
def Checked.isPage (c : Checked) : Bool :=
  match c with
  | .page _ _ => true
  | _ => false
def Checked.pa (c : Checked) : Nat :=
  match c with
  | .ok pa _ => pa
  | _ => 0
def Checked.leaf (c : Checked) : Nat :=
  match c with
  | .ok _ leaf => leaf
  | _ => 0

/-- The lanes of checks that satisfy a test. -/
def checkMask (l : List LaneCheck) (p : Checked → Bool) : LaneMask :=
  l.foldl (fun m x => if p x.res then m ||| laneBit x.lane else m) 0

/-- The detail word of a failed check (09 Table 9-3). -/
def Checked.detail (c : Checked) (a : Access) : Nat :=
  match c with
  | .perm n => n
  | .page n l => pageDetail n l a
  | _ => 0

/-- Raises the fault of one kind in its lanes; the record names the lowest. -/
def State.raiseKind (s : State) (h g : Nat) (e : Entry) (l : List LaneCheck) (kind : Nat) (p : Checked → Bool) (a : Access) : State :=
  match l.find? fun x => p x.res with
  | none => s
  | some x =>
    let m := checkMask l p
    s.raise h g (.lane kind e.pc m (x.res.detail a) x.va) { e with mask := m }

/-- Faults of an access word: the record takes the first of ALIGN, PERM and PAGE (09 R191); lanes whose writes meet a
migrating page wait (R194). -/
def State.raiseChecks (s : State) (h g : Nat) (e : Entry) (l : List LaneCheck) (a : Access) : State :=
  let s := s.raiseKind h g e l kALIGN Checked.isAlign a
  let s := s.raiseKind h g e l kPERM Checked.isPerm a
  let s := s.raiseKind h g e l kPAGE Checked.isPage a
  s.putEntry h g { e with mask := checkMask l fun c => c == .mig, st := .migration, qkeep := [] }

/-- Faults, and the other lanes go on. -/
def State.finishAccess (s : State) (c : LaneCtx) (l : List LaneCheck) (a : Access) : State :=
  (s.raiseChecks c.h c.g c.e l a).advance c.h c.g c.e (c.e.mask &&& ~~~checkMask l fun r => !r.isOk)

/-! ## Loads -/

/-- Registers of a group of `n`. -/
def group (d : BitVec 5) (n : Nat) : List Nat := (List.range n).map fun j => d.toNat + j

/-- A load word: `n` bytes a lane into `r` registers. -/
def loadWord (d a sb : BitVec 5) (g : BitVec 3) (n r : Nat) (signed : Bool) (pol : Nat) (acq : Option Nat) (s : State) : Out :=
  s.lane { guard := g.toNat, srcs := [(a.toNat, false)], dsts := group d r } fun c s =>
    s.gate (.gang c.h c.g) c.e fun s => s.counted (.gang c.h c.g) c.e 0 fun s =>
      let q := s.checkLanes c.h c.act (s.ea c sb a) n n pol .read
      let (id, s) := q.2.fresh
      let ok := q.1.filter fun x => x.res.isOk
      let lanes := ok.map fun x =>
        ({ lane := x.lane, va := x.va, pa := x.res.pa, mode := x.mode, dst := s.entriesOf c.h c.g x.lane (group d r), landed := false, got := [] } : LoadLane)
      let s := ok.foldl (fun s x => s.markLane c.h c.g x.lane (group d r) .empty) s
      let op : LoadOp :=
        { id := id, owner := .gang c.h c.g, core := hCore c.h, ctx := s.ctxOf c.h, pc := c.e.pc, bytes := n,
          signed := signed, uniform := false, counted := true, acq := acq, lanes := lanes, fixed := [] }
      ({ s with loads := s.loads ++ [op] }.finishAccess c q.1 .read).settle

/-- LD8 (09 R202). -/
def execLd8 (w : LM) (s : State) : Out := loadWord w.d w.a w.sb w.g 1 1 false w.pol.toNat none s
/-- LD8S. -/
def execLd8s (w : LM) (s : State) : Out := loadWord w.d w.a w.sb w.g 1 1 true w.pol.toNat none s
/-- LD16. -/
def execLd16 (w : LM) (s : State) : Out := loadWord w.d w.a w.sb w.g 2 1 false w.pol.toNat none s
/-- LD16S. -/
def execLd16s (w : LM) (s : State) : Out := loadWord w.d w.a w.sb w.g 2 1 true w.pol.toNat none s
/-- LD32. -/
def execLd32 (w : LM) (s : State) : Out := loadWord w.d w.a w.sb w.g 4 1 false w.pol.toNat none s
/-- LD64. -/
def execLd64 (w : LM) (s : State) : Out := loadWord w.d w.a w.sb w.g 8 2 false w.pol.toNat none s
/-- LD128. -/
def execLd128 (w : LM) (s : State) : Out := loadWord w.d w.a w.sb w.g 16 4 false w.pol.toNat none s
/-- LDAQ32 (09 R204): normal policy, then an acquire. -/
def execLdaq32 (w : LMS) (s : State) : Out := loadWord w.d w.a w.sb w.g 4 1 false 0 (some w.scope.toNat) s
/-- LDAQ64. -/
def execLdaq64 (w : LMS) (s : State) : Out := loadWord w.d w.a w.sb w.g 8 2 false 0 (some w.scope.toNat) s

/-- PREF (09 R205): never faults; a lane that fails a check is dropped; no alignment, no count. A lane whose v[a] is poisoned raises POISON,
as every word that reads a poisoned register does (21 R380): DESIGN CHOICE beside R205 (log 92). -/
def execPref (w : LMPref) (s : State) : Out :=
  s.lane { guard := w.g.toNat, srcs := [(w.a.toNat, false)] } fun c s =>
    s.gate (.gang c.h c.g) c.e fun s =>
      let q := s.checkLanes c.h c.act (s.ea c w.sb w.a) 1 1 w.pol.toNat .read
      let (id, s) := q.2.fresh
      let lanes := (q.1.filter fun x => x.res.isOk && decide (x.mode ≠ 2)).map fun x =>
        ({ lane := x.lane, va := x.va, pa := x.res.pa, mode := x.mode, dst := [], landed := false, got := [] } : LoadLane)
      let op : LoadOp :=
        { id := id, owner := .engine, core := hCore c.h, ctx := s.ctxOf c.h, pc := c.e.pc, bytes := 1,
          signed := false, uniform := false, counted := false, acq := none, lanes := lanes, fixed := [] }
      ({ s with loads := s.loads ++ [op] }.laneDone c).settle

/-! ## Stores -/

/-- Takes a store tag for a word, if one of the gang's 16 is free (09 R200). -/
def State.takeTag (s : State) (h g id : Nat) (pc : Word) : Bool × State :=
  if 16 ≤ (s.gang h g).tags.length then (false, s)
  else (true, s.modGang h g fun gg => { gg with tags := gg.tags ++ [(id, pc)] })

/-- The bytes of consecutive registers of a lane, `n` of them. -/
def State.laneBytes (s : State) (c : LaneCtx) (d : BitVec 5) (n i : Nat) : List Byte :=
  ((List.range ((n + 3) / 4)).flatMap fun j => leBytes 4 (s.val c (d.toNat + j) i).toNat).take n

/-- Sends a store of some lanes to the core point; `ordered` is the scope of an ordered one. -/
def State.sendStore (s : State) (w : Who) (pc : Word) (umask : Option LaneMask) (ordered : Option Nat) (lanes : List (Nat × Nat × Nat × Nat × List Byte)) : State :=
  let (id, s) := s.fresh
  let (h, g) := s.gangOf w
  let (tagged, s) := s.takeTag h g id pc
  let lanes := lanes.map fun x =>
    ({ lane := x.1, va := x.2.1, pa := x.2.2.1, mode := x.2.2.2.1, data := x.2.2.2.2, poison := false, stage := 0, seq := 0, denied := 0, deniedAt := 0 } : WriteLane)
  let wr : WriteOp :=
    { id := id, owner := w.owner, core := coreOf w, die := w.die, ctx := s.whoCtx w, pc := pc, tagged := tagged, umask := umask, counted := true,
      ordered := ordered, through := false, acked := false, lanes := lanes }
  { s with writes := s.writes ++ [wr] }

/-- The checks and the issue of a store word's lanes. -/
def State.storeLanes (s : State) (c : LaneCtx) (d a sb : BitVec 5) (n pol : Nat) (ordered : Option Nat) : State :=
  s.counted (.gang c.h c.g) c.e 1 fun s =>
    let q := s.checkLanes c.h c.act (s.ea c sb a) n n pol .write
    let ok := q.1.filter fun x => x.res.isOk
    (q.2.sendStore (.gang c.h c.g) c.e.pc none ordered
      (ok.map fun x => (x.lane, x.va, x.res.pa, x.mode, s.laneBytes c d n x.lane))).finishAccess c q.1 .write

/-- A plain store word: `n` bytes a lane from `r` registers (09 R203). -/
def storeWord (w : LMSt) (n r : Nat) (s : State) : Out :=
  s.lane { guard := w.g.toNat, srcs := (w.a.toNat, false) :: (group w.d r).map fun k => (k, w.ea) } fun c s =>
    s.gate (.gang c.h c.g) c.e fun s => s.storeLanes c w.d w.a w.sb n w.pol.toNat none

/-- ST8 (09 R203). -/
def execSt8 (w : LMSt) (s : State) : Out := storeWord w 1 1 s
/-- ST16. -/
def execSt16 (w : LMSt) (s : State) : Out := storeWord w 2 1 s
/-- ST32. -/
def execSt32 (w : LMSt) (s : State) : Out := storeWord w 4 1 s
/-- ST64. -/
def execSt64 (w : LMSt) (s : State) : Out := storeWord w 8 2 s
/-- ST128. -/
def execSt128 (w : LMSt) (s : State) : Out := storeWord w 16 4 s

/-- A store with a release before it (09 R204); it also follows the gang's earlier ordered accesses (10 R221). -/
def storeRelease (w : LMS) (n r : Nat) (s : State) : Out :=
  s.lane { guard := w.g.toNat, srcs := [(w.a.toNat, false)], third := group w.d r } fun c s =>
    let who := Who.gang c.h c.g
    let scope := w.scope.toNat
    let base := s.baseOf who c.e w.sb.toNat
    s.gate who c.e fun s => s.hasCount who c.e 1 fun s => s.release who c.e scope base fun s =>
      if s.orderedBefore who.owner s.nextId scope then s.storeLanes c w.d w.a w.sb n 0 (some scope)
      else s.stayAt who c.e (.stall (.release scope (s.upto c.e) base))

/-- STRL32. -/
def execStrl32 (w : LMS) (s : State) : Out := storeRelease w 4 1 s
/-- STRL64. -/
def execStrl64 (w : LMS) (s : State) : Out := storeRelease w 8 2 s

/-! ## Atomics -/

/-- Registers of an atomic's data, and those that receive the old value. -/
def atomData (op : Nat) : Nat := if op = 1 ∨ op = 12 then 2 else if op = 13 then 4 else if op = 14 then 8 else 1
def atomRet (op : Nat) : Nat := atomWidth op / 4

/-- A global atomic (09 R206); `ord` bit 0 acquire, bit 1 release. -/
def atomWord (w : LAtom) (op : Nat) (s : State) : Out :=
  s.lane { guard := w.g.toNat, srcs := [(w.a.toNat, false)], third := group w.d (atomData op) } fun c s =>
    let who := Who.gang c.h c.g
    s.gate who c.e fun s =>
      let run (s : State) : State := s.counted who c.e 1 fun s =>
        let n := atomWidth op
        let q := s.checkLanes c.h c.act (s.ea c w.sb w.a) n n 0 (.atomic op)
        let (id, s') := q.2.fresh
        let ok := q.1.filter fun x => x.res.isOk
        let lanes := ok.map fun x =>
          ({ lane := x.lane, va := x.va, pa := x.res.pa, ap := pteAp x.res.leaf, mode := x.mode,
             data := (group w.d (atomData op)).map fun k => s.val c k x.lane,
             dst := s.entriesOf c.h c.g x.lane (group w.d (atomRet op)), stage := 0, old := [], poisoned := false, denied := false } : AtomLane)
        let s' := ok.foldl (fun s x => s.markLane c.h c.g x.lane (group w.d (atomRet op)) .empty) s'
        let new : AtomOp :=
          { id := id, owner := .gang c.h c.g, core := hCore c.h, die := hDie c.h, ctx := s.ctxOf c.h, pc := c.e.pc,
            op := op, scope := w.scope.toNat, acq := w.ord.getLsbD 0, ordered := decide (w.ord ≠ 0), lanes := lanes }
        ({ s' with atoms := s'.atoms ++ [new] }.finishAccess c q.1 (.atomic op)).settle
      if w.ord.getLsbD 1 then s.hasCount who c.e 1 fun s => s.release who c.e w.scope.toNat (s.baseOf who c.e w.sb.toNat) run
      else run s

/-- ATOM.ADD (09 R206). -/
def execAtomAdd (w : LAtom) (s : State) : Out := atomWord w 0 s
/-- ATOM.ADD64. -/
def execAtomAdd64 (w : LAtom) (s : State) : Out := atomWord w 1 s
/-- ATOM.FADD. -/
def execAtomFadd (w : LAtom) (s : State) : Out := atomWord w 2 s
/-- ATOM.IMIN. -/
def execAtomImin (w : LAtom) (s : State) : Out := atomWord w 3 s
/-- ATOM.IMAX. -/
def execAtomImax (w : LAtom) (s : State) : Out := atomWord w 4 s
/-- ATOM.IMINU. -/
def execAtomIminu (w : LAtom) (s : State) : Out := atomWord w 5 s
/-- ATOM.IMAXU. -/
def execAtomImaxu (w : LAtom) (s : State) : Out := atomWord w 6 s
/-- ATOM.AND. -/
def execAtomAnd (w : LAtom) (s : State) : Out := atomWord w 7 s
/-- ATOM.OR. -/
def execAtomOr (w : LAtom) (s : State) : Out := atomWord w 8 s
/-- ATOM.XOR. -/
def execAtomXor (w : LAtom) (s : State) : Out := atomWord w 9 s
/-- ATOM.XCHG. -/
def execAtomXchg (w : LAtom) (s : State) : Out := atomWord w 10 s
/-- ATOM.INCB. -/
def execAtomIncb (w : LAtom) (s : State) : Out := atomWord w 11 s
/-- ATOM.CAS32. -/
def execAtomCas32 (w : LAtom) (s : State) : Out := atomWord w 12 s
/-- ATOM.CAS64. -/
def execAtomCas64 (w : LAtom) (s : State) : Out := atomWord w 13 s
/-- ATOM.CAS128. -/
def execAtomCas128 (w : LAtom) (s : State) : Out := atomWord w 14 s

/-- The atomics at their opcodes of map 2 (03 R54). -/
def execAtomAddMap2 (w : LAtom) (s : State) : Out := atomWord w 0 s
/-- ATOM.ADD64, map 2. -/
def execAtomAdd64Map2 (w : LAtom) (s : State) : Out := atomWord w 1 s
/-- ATOM.FADD, map 2. -/
def execAtomFaddMap2 (w : LAtom) (s : State) : Out := atomWord w 2 s
/-- ATOM.IMIN, map 2. -/
def execAtomIminMap2 (w : LAtom) (s : State) : Out := atomWord w 3 s
/-- ATOM.IMAX, map 2. -/
def execAtomImaxMap2 (w : LAtom) (s : State) : Out := atomWord w 4 s
/-- ATOM.IMINU, map 2. -/
def execAtomIminuMap2 (w : LAtom) (s : State) : Out := atomWord w 5 s
/-- ATOM.IMAXU, map 2. -/
def execAtomImaxuMap2 (w : LAtom) (s : State) : Out := atomWord w 6 s
/-- ATOM.AND, map 2. -/
def execAtomAndMap2 (w : LAtom) (s : State) : Out := atomWord w 7 s
/-- ATOM.OR, map 2. -/
def execAtomOrMap2 (w : LAtom) (s : State) : Out := atomWord w 8 s
/-- ATOM.XOR, map 2. -/
def execAtomXorMap2 (w : LAtom) (s : State) : Out := atomWord w 9 s
/-- ATOM.XCHG, map 2. -/
def execAtomXchgMap2 (w : LAtom) (s : State) : Out := atomWord w 10 s
/-- ATOM.INCB, map 2. -/
def execAtomIncbMap2 (w : LAtom) (s : State) : Out := atomWord w 11 s
/-- ATOM.CAS32, map 2. -/
def execAtomCas32Map2 (w : LAtom) (s : State) : Out := atomWord w 12 s
/-- ATOM.CAS64, map 2. -/
def execAtomCas64Map2 (w : LAtom) (s : State) : Out := atomWord w 13 s
/-- ATOM.CAS128, map 2. -/
def execAtomCas128Map2 (w : LAtom) (s : State) : Out := atomWord w 14 s

/-! ## Uniform loads and stores (09 R207) -/

/-- A uniform word's failed check: the whole entry. -/
def State.raiseUniChecked (s : State) (w : Who) (e : Entry) (va : Nat) (r : Checked) (a : Access) : State :=
  match r with
  | .mig =>
    match w with
    | .gang h g => s.putEntry h g { e with st := .migration }
    | .stream k i => s.modStream k i fun x => { x with st := .migration }
  | .align => s.raiseUniform w e kALIGN 0 va
  | .perm c => s.raiseUniform w e kPERM c va
  | .page c l => s.raiseUniform w e kPAGE (pageDetail c l a) va
  | .ok _ _ => s

/-- ea of a uniform access: imm8 counts unsigned words, as 09 R207 and 02 R30 give the offsets 0 to 1,020 (log 63). -/
def State.uea (s : State) (w : Who) (a : BitVec 5) (imm : BitVec 8) : Nat := (s.spair w a.toNat + imm.toNat * 4) % 2 ^ 64

/-- A stream's word that waits for every earlier word of the stream (16 R321). -/
def State.drained (s : State) (w : Who) (e : Entry) (k : State → State) : State :=
  if s.streamDrained w then k s else s.stayAt w e (.stall .streamDrain)

/-- A uniform load of `r` words: the entry waits for the data. -/
def uniformLoad (w : UI) (r : Nat) (s : State) : Out :=
  s.uniform w.c fun who e s =>
    s.drained who e fun s => s.gate who e fun s =>
      let va := s.uea who w.a w.imm
      let q := s.checkOne (coreOf who) (s.whoCtx who) va (4 * r) (4 * r) 0 .read
      if q.1.1.isOk then
        let (id, s) := q.2.fresh
        let op : LoadOp :=
          { id := id, owner := who.owner, core := coreOf who, ctx := s.whoCtx who, pc := e.pc, bytes := 4 * r,
            signed := false, uniform := true, counted := false, acq := none, fixed := [],
            lanes := [{ lane := 0, va := va, pa := q.1.1.pa, mode := q.1.2, dst := group w.d r, landed := false, got := [] }] }
        { s with loads := s.loads ++ [op] }.stayAt who e (.stall (.load id))
      else q.2.raiseUniChecked who e va q.1.1 .read

/-- ULD32. -/
def execUld32 (w : UI) (s : State) : Out := uniformLoad w 1 s
/-- ULD64. -/
def execUld64 (w : UI) (s : State) : Out := uniformLoad w 2 s

/-- A uniform store of `r` words. -/
def uniformStore (w : UI) (r : Nat) (s : State) : Out :=
  s.uniform w.c fun who e s =>
    s.drained who e fun s => s.gate who e fun s => s.counted who e 1 fun s =>
      let va := s.uea who w.a w.imm
      let q := s.checkOne (coreOf who) (s.whoCtx who) va (4 * r) (4 * r) 0 .write
      if q.1.1.isOk then
        (q.2.sendStore who e.pc (some e.mask) none [(0, va, q.1.1.pa, q.1.2,
          (List.range r).flatMap fun j => leBytes 4 (s.sreg who (w.d.toNat + j)).toNat)]).nextWord who e
      else (q.2.addCount who 1 (· - 1)).raiseUniChecked who e va q.1.1 .write

/-- UST32. -/
def execUst32 (w : UI) (s : State) : Out := uniformStore w 1 s
/-- UST64. -/
def execUst64 (w : UI) (s : State) : Out := uniformStore w 2 s

/-! ## Routing bitmaps (09 R208, R209) -/

/-- Outcome of reading part of a line, or of a lane's word; `wait` names an address that cannot be read yet. -/
inductive BmRes (α : Type)
  | ok (v : α)
  | failed (c : Checked) (va : Nat)
  | poison (va pa : Nat)
  | wait (pa : Nat)
  deriving DecidableEq, Repr

/-- Reads `n` bytes of one line as a gang's core sees them, checked as a read of the whole line. -/
def State.readLine (s : State) (h g va n pol : Nat) : BmRes (List Byte) × State :=
  let core := hCore h
  let q := s.checkOne core (s.ctxOf h) (va / 128 * 128) 1 128 pol .read
  if q.1.1.isOk then
    let pa := q.1.1.pa + va % 128
    if q.2.readable (.gang h g) (hDie h) q.2.nextId pa n q.1.2 none then
      let r := q.2.coreRead core (hDie h) (s.ctxOf h) va pa n q.1.2
      let bs := r.2.overlay core r.2.nextId pa r.1
      if bs.any Prod.snd then (.poison va pa, r.2) else (.ok (bs.map Prod.fst), r.2)
    else (.wait pa, q.2)
  else (.failed q.1.1 (va / 128 * 128), q.2)

/-- A word waits to read an address: for what is under way to it, or for its home to be accessible (23 R397). -/
def State.waitAt (s : State) (w : Who) (e : Entry) (pa : Nat) : State :=
  s.stayAt w e (.stall (if s.awake pa then .held else .asleep pa))

/-- The address that a read waits for. -/
def BmRes.waits {α : Type} (r : BmRes α) : Option Nat :=
  match r with
  | .wait pa => some pa
  | _ => none

/-- Continues after a read. -/
def BmRes.bind {α β : Type} (r : BmRes α × State) (k : α → State → BmRes β × State) : BmRes β × State :=
  match r.1 with
  | .ok v => k v r.2
  | .failed c va => (.failed c va, r.2)
  | .poison va pa => (.poison va pa, r.2)
  | .wait pa => (.wait pa, r.2)

/-- Address of unit 1 + j. -/
def bmUnit (base j : Nat) : Nat := (base + 128 * (1 + j)) % 2 ^ 64

/-- Set bits of a block below a position. -/
def bitsBelow (block n : Nat) : Nat := ((List.range n).filter fun i => block.testBit i).length

/-- Position of the set bit of rank `r` in a block of 512. -/
def selectBit (block r : Nat) : Option Nat := (List.range 512).find? fun p => block.testBit p && bitsBelow block p == r

/-- BMRANK of one value. -/
def State.bmRank (s : State) (h g base p pol : Nat) : BmRes Word × State :=
  BmRes.bind (s.readLine h g base 8 pol) fun hd s =>
    if 512 * field hd 0 4 ≤ p then (.ok (BitVec.allOnes 32), s)
    else
      BmRes.bind (s.readLine h g (bmUnit base (p / 512)) 68 pol) fun u s =>
        let block := field u 0 64
        let r := (field u 64 4 + bitsBelow block (p % 512)) % 2 ^ 32
        (.ok (BitVec.ofNat 32 r ||| (if block.testBit (p % 512) then 0 else 0x80000000)), s)

/-- The binary search of BMSEL. -/
def State.bmSearch (s : State) (h g base n pol : Nat) (lo hi fuel : Nat) : BmRes Nat × State :=
  match fuel with
  | 0 => (.ok lo, s)
  | fuel + 1 =>
    if lo < hi then
      let mid := (lo + hi + 1) / 2
      match s.readLine h g (bmUnit base mid + 64) 4 pol with
      | (.ok c, s) => if field c 0 4 ≤ n then s.bmSearch h g base n pol mid hi fuel else s.bmSearch h g base n pol lo (mid - 1) fuel
      | (.failed c va, s) => (.failed c va, s)
      | (.poison va pa, s) => (.poison va pa, s)
      | (.wait pa, s) => (.wait pa, s)
    else (.ok lo, s)

/-- BMSEL of one value. -/
def State.bmSel (s : State) (h g base n pol : Nat) : BmRes Word × State :=
  BmRes.bind (s.readLine h g base 8 pol) fun hd s =>
    let b := field hd 0 4
    if field hd 4 4 ≤ n ∨ b = 0 then (.ok (BitVec.allOnes 32), s)
    else
      BmRes.bind (s.bmSearch h g base n pol 0 (b - 1) 33) fun j s =>
        BmRes.bind (s.readLine h g (bmUnit base j) 68 pol) fun u s =>
          let count := field u 64 4
          if n < count then (.ok (BitVec.allOnes 32), s)
          else
            match selectBit (field u 0 64) (n - count) with
            | none => (.ok (BitVec.allOnes 32), s)
            | some p => (.ok (BitVec.ofNat 32 (512 * j + p)), s)

/-- Runs the reads of the active lanes in ascending order. -/
def State.bmLanes (s : State) (f : State → Nat → BmRes Word × State) (ls : List Nat) : List (Nat × BmRes Word) × State :=
  ls.foldl (fun r i => let q := f r.2 i; (r.1 ++ [(i, q.1)], q.2)) ([], s)

/-- BMRANK and BMSEL: the lines are read as snapshots at the issue; the values land with LOAD_DATA_LANDS (log 16), each as if from the
header's line. -/
def bmWord (w : LM) (sel : Bool) (s : State) : Out :=
  s.lane { guard := w.g.toNat, srcs := [(w.a.toNat, false)], dsts := [w.d.toNat] } fun c s =>
    let who := Who.gang c.h c.g
    s.gate who c.e fun s =>
      let base := s.spair who w.sb.toNat
      let pol := w.pol.toNat
      let q := s.bmLanes (fun t i =>
        let v := (s.val c w.a.toNat i).toNat
        if base % 128 ≠ 0 then (.failed .align base, t)
        else if sel then t.bmSel c.h c.g base v pol else t.bmRank c.h c.g base v pol) (lanesOf c.act)
      match q.1.findSome? fun p => p.2.waits with
      | some pa => q.2.waitAt who c.e pa
      | none =>
        q.2.counted who c.e 0 fun s =>
          let checks := q.1.filterMap fun p => match p.2 with
            | .failed r va => some ({ lane := p.1, va := va, res := r, mode := 0 } : LaneCheck)
            | _ => none
          let good := q.1.filter fun p => match p.2 with
            | .failed _ _ => false
            | _ => true
          let (id, s) := s.fresh
          let lanes := good.map fun p =>
            ({ lane := p.1, va := (match p.2 with
                | .poison va _ => va
                | _ => base), pa := (match p.2 with
                | .poison _ pa => pa
                | _ => s.walkPa (s.ctxOf c.h) base), mode := 0, dst := s.entriesOf c.h c.g p.1 [w.d.toNat], landed := false, got := [] } : LoadLane)
          let s := good.foldl (fun s p => s.markLane c.h c.g p.1 [w.d.toNat] .empty) s
          let bad := checkMask checks fun _ => true
          let op : LoadOp :=
            { id := id, owner := .gang c.h c.g, core := hCore c.h, ctx := s.ctxOf c.h, pc := c.e.pc, bytes := 4,
              signed := false, uniform := false, counted := true, acq := none, lanes := lanes,
              fixed := good.map fun p => (p.1, match p.2 with
              | .ok v => some v
              | _ => none) }
          let s := { s with loads := s.loads ++ [op] }
          let s := s.raiseChecks c.h c.g c.e checks .read
          if lanes = [] then (s.advance c.h c.g c.e (c.e.mask &&& ~~~bad)).settle
          else s.putEntry c.h c.g { c.e with mask := c.e.mask &&& ~~~bad, st := .stall (.load id) }

/-- BMRANK (09 R209). -/
def execBmrank (w : LM) (s : State) : Out := bmWord w false s
/-- BMSEL (09 R209). -/
def execBmsel (w : LM) (s : State) : Out := bmWord w true s

/-! ## WAITA (10 R223-R225) -/

/-- Reads a lane's word at the scope's point: a read made past the L1 leaves no older copy on the way. -/
def State.waitRead (s : State) (h : Nat) (x : LaneCheck) (scope : Nat) : List PByte × State :=
  let core := hCore h
  let die := hDie h
  let pa := x.res.pa
  if scope ≤ 2 then
    let r := s.coreRead core die (s.ctxOf h) x.va pa 4 x.mode
    (r.2.overlay core r.2.nextId pa r.1, r.2)
  else if scope ≤ 4 ∧ x.mode ≠ 2 then (s.dropL1 core (lineOf pa)).dieRead die pa 4
  else s.coreRead core die (s.ctxOf h) x.va pa 4 2

/-- Whether every write of the core that the lane may have read or written has reached the point that it now reads (10 R213). -/
def State.waitReady (s : State) (h g : Nat) (x : LaneCheck) (scope : Nat) : Bool :=
  s.readable (.gang h g) (hDie h) s.nextId x.res.pa 4 (if 5 ≤ scope then 2 else x.mode) none &&
  (decide (scope ≤ 2) || s.writes.all fun w => !(w.core == hCore h) ||
    w.lanes.all fun l => !meets l.pa l.data.length x.res.pa 4 || decide (1 ≤ l.stage))

/-- Arms monitors for the lines of the waiting lanes, if enough are free (10 R224). -/
def State.arm (s : State) (h g : Nat) (m : LaneMask) (point : Nat) (lines : List Nat) : Bool × State :=
  if 16 < (s.core (hCore h)).monitors.length + lines.length then (false, s)
  else (true, s.modCore (hCore h) fun c =>
    { c with monitors := c.monitors ++ lines.map fun pl => { h := h, g := g, mask := m, point := point, pline := pl } })

/-- WAITA. -/
def execWaita (w : LMS) (s : State) : Out :=
  s.lane { guard := w.g.toNat, srcs := [(w.a.toNat, false)], third := [w.d.toNat] } fun c s =>
    let who := Who.gang c.h c.g
    let scope := w.scope.toNat
    match c.e.st with
    | .stall (.acquire sc _) => s.acquireReturn c.h c.g c.e sc
    | _ =>
      s.gate who c.e fun s =>
        let q := s.checkLanes c.h c.act (s.ea c w.sb w.a) 4 4 0 .read
        let ok := q.1.filter fun x => x.res.isOk
        match ok.find? fun x => !q.2.waitReady c.h c.g x scope with
        | some x => q.2.waitAt who c.e x.res.pa
        | none =>
          let r := ok.foldl (fun (r : List (LaneCheck × List PByte) × State) x =>
            let p := r.2.waitRead c.h x scope
            (r.1 ++ [(x, p.1)], p.2)) ([], q.2)
          let pick (p : LaneCheck × List PByte → Bool) : LaneMask := (r.1.filter p).foldl (fun m x => m ||| laneBit x.1.lane) 0
          let bad := pick fun x => x.2.any Prod.snd
          let wait := pick fun x => !(x.2.any Prod.snd) && BitVec.ofNat 32 (leNat (x.2.map Prod.fst)) == s.val c w.d.toNat x.1.lane
          let lines := ((r.1.filter fun x => wait.getLsbD x.1.lane).map fun x => lineOf x.1.res.pa).eraseDups
          let s' := r.2.raiseChecks c.h c.g c.e q.1 .read
          let low := r.1.find? fun x => x.2.any Prod.snd
          let s' := match low with
            | some x => s'.raise c.h c.g (.lane kPOISON c.e.pc bad (poisonSource x.1.res.pa) x.1.va) { c.e with mask := bad }
            | none => s'
          let armed := if wait = 0 then (true, s') else s'.arm c.h c.g wait (if scope ≤ 2 then 0 else if scope ≤ 4 then 1 else 2) lines
          let s' := armed.2.putEntry c.h c.g { c.e with mask := wait, st := .monitor armed.1, qkeep := [] }
          let stopped := checkMask q.1 fun x => !x.isOk
          let rest := c.e.mask &&& ~~~stopped &&& ~~~bad &&& ~~~wait
          let leaves := c.act &&& rest
          if leaves = 0 then s'.advance c.h c.g c.e rest
          else (if rest = 0 then s' else s'.acquireReturn c.h c.g { c.e with mask := rest } scope)

/-- An entry that waits at a monitor becomes ready at its WAITA, and its monitors are free (10 R224). -/
def State.wakeMonitor (s : State) (h g lane : Nat) (armed : Bool) : Option State :=
  match (s.gang h g).frontier.find? fun e => e.st == .monitor armed && e.mask.getLsbD lane with
  | none => none
  | some e =>
    some ((s.modGang h g fun gg => { gg with frontier := gg.frontier.map fun x => if x = e then { x with st := .ready } else x }).modCore
      (hCore h) fun c => { c with monitors := c.monitors.filter fun m => !(m.h == h && m.g == g && m.mask == e.mask) })

/-- MONITOR_WAKE: for any of the causes of 10 R224, or none. -/
def execMonitorWake (h g lane : Nat) (s : State) : Out := event (s.wakeMonitor h g lane true) s

/-- MONITOR_RETRY_TIMER: an entry that found too few monitors is woken 1 microsecond later. -/
def execMonitorRetryTimer (h g lane : Nat) (s : State) : Out := event (s.wakeMonitor h g lane false) s

end Sys2Proof.Machine
end

