-- ==== Sys2Proof/Machine/Accumulators.lean ====
section
/-!
DEFINITION. Accumulators: rank order and insertion (17 R325-R327), the accumulator words (R329-R338), the inserter (R339).
-/
namespace Sys2Proof.Machine

open Sys2Proof

/-! ## Rank order (17 R325, R326) -/

/-- −0 is stored as +0. -/
def RankAcc.norm (r : RankAcc) (v : Word) : Word := if !r.int32 && v == 0x80000000 then 0 else v

/-- Whether a value is NaN under the key. -/
def RankAcc.nan (r : RankAcc) (v : Word) : Bool := !r.int32 && isNan32 v

/-- Whether `v` is better than `w`. -/
def RankAcc.better (r : RankAcc) (v w : Word) : Bool :=
  let gt (x y : Word) : Bool :=
    if r.int32 then decide (y.toInt < x.toInt)
    else FVal.cmp (fmtF32.value x.toNat) (fmtF32.value y.toNat) == .gt
  if r.smallest then gt w v else gt v w

/-- Whether pair `p` ranks above pair `q`. -/
def RankAcc.above (r : RankAcc) (p q : Word × Word) : Bool :=
  r.better p.1 q.1 || (!r.better q.1 p.1 && decide (p.2.toNat < q.2.toNat))

/-- The floor. -/
def RankAcc.floor (r : RankAcc) : Option Word := if r.list.length = r.k then (r.list.getLast?).map Prod.fst else r.bound

/-- can_enter. -/
def RankAcc.canEnter (r : RankAcc) (p : Word × Word) : Bool :=
  !r.nan p.1 &&
  (match r.bound with
    | none => true
    | some b => !r.better b p.1) &&
  (decide (r.list.length < r.k) ||
    (match r.list.getLast? with
      | none => false
      | some q => r.above p q))

/-- Inserts a pair after every entry that ranks above it or is identical to it, and keeps at most k. -/
def RankAcc.insert (r : RankAcc) (p : Word × Word) : RankAcc :=
  let p := (r.norm p.1, p.2)
  if r.canEnter p then
    let hi := r.list.filter fun q => !r.above p q
    let lo := r.list.filter fun q => r.above p q
    { r with list := (hi ++ p :: lo).take r.k }
  else r

/-- A NaN candidate. -/
def RankAcc.addNans (r : RankAcc) (n : Nat) : RankAcc := { r with nans := if 4095 < r.nans + n then 4095 else r.nans + n }

/-- ACRAISE of a value (17 R334). -/
def RankAcc.raise (r : RankAcc) (v : Word) : RankAcc :=
  if r.nan v then r
  else
    let v := r.norm v
    let b := match r.bound with
      | none => v
      | some b => if r.better v b then v else b
    { r with bound := some b, list := r.list.filter fun q => !r.better b q.1 }

/-! ## Accumulators of a gang -/

def Gang.accum (gg : Gang) (n : Nat) : Acc := AList.get .undeclared gg.acc n
def Gang.setAcc (gg : Gang) (n : Nat) (a : Acc) : Gang := { gg with acc := AList.set .undeclared gg.acc n a }
def State.setAcc (s : State) (h g n : Nat) (a : Acc) : State := s.modGang h g fun gg => gg.setAcc n a

/-- The PERM cause of a word that needs a RANK accumulator. -/
def Acc.needRank (a : Acc) : Nat :=
  match a with
  | .undeclared => 30
  | .sum _ => 31
  | .rank _ => 0

/-- A PERM of an accumulator word (17 R328): in a lane word, of its active lanes. -/
def State.accLaneFault (s : State) (c : LaneCtx) (cause n : Nat) : State :=
  (s.raise c.h c.g (.lane kPERM c.e.pc c.act (256 + cause) n) { c.e with mask := c.act }).advance c.h c.g c.e
    (c.e.mask &&& ~~~c.act)

def State.accUniFault (s : State) (h g : Nat) (e : Entry) (cause addr : Nat) : State :=
  s.raiseUniform (.gang h g) e kPERM (256 + cause) addr

/-- A uniform accumulator word waits for every earlier accumulator word, insertions among them (17 R339). -/
def accUniform (c : BitVec 3) (s : State) (k : Nat → Nat → Entry → State → State) : Out :=
  s.uniformGang c fun h g e s =>
    if (s.gang h g).inserter = [] then k h g e s else s.putEntry h g { e with st := .stall .inserter }

/-- Whether an accumulator holds poisoned data (21 R378-R380). -/
def Gang.accBad (gg : Gang) (n : Nat) : Bool := AList.get false gg.accPoison n
/-- Declares or clears an accumulator: its poison is gone. -/
def State.resetAcc (s : State) (h g n : Nat) (a : Acc) : State :=
  s.modGang h g fun gg => { gg.setAcc n a with accPoison := AList.set false gg.accPoison n false }

/-- A uniform word that consumes a poisoned accumulator raises POISON; its source code is open (log 19). -/
def State.accConsume (s : State) (h g : Nat) (e : Entry) (n : Nat) (k : State → State) : State :=
  if (s.gang h g).accBad n then s.raiseUniform (.gang h g) e kPOISON (Config.accSource s.tick % 256) 0 else k s

/-! ## The inserter (17 R330) -/

/-- Offers pairs to a RANK accumulator. -/
def Acc.offer (a : Acc) (ps : List (Word × Word)) : Acc :=
  match a with
  | .rank r => .rank (ps.foldl RankAcc.insert r)
  | a => a

/-- INSERTER_INSERTION: up to eight candidates of the gang's oldest word are inserted. -/
def State.insertion (s : State) (h g : Nat) : Option State :=
  match (s.gang h g).inserter with
  | [] => none
  | x :: rest =>
    some (s.modGang h g fun gg =>
      { gg.setAcc x.acc ((gg.accum x.acc).offer (x.cands.take 8)) with
        inserter := if x.cands.drop 8 = [] then rest else { x with cands := x.cands.drop 8 } :: rest })

/-- INSERTER_INSERTION. -/
def execInserterInsertion (h g : Nat) (s : State) : Out := event (s.insertion h g) s

/-- Sends candidates to the inserter. -/
def Gang.sendCands (gg : Gang) (n : Nat) (ps : List (Word × Word)) : Gang :=
  if ps = [] then gg else { gg with inserter := gg.inserter ++ [{ acc := n, cands := ps }] }

/-- RKPUSH (17 R330): NaN lanes count and drop, gated lanes drop against the floor of the issue, the rest reach the
inserter. -/
def execRkpush (w : LRk) (s : State) : Out :=
  let n := w.acc.toNat
  s.lane { guard := w.g.toNat, srcs := [(w.a.toNat, w.ea), (w.b.toNat, w.eb)], hold := if w.h then some w.a.toNat else none } fun c s =>
    match (s.gang c.h c.g).accum n with
    | .rank r =>
      let ps := (lanesOf c.act).map fun i => (s.val c w.a.toNat i, s.val c w.b.toNat i)
      let nans := ps.filter fun p => r.nan p.1
      let cands := ps.filter fun p => !r.nan p.1 && (!r.fgate || r.canEnter p)
      (s.modGang c.h c.g fun gg => (gg.setAcc n (.rank (r.addNans nans.length))).sendCands n cands).laneDone c
    | a => s.accLaneFault c a.needRank n

/-- RKTEST (17 R331). -/
def execRktest (w : LRktest) (s : State) : Out :=
  let n := w.acc.toNat
  s.issuing fun h g e s =>
    if (s.gang h g).inserter ≠ [] then s.putEntry h g { e with st := .stall .inserter }
    else
      s.laneIssue h g e { guard := w.g.toNat, srcs := [(w.a.toNat, false), (w.b.toNat, false)] } fun c s =>
        match (s.gang c.h c.g).accum n with
        | .rank r =>
          if (s.gang c.h c.g).accBad n then
            (s.raise c.h c.g (.lane kPOISON c.e.pc c.act (Config.accSource s.tick % 256) 0) { c.e with mask := c.act }).advance c.h c.g c.e
              (c.e.mask &&& ~~~c.act)
          else s.lanePred c w.pd w.comb fun i => (r.canEnter (r.norm (s.val c w.a.toNat i), s.val c w.b.toNat i), 0)
        | a => s.accLaneFault c a.needRank n

/-- ACADD (17 R332). -/
def execAcadd (w : LAcadd) (s : State) : Out :=
  let n := w.acc.toNat
  s.lane { guard := w.g.toNat, srcs := [(w.a.toNat, w.ea)], hold := if w.h then some w.a.toNat else none } fun c s =>
    match (s.gang c.h c.g).accum n with
    | .sum v =>
      let r (i : Nat) := f32Add (AList.get 0 v i) (s.val c w.a.toNat i)
      (s.modGang c.h c.g fun gg =>
        (gg.setAcc n (.sum ((lanesOf c.act).foldl (fun m i => AList.set 0 m i (r i).1) v))).orFlags c.act fun i => (r i).2).laneDone c
    | .undeclared => s.accLaneFault c 30 n
    | .rank _ => s.accLaneFault c 31 n

/-! ## Declaring and clearing (17 R329) -/

/-- ACDECL of SUM. -/
def execAcdeclSum (w : UAcdecl) (s : State) : Out :=
  accUniform w.c s fun h g e s => (s.resetAcc h g w.acc.toNat (.sum [])).advance h g e e.mask

/-- ACDECL of RANK. -/
def execAcdeclRank (w : UAcdecl) (s : State) : Out :=
  accUniform w.c s fun h g e s =>
    (s.resetAcc h g w.acc.toNat (.rank { k := w.k.toNat + 1, int32 := w.key, smallest := w.order, fgate := w.fgate, list := [],
                                         bound := none, nans := 0 })).advance h g e e.mask

/-- ACCLR. -/
def execAcclr (w : UAcc) (s : State) : Out :=
  accUniform w.c s fun h g e s =>
    let n := w.acc.toNat
    match (s.gang h g).accum n with
    | .undeclared => s.accUniFault h g e 30 n
    | .sum _ => (s.resetAcc h g n (.sum [])).advance h g e e.mask
    | .rank r => (s.resetAcc h g n (.rank { r with list := [], bound := none, nans := 0 })).advance h g e e.mask

/-! ## Using the floor -/

/-- ACCMP (17 R333). -/
def execAccmp (w : UAccmp) (s : State) : Out :=
  accUniform w.c s fun h g e s =>
    let n := w.acc.toNat
    let v := (s.gang h g).sreg w.a.toNat
    match (s.gang h g).accum n with
    | .rank r =>
      let b := match r.floor with
        | none => true
        | some f => r.nan v || !r.better f v
      s.accConsume h g e n fun s => (s.modGang h g fun gg => gg.setC w.m.toNat b).advance h g e e.mask
    | a => s.accUniFault h g e a.needRank n

/-- ACRAISE (17 R334). -/
def execAcraise (w : UAccA) (s : State) : Out :=
  accUniform w.c s fun h g e s =>
    let n := w.acc.toNat
    match (s.gang h g).accum n with
    | .rank r => (s.setAcc h g n (.rank (r.raise ((s.gang h g).sreg w.a.toNat)))).advance h g e e.mask
    | a => s.accUniFault h g e a.needRank n

/-! ## Reading and storing (17 R335-R338) -/

/-- HDR of a stored list (17 Table 17-3). -/
def RankAcc.header (r : RankAcc) : Word :=
  BitVec.ofNat 32 (r.list.length + 256 * r.k + 2 ^ 16 * r.int32.toNat + 2 ^ 17 * r.smallest.toNat + 2 ^ 18 * r.floor.isSome.toNat +
    2 ^ 20 * r.nans)

/-- FLOOR of a stored list. -/
def RankAcc.floorWord (r : RankAcc) : Word := r.floor.getD 0

/-- What ACRD reads: two words, or the PERM cause. -/
def Acc.read (a : Acc) (i : Word) : Except Nat (Word × Word) :=
  match a with
  | .undeclared => .error 30
  | .sum v => if i.toNat < 32 then .ok (AList.get 0 v i.toNat, 0) else .error 33
  | .rank r =>
    if i = BitVec.allOnes 32 then .ok (r.header, r.floorWord)
    else
      match r.list[i.toNat]? with
      | some p => .ok p
      | none => .error 33

/-- ACRD (17 R335). -/
def execAcrd (w : UAcrd) (s : State) : Out :=
  accUniform w.c s fun h g e s =>
    let n := w.acc.toNat
    let i := (s.gang h g).sreg w.a.toNat
    match ((s.gang h g).accum n).read i with
    | .ok p => s.accConsume h g e n fun s => (s.modGang h g fun gg => (gg.setS w.d.toNat p.1).setS (w.d.toNat + 1) p.2).advance h g e e.mask
    | .error c => s.accUniFault h g e c (if c = 33 then i.toNat else n)

/-- The doublewords that ACST writes. -/
def Acc.stored (a : Acc) : List (List Byte) :=
  match a with
  | .undeclared => []
  | .sum v => (List.range 16).map fun j => leBytes 4 (AList.get 0 v (2 * j)).toNat ++ leBytes 4 (AList.get 0 v (2 * j + 1)).toNat
  | .rank r =>
    (leBytes 4 r.header.toNat ++ leBytes 4 r.floorWord.toNat) :: r.list.map fun p => leBytes 4 p.1.toNat ++ leBytes 4 p.2.toNat

/-- Checks every doubleword of a range. -/
def State.checkRange (s : State) (core ctx va n : Nat) (a : Access) : List (Nat × Checked × Nat) × State :=
  (List.range n).foldl (fun r j =>
    let q := r.2.checkOne core ctx ((va + 8 * j) % 2 ^ 64) 8 8 0 a
    (r.1 ++ [((va + 8 * j) % 2 ^ 64, q.1.1, q.1.2)], q.2)) ([], s)

/-- The failure of a range that its word reports: ALIGN before PERM before PAGE (09 R191), then the wait for a page that moves (R194). -/
def rangeFault (l : List (Nat × Checked × Nat)) : Option (Nat × Checked × Nat) :=
  (((l.find? fun x => x.2.1.isAlign).or (l.find? fun x => x.2.1.isPerm)).or (l.find? fun x => x.2.1.isPage)).or
    (l.find? fun x => !x.2.1.isOk)

/-- ACST (17 R337). -/
def execAcst (w : UAccA) (s : State) : Out :=
  accUniform w.c s fun h g e s =>
    let who := Who.gang h g
    let n := w.acc.toNat
    let a := (s.gang h g).accum n
    if a = .undeclared then s.accUniFault h g e 30 n
    else
      s.accConsume h g e n fun s => s.gate who e fun s => s.counted who e 1 fun s =>
        let words := a.stored
        let q := s.checkRange (hCore h) (s.ctxOf h) (s.spair who w.a.toNat) words.length .write
        match rangeFault q.1 with
        | some x => (q.2.addCount who 1 (· - 1)).raiseUniChecked who e x.1 x.2.1 .write
        | none =>
          (q.2.sendStore who e.pc (some e.mask) none ((List.range words.length).map fun j =>
            let x := q.1.getD j (0, .align, 0)
            (j, x.1, x.2.1.pa, x.2.2, words.getD j []))).advance h g e e.mask

/-- Reads one doubleword as a uniform load. -/
def State.readPair (s : State) (h g va : Nat) : BmRes (Word × Word) × State :=
  let core := hCore h
  let q := s.checkOne core (s.ctxOf h) va 8 8 0 .read
  if q.1.1.isOk then
    let pa := q.1.1.pa
    if q.2.readable (.gang h g) (hDie h) q.2.nextId pa 8 q.1.2 none then
      let r := q.2.coreRead core (hDie h) (s.ctxOf h) va pa 8 q.1.2
      let bs := r.2.overlay core r.2.nextId pa r.1
      if bs.any Prod.snd then (.poison va pa, r.2)
      else (.ok (BitVec.ofNat 32 (field (bs.map Prod.fst) 0 4), BitVec.ofNat 32 (field (bs.map Prod.fst) 4 4)), r.2)
    else (.wait pa, q.2)
  else (.failed q.1.1 va, q.2)

/-- Reads the pairs of a stored list. -/
def State.readPairs (s : State) (h g va n : Nat) : BmRes (List (Word × Word)) × State :=
  match n with
  | 0 => (.ok [], s)
  | n + 1 =>
    BmRes.bind (s.readPair h g (va % 2 ^ 64)) fun p s =>
      BmRes.bind (s.readPairs h g (va + 8) n) fun ps s => (.ok (p :: ps), s)

/-- Whether a stored header is malformed (17 R336). -/
def badHeader (hdr fl : Word) : Bool :=
  let x := hdr.toNat
  hdr.getLsbD 7 || hdr.getLsbD 15 || hdr.getLsbD 19 || decide (bits x 14 8 = 0) || decide (64 < bits x 14 8) ||
    decide (bits x 14 8 < bits x 6 0) || (!hdr.getLsbD 18 && fl != 0)

/-- A failed read of a uniform word that reads memory itself. -/
def State.bmFail (s : State) (h g : Nat) (e : Entry) {α : Type} (r : BmRes α) (k : α → State) : State :=
  match r with
  | .ok v => k v
  | .failed c va => s.raiseUniChecked (.gang h g) e va c .read
  | .poison va pa => s.raiseUniform (.gang h g) e kPOISON (poisonSource pa) va
  | .wait pa => s.waitAt (.gang h g) e pa

/-- ACMRG of a list that has been read (17 R338). -/
def Gang.merge (gg : Gang) (n : Nat) (r : RankAcc) (hdr fl : Word) (ps : List (Word × Word)) : Gang :=
  let r := r.addNans (bits hdr.toNat 31 20)
  let r := if hdr.getLsbD 18 ∧ r.k ≤ bits hdr.toNat 14 8 then r.raise fl else r
  let r := r.addNans (ps.filter fun p => r.nan p.1).length
  (gg.setAcc n (.rank r)).sendCands n (ps.filter fun p => !r.nan p.1)

/-- ACMRG (17 R338). -/
def execAcmrg (w : UAccA) (s : State) : Out :=
  accUniform w.c s fun h g e s =>
    let n := w.acc.toNat
    match (s.gang h g).accum n with
    | .rank r =>
      s.gate (.gang h g) e fun s =>
        let va := s.spair (.gang h g) w.a.toNat
        let q := s.readPair h g va
        q.2.bmFail h g e q.1 fun hd =>
          let s := q.2
          if badHeader hd.1 hd.2 then s.accUniFault h g e 32 va
          else if hd.1.getLsbD 16 ≠ r.int32 ∨ hd.1.getLsbD 17 ≠ r.smallest then s.accUniFault h g e 31 n
          else
            let q := s.readPairs h g (va + 8) (bits hd.1.toNat 6 0)
            q.2.bmFail h g e q.1 fun ps =>
              (q.2.modGang h g fun gg => gg.merge n r hd.1 hd.2 ps).advance h g e e.mask
    | a => s.accUniFault h g e a.needRank n

end Sys2Proof.Machine
end

