-- ==== Sys2Proof/Machine/Barriers.lean ====
section
/-!
DEFINITION. Named barriers (07 R149-R155) with the credits of 15 R302.
-/
namespace Sys2Proof.Machine

open Sys2Proof

def Task.barrier (t : Task) (b : Nat) : Barrier := AList.get Barrier.fresh t.barriers b
def Task.modBarrier (t : Task) (b : Nat) (f : Barrier → Barrier) : Task :=
  { t with barriers := AList.modify Barrier.fresh t.barriers b f }

/-- Whether barrier `b` of a task is a span barrier (07 R155). -/
def Task.isSpanBarrier (t : Task) (b : Nat) : Bool :=
  t.ident.spanidx.isSome && decide (t.variant.nbar - t.spanbar ≤ b) && decide (b < t.variant.nbar)

/-- The tasks that share a barrier: every task of the span, or the task alone. -/
def State.mates (s : State) (h b : Nat) : List Nat :=
  match s.task h with
  | none => []
  | some t =>
    if t.isSpanBarrier b then
      s.tasks.filterMap fun p =>
        match p.2 with
        | some u => if u.launch = t.launch then some p.1 else none
        | none => none
    else [h]

/-- Position of a task in its span. -/
def State.spanPos (s : State) (h : Nat) : Nat :=
  match s.task h with
  | none => 0
  | some t => t.ident.spanidx.getD 0

/-- The task that keeps a barrier's credits: of a span, the one with the lowest index. -/
def State.creditHome (s : State) (h b : Nat) : Nat :=
  match s.mates h b with
  | [] => h
  | m :: l => l.foldl (fun a x => if s.spanPos x < s.spanPos a then x else a) m

/-- Moves the entries of a gang that wait at a barrier past it. -/
def State.releaseWaiters (s : State) (h b scope g : Nat) : State :=
  let waiting := (s.gang h g).frontier.filter fun e => e.st == .barrier b
  if waiting = [] then s
  else
    let s := s.modGang h g fun gg => { gg with frontier := gg.frontier.filter fun e => e.st != .barrier b }
    waiting.foldl (fun s e => s.acquireReturn h g e scope) s

/-- Gangs of a task. -/
def Task.gangCount (t : Task) : Nat := t.variant.threads / 32

/-- Uses up `x` credits in arrival order: the batches left, and the stream notices whose last credit was used (16 R322). -/
def consumeCredits (x : Nat) (l : List (Nat × Option Nat)) : List (Nat × Option Nat) × List Nat :=
  match l with
  | [] => ([], [])
  | (n, k) :: t =>
    if x = 0 then ((n, k) :: t, [])
    else if x < n then ((n - x, k) :: t, [])
    else
      let r := consumeCredits (x - n) t
      (r.1, k.toList ++ r.2)

/-- Lets notices be acknowledged. -/
def State.ackNotices (s : State) (ids : List Nat) : State :=
  { s with notices := s.notices.map fun n => if ids.contains n.id then { n with acked := true } else n }

/-- Ends a phase: arrivals are cleared, credits used, waiters released (07 R150, 15 R302). -/
def State.completePhase (s : State) (mates : List Nat) (home b x scope : Nat) : State :=
  let s := mates.foldl (fun s h => s.modTask h fun t => t.modBarrier b fun z => { z with arrived := [] }) s
  let used := match s.task home with
    | none => []
    | some t => (consumeCredits x (t.barrier b).credits).2
  let s := s.modTask home fun t =>
    t.modBarrier b fun z => { z with y := z.y - x, credits := (consumeCredits x z.credits).1 }
  let s := s.ackNotices used
  mates.foldl (fun s h =>
    match s.task h with
    | none => s
    | some t => (List.range t.gangCount).foldl (fun s g => s.releaseWaiters h b scope g) s) s

/-- The completion test of 07 R150 with credits (15 R302). -/
def State.barrierTest (s : State) (h b : Nat) : State :=
  let mates := s.mates h b
  let home := s.creditHome h b
  match s.task home with
  | none => s
  | some t =>
    let z := t.barrier b
    let bars := mates.filterMap fun m => (s.task m).map fun u => u.barrier b
    if (bars.all fun u => u.arrived == u.members) && (bars.any fun u => u.arrived != []) && decide (z.x ≤ z.y) then
      s.completePhase mates home b z.x (if z.x ≠ 0 ∨ t.isSpanBarrier b then 4 else 2)
    else s

/-- Arrival of lanes of a gang (07 R152). -/
def State.arrive (s : State) (h g b : Nat) (m : LaneMask) : State :=
  if m = 0 then s
  else s.modTask h fun t => t.modBarrier b fun z => { z with arrived := AList.modify 0 z.arrived g (· ||| m) }

/-- Removes lanes from a barrier's sets and applies the test (07 R151). -/
def State.leave (s : State) (h g b : Nat) (m : LaneMask) : State :=
  (s.modTask h fun t => t.modBarrier b fun z =>
    { z with members := AList.modify 0 z.members g (· &&& ~~~m), arrived := AList.modify 0 z.arrived g (· &&& ~~~m) }).barrierTest h b

/-- The BARRIER fault of lanes. -/
def State.raiseBarrier (s : State) (c : LaneCtx) (cause b : Nat) (m : LaneMask) : State :=
  s.raise c.h c.g (.lane kBARRIER c.e.pc m cause b) { c.e with mask := m }

/-- Operands of a barrier word: the number, or a register of the lowest active lane (07 R149). -/
def specBar (w : LBar) : LaneSpec :=
  { guard := w.g.toNat, more := if w.imm = 0xFF then [(w.a.toNat, .lowest)] else [] }

/-- A barrier word that has its barrier's number: with no active lane it has no effect, a number outside the task's barriers is
cause 3. -/
def State.barAt (s : State) (w : LBar) (c : LaneCtx) (k : LaneCtx → Task → Nat → State → State) : State :=
  match s.task c.h with
  | none => s
  | some t =>
    if c.act = 0 then s.laneDone c
    else
      let b := if w.imm = 0xFF then (s.val c w.a.toNat (lowestLane c.act)).toNat else w.imm.toNat
      if t.variant.nbar ≤ b then (s.raiseBarrier c 3 b c.act).advance c.h c.g c.e (c.e.mask &&& ~~~c.act)
      else k c t b s

/-- Runs a barrier word. Its operand is read once, at issue (05 R102): an arrival that waits for its release goes on with the
barrier it read, an entry whose phase has completed with its acquire. -/
def barWord (w : LBar) (s : State) (k : LaneCtx → Task → Nat → State → State) : Out :=
  s.issuing fun h g e s =>
    match e.st with
    | .stall (.acquire scope _) => s.acquireReturn h g e scope
    | .stall (.arrive b _ _) =>
      match s.task h with
      | none => s
      | some t =>
        let act := (s.gang h g).active e.mask w.g.toNat
        k { h := h, g := g, e := e, act := act, low := lowestLane act, popped := none, pushQ := none } t b s
    | _ => s.laneIssue h g e (specBar w) fun c s => s.barAt w c k

/-- JOIN (07 R151). -/
def execJoin (w : LBar) (s : State) : Out :=
  barWord w s fun c _ b s =>
    ((s.modTask c.h fun t => t.modBarrier b fun z =>
      { z with members := AList.modify 0 z.members c.g (· ||| c.act) }).barrierTest c.h b).laneDone c

/-- LEAVE (07 R151): may complete a phase. -/
def execLeave (w : LBar) (s : State) : Out :=
  barWord w s fun c _ b s => (s.leave c.h c.g b c.act).laneDone c

/-- Scope of an arrival's release (07 R154, R155). -/
def arriveScope (t : Task) (b : Nat) : Nat := if t.isSpanBarrier b then 4 else 2

/-- Lanes that may arrive; the others fault: no member (cause 1), already arrived (cause 2). -/
def arriveFaults (c : LaneCtx) (t : Task) (b : Nat) : LaneMask × LaneMask × LaneMask :=
  let z := t.barrier b
  let mem := AList.get 0 z.members c.g
  let arr := AList.get 0 z.arrived c.g
  (c.act &&& mem &&& ~~~arr, c.act &&& ~~~mem, c.act &&& mem &&& arr)

/-- The release of an arrival (07 R154, R155; 16 R323), then the rest of the word. -/
def State.arriving (s : State) (c : LaneCtx) (b scope : Nat) (k : State → State) : State :=
  if s.arrivalDone (.gang c.h c.g) scope (s.upto c.e) then k s
  else s.stayAt (.gang c.h c.g) c.e (.stall (.arrive b scope (s.upto c.e)))

/-- BARA (07 R152): arrival is a release. -/
def execBara (w : LBar) (s : State) : Out :=
  barWord w s fun c t b s =>
    s.arriving c b (arriveScope t b) fun s =>
      let (ok, f1, f2) := arriveFaults c t b
      let s := (s.raiseBarrier c 1 b f1).raiseBarrier c 2 b f2
      ((s.arrive c.h c.g b ok).advance c.h c.g c.e (c.e.mask &&& ~~~(f1 ||| f2))).barrierTest c.h b

/-- BARW (07 R152): lanes that have arrived wait for the phase. A lane whose phase has already completed returns at once and orders nothing;
whether R154 has it acquire is open: DESIGN CHOICE (log 91). -/
def execBarw (w : LBar) (s : State) : Out :=
  barWord w s fun c t b s =>
    let wait := c.act &&& AList.get 0 (t.barrier b).arrived c.g
    (s.putEntry c.h c.g { c.e with mask := wait, st := .barrier b, qkeep := [] }).advance c.h c.g c.e (c.e.mask &&& ~~~wait)

/-- BARS (07 R152): BARA then BARW as one word. -/
def execBars (w : LBar) (s : State) : Out :=
  barWord w s fun c t b s =>
    s.arriving c b (arriveScope t b) fun s =>
      let (ok, f1, f2) := arriveFaults c t b
      let s := (s.raiseBarrier c 1 b f1).raiseBarrier c 2 b f2
      let s := (s.arrive c.h c.g b ok).putEntry c.h c.g { c.e with mask := ok, st := .barrier b, qkeep := [] }
      (s.advance c.h c.g c.e (c.e.mask &&& ~~~(f1 ||| f2 ||| ok))).barrierTest c.h b

end Sys2Proof.Machine
end

