-- ==== Sys2Proof/Machine/Local.lean ====
section
/-!
DEFINITION. Local memory: address spaces (08 R156-R161), local loads, stores and atomics, transposing loads, bit planes
and TEB blocks (R169-R173), and accesses to other cores' scratchpads in flight (R165-R168).
-/
namespace Sys2Proof.Machine

open Sys2Proof

/-! ## Address spaces (08 R156-R160) -/

/-- Where a local access lands: the scratchpad of a task, the matrix descriptor area, or nowhere, with the PERM cause. -/
inductive LTarget
  | scratch (h off : Nat)
  | desc (off : Nat)
  | bad (cause : Nat)
  deriving DecidableEq, Repr

/-- The generation of a task slot (08 R159). -/
def State.slotGen (s : State) (c slot : Nat) : Nat := AList.get 0 (s.core c).slotGen slot

/-- The space-2 address of a task's own offset 0 (08 R159). -/
def State.clusterPrefix (s : State) (h : Nat) : Nat :=
  2 * 2 ^ 28 + coreIn (hCore h) * 2 ^ 25 + s.slotGen (hCore h) (hSlot h) % 8 * 2 ^ 22 + hSlot h * 2 ^ 18

/-- The scratchpad bytes of a task. -/
def Task.scratchBytes (t : Task) : Nat := t.granules.length * 4096

/-- A footprint in a task's scratchpad. -/
def State.inScratch (s : State) (h off n cause : Nat) : LTarget :=
  match s.task h with
  | none => .bad cause
  | some t => if off + n ≤ t.scratchBytes then .scratch h off else .bad 2

/-- The handle of a task of the same span by its index (08 R158). -/
def State.spanTask (s : State) (h i : Nat) : Option Nat :=
  match s.task h with
  | none => none
  | some t =>
    if t.ident.spanidx.isNone then none
    else s.tasks.findSome? fun p => match p.2 with
      | some u => if u.launch = t.launch ∧ u.ident.spanidx = some i then some p.1 else none
      | none => none

/-- The slot that a space-2 address names: its handle. -/
def space2Handle (h addr : Nat) : Nat := handleOf (coreAt (hCluster h) (bits addr 27 25)) (bits addr 21 18)

/-- The target of a footprint of `n` bytes at a local address. -/
def State.localTarget (s : State) (h addr n : Nat) (write : Bool) : LTarget :=
  match addr / 2 ^ 28 with
  | 0 => s.inScratch h (addr % 2 ^ 28) n 2
  | 1 =>
    match s.spanTask h (bits addr 27 18) with
    | none => .bad 3
    | some u => s.inScratch u (bits addr 17 0) n 3
  | 2 =>
    let u := space2Handle h addr
    if 6 ≤ bits addr 27 25 then .bad 4
    else
      match s.task u with
      | none => .bad 4
      | some t =>
        if t.ctx ≠ s.ctxOf h ∨ s.slotGen (hCore u) (hSlot u) % 8 ≠ bits addr 24 22 then .bad 4
        else s.inScratch u (bits addr 17 0) n 4
  | 3 =>
    let off := addr % 2 ^ 28
    if 2048 < off + n then .bad 2 else if write ∧ off < 16 then .bad 5 else .desc off
  | _ => .bad 1

/-- Whether an address names the scratchpad of another core (08 R166, R168). -/
def State.isRemote (s : State) (h addr : Nat) : Bool :=
  match addr / 2 ^ 28 with
  | 1 =>
    match s.spanTask h (bits addr 27 18) with
    | none => false
    | some u => hCore u != hCore h
  | 2 => decide (bits addr 27 25 < 6) && hCore (space2Handle h addr) != hCore h
  | _ => false

/-! ## Reading and writing -/

/-- Bytes of a target as task `h` reads them; the descriptor area begins with the cluster prefix (08 R160). -/
def State.localRead (s : State) (h : Nat) (t : LTarget) (n : Nat) : List PByte :=
  match t with
  | .scratch u off =>
    match s.task u with
    | none => []
    | some x => (List.range n).map fun j => (Memory.read x.scratch (off + j), AList.get false x.scratchPoison ((off + j) / 4))
  | .desc off =>
    match s.task h with
    | none => []
    | some x => (List.range n).map fun j =>
      let o := off + j
      (if o < 4 then (leBytes 4 (s.clusterPrefix h)).getD o 0 else Memory.read x.mdesc o, false)
  | .bad _ => []

/-- Writes bytes; the aligned words that they cover whole lose their poison (21 R379). -/
def State.localWrite (s : State) (h : Nat) (t : LTarget) (bs : List Byte) : State :=
  match t with
  | .scratch u off =>
    s.modTask u fun x =>
      { x with
        scratch := Memory.writeBytes x.scratch off bs,
        scratchPoison := clearWords x.scratchPoison off bs.length }
  | .desc off => s.modTask h fun x => { x with mdesc := Memory.writeBytes x.mdesc off bs }
  | .bad _ => s

/-- Local bytes written with poison. -/
def State.localWriteP (s : State) (h : Nat) (t : LTarget) (bs : List Byte) (bad : Bool) : State :=
  let s := s.localWrite h t bs
  match t, bad with
  | .scratch u off, true =>
    s.modTask u fun x => { x with scratchPoison :=
      (List.range ((off % 4 + bs.length + 3) / 4)).foldl (fun m j => AList.set false m (off / 4 + j) true) x.scratchPoison }
  | _, _ => s

/-! ## Checks and faults (08 R161) -/

/-- What the checks of a local footprint find. -/
inductive LCheck
  | own (t : LTarget)
  | remote
  | align
  | perm (cause : Nat)
  deriving DecidableEq, Repr

/-- Checks a footprint; what another core holds is checked there. -/
def State.checkLocal (s : State) (h addr align n : Nat) (write : Bool) : LCheck :=
  if addr % align ≠ 0 then .align
  else if s.isRemote h addr then .remote
  else
    match s.localTarget h addr n write with
    | .bad c => .perm c
    | t => .own t

/-- A lane, its local address, and its check. -/
structure LLane where
  lane : Nat
  addr : Nat
  res : LCheck
  deriving DecidableEq, Repr

def LCheck.isAlign (c : LCheck) : Bool := c == .align
def LCheck.isPerm (c : LCheck) : Bool :=
  match c with
  | .perm _ => true
  | _ => false
def LCheck.cause (c : LCheck) : Nat :=
  match c with
  | .perm n => n
  | _ => 0
def LCheck.faults (c : LCheck) : Bool := c.isAlign || c.isPerm

/-- The lanes of checks that satisfy a test. -/
def llMask (l : List LLane) (p : LCheck → Bool) : LaneMask := l.foldl (fun m x => if p x.res then m ||| laneBit x.lane else m) 0

/-- Raises one kind and cause of fault in its lanes; the record names the lowest. -/
def State.raiseLocalKind (s : State) (c : LaneCtx) (l : List LLane) (kind : Nat) (p : LCheck → Bool) : State :=
  match l.find? fun x => p x.res with
  | none => s
  | some x =>
    s.raise c.h c.g (.lane kind c.e.pc (llMask l p) (256 + x.res.cause) x.addr) { c.e with mask := llMask l p }

/-- PERM of the lanes of a word, a record for each cause, that of the lowest lane first (log 30). -/
def State.raiseLocalPerm (s : State) (c : LaneCtx) (l : List LLane) : State :=
  (((l.filter fun x => x.res.isPerm).map fun x => x.res.cause).eraseDups).foldl (fun s n => s.raiseLocalKind c l kPERM fun r => r == .perm n) s

/-- Faults of a lane-addressed local word, and the other lanes go on. -/
def State.finishLocal (s : State) (c : LaneCtx) (l : List LLane) : State :=
  ((s.raiseLocalKind c l kALIGN LCheck.isAlign).raiseLocalPerm c l).advance c.h c.g c.e (c.e.mask &&& ~~~llMask l LCheck.faults)

/-- A one-address word's failed check: every active lane (08 R161). -/
def State.failLocal (s : State) (c : LaneCtx) (addr : Nat) (r : LCheck) : State :=
  (s.raise c.h c.g (.lane (if r.isAlign then kALIGN else kPERM) c.e.pc c.act (256 + r.cause) addr) { c.e with mask := c.act }).advance
    c.h c.g c.e (c.e.mask &&& ~~~c.act)

/-- The address of an LL lane. -/
def State.localAddr (s : State) (c : LaneCtx) (a : BitVec 5) (k : Nat) (i : Nat) : Nat := ((s.val c a.toNat i).toNat + k) % 2 ^ 32

/-- Checks the active lanes of a lane-addressed word. -/
def State.localLanes (s : State) (c : LaneCtx) (a : BitVec 5) (k n : Nat) (write : Bool) : List LLane :=
  (lanesOf c.act).map fun i => { lane := i, addr := s.localAddr c a k i, res := s.checkLocal c.h (s.localAddr c a k i) n n write }

/-- POISON of returning local data (21 R380, R404): the lanes keep running. -/
def State.localPoison (s : State) (c : LaneCtx) (l : List (Nat × Nat)) : State :=
  match l with
  | [] => s
  | (_, addr) :: _ => s.raiseLater c.h c.g (.lane kPOISON c.e.pc (l.foldl (fun m p => m ||| laneBit p.1) 0) 2 addr)

/-- Sends lanes to other cores, in ascending order. -/
def State.sendRemote (s : State) (c : LaneCtx) (kind : RemoteKind) (spread : Nat) (dsts : List (Nat × List Nat))
    (lanes : List RemoteLane) : State :=
  if lanes = [] then s
  else
    let (id, s) := s.fresh
    let lanes := (List.range 32).filterMap fun i => lanes.find? fun l => l.lane == i
    let op : RemoteOp :=
      { id := id, owner := .gang c.h c.g, ctx := s.ctxOf c.h, pc := c.e.pc, kind := kind, spread := spread, mask := c.act,
        dsts := dsts, lanes := lanes }
    { s with remotes := s.remotes ++ [op] }

/-- A lane sent to another core. -/
def remoteLane (lane addr : Nat) (data : List Word) (bytes : List Byte) (dst : List Nat) : RemoteLane :=
  { lane := lane, addr := addr, data := data, bytes := bytes, dst := dst, stage := 0, result := [], bad := [], poisoned := false, refused := 0 }

/-- The own-core lanes of checks, with their targets. -/
def ownLanes (l : List LLane) : List (LLane × LTarget) :=
  l.filterMap fun x => match x.res with
    | .own t => some (x, t)
    | _ => none

/-- The lanes sent to other cores. -/
def farLanes (l : List LLane) : List LLane := l.filter fun x => x.res == .remote

/-- A gate for local words of a gang (10 R220). -/
def State.localWord (s : State) (sp : LaneSpec) (k : LaneCtx → State → State) : Out :=
  s.lane sp fun c s => s.gate (.gang c.h c.g) c.e fun s => k c s

/-- Registers of a group. -/
def regs (d : BitVec 5) (n : Nat) : List Nat := (List.range n).map fun j => d.toNat + j

/-! ## Local loads and stores (08 R169) -/

/-- Writes words to registers of a lane. -/
def State.writeRegs (s : State) (c : LaneCtx) (i : Nat) (ks : List Nat) (ws : List Word) : State :=
  s.writeEntries c.h c.g i (s.entriesOf c.h c.g i ks) ws

/-- A local load of `n` bytes a lane into `r` registers. -/
def localLoad (w : LL) (n r : Nat) (s : State) : Out :=
  s.localWord { guard := w.g.toNat, srcs := [(w.a.toNat, false)], dsts := regs w.d r } fun c s =>
    let l := s.localLanes c w.a (w.imm.toNat * n) n false
    let own := (ownLanes l).map fun p => (p.1, s.localRead c.h p.2 n)
    let good := own.filter fun p => !(p.2.any Prod.snd)
    let bad := own.filter fun p => p.2.any Prod.snd
    let far := (farLanes l).map fun x => remoteLane x.lane x.addr [] [] (s.entriesOf c.h c.g x.lane (regs w.d r))
    let s := good.foldl (fun s p => s.writeRegs c p.1.lane (regs w.d r) (loadWords false n p.2)) s
    let s := s.sendRemote c (.load n) 0 [] far
    let s := far.foldl (fun s x => s.markLane c.h c.g x.lane (regs w.d r) .interlocked) s
    let s := s.modGang c.h c.g fun gg => (regs w.d r).foldl (fun gg k => gg.dropLatch k c.act) gg
    (s.finishLocal c l).localPoison c (bad.map fun p => (p.1.lane, p.1.addr))

/-- LLD8 (08 R169). -/
def execLld8 (w : LL) (s : State) : Out := localLoad w 1 1 s
/-- LLD16. -/
def execLld16 (w : LL) (s : State) : Out := localLoad w 2 1 s
/-- LLD32. -/
def execLld32 (w : LL) (s : State) : Out := localLoad w 4 1 s
/-- LLD64. -/
def execLld64 (w : LL) (s : State) : Out := localLoad w 8 2 s
/-- LLD128. -/
def execLld128 (w : LL) (s : State) : Out := localLoad w 16 4 s

/-- The low `n` bytes of a lane's register group. -/
def State.groupBytes (s : State) (c : LaneCtx) (d : BitVec 5) (n i : Nat) : List Byte :=
  ((regs d ((n + 3) / 4)).flatMap fun k => leBytes 4 (s.val c k i).toNat).take n

/-- A local store of `n` bytes a lane from `r` registers; lanes take effect in ascending order (08 R167). -/
def localStore (w : LL) (n r : Nat) (s : State) : Out :=
  s.localWord { guard := w.g.toNat, srcs := [(w.a.toNat, false)], third := regs w.d r } fun c s =>
    let l := s.localLanes c w.a (w.imm.toNat * n) n true
    let far := (farLanes l).map fun x => remoteLane x.lane x.addr [] (s.groupBytes c w.d n x.lane) []
    let t := (ownLanes l).foldl (fun t p => t.localWrite c.h p.2 (s.groupBytes c w.d n p.1.lane)) s
    (t.sendRemote c .store 0 [] far).finishLocal c l

/-- LST8 (08 R169). -/
def execLst8 (w : LL) (s : State) : Out := localStore w 1 1 s
/-- LST16. -/
def execLst16 (w : LL) (s : State) : Out := localStore w 2 1 s
/-- LST32. -/
def execLst32 (w : LL) (s : State) : Out := localStore w 4 1 s
/-- LST64. -/
def execLst64 (w : LL) (s : State) : Out := localStore w 8 2 s
/-- LST128. -/
def execLst128 (w : LL) (s : State) : Out := localStore w 16 4 s

/-! ## Local atomics (08 R170) -/

/-- New value of a local atomic: 0 ADD, 1 IMIN, 2 IMAX, 3 AND, 4 OR, 5 XOR, 6 XCHG, 7 CAS. -/
def latomNew (op : Nat) (old x y : Word) : Word :=
  match op with
  | 0 => old + x
  | 1 => intMin old x
  | 2 => intMax old x
  | 3 => old &&& x
  | 4 => old ||| x
  | 5 => old ^^^ x
  | 6 => x
  | _ => if old = x then y else old

/-- The word of read bytes. -/
def pword (bs : List PByte) : Word := BitVec.ofNat 32 (leNat (bs.map Prod.fst))

/-- Performs a local atomic on a target: the old word, unless it is poisoned; only XCHG writes over poison. -/
def State.latomAt (s : State) (h : Nat) (t : LTarget) (op : Nat) (x y : Word) : Option Word × State :=
  let bs := s.localRead h t 4
  if bs.any Prod.snd then (none, if op = 6 then s.localWrite h t (leBytes 4 x.toNat) else s)
  else (some (pword bs), s.localWrite h t (leBytes 4 (latomNew op (pword bs) x y).toNat))

/-- An own-core lane of a local atomic, performed; its old value is still to return (05 R86). -/
def latomDone (x : LLane) (old : Option Word) (dst : List Nat) : RemoteLane :=
  { remoteLane x.lane x.addr [] [] dst with
    stage := 1, result := leBytes 4 (old.getD 0).toNat, poisoned := old.isNone }

/-- A local atomic: the own-core lanes are performed at once, in ascending order; v[d] is empty until the old value returns. -/
def latomWord (w : LL) (op : Nat) (s : State) : Out :=
  let data := if op = 7 then regs w.d 2 else regs w.d 1
  s.localWord { guard := w.g.toNat, srcs := [(w.a.toNat, false)], third := data } fun c s =>
    let l := s.localLanes c w.a (w.imm.toNat * 4) 4 true
    let arg (k i : Nat) : Word := s.val c (data.getD k 0) i
    let r := (ownLanes l).foldl (fun (r : List (LLane × Option Word) × State) p =>
      let q := r.2.latomAt c.h p.2 op (arg 0 p.1.lane) (arg 1 p.1.lane)
      (r.1 ++ [(p.1, q.1)], q.2)) ([], s)
    let far := (farLanes l).map fun x =>
      remoteLane x.lane x.addr (data.map fun k => s.val c k x.lane) [] (s.entriesOf c.h c.g x.lane [w.d.toNat])
    let own := r.1.map fun p => latomDone p.1 p.2 (s.entriesOf c.h c.g p.1.lane [w.d.toNat])
    let t := r.2.sendRemote c (.latom op) 0 [] (own ++ far)
    let t := (own ++ far).foldl (fun t x => t.markLane c.h c.g x.lane [w.d.toNat] .empty) t
    let t := t.modGang c.h c.g fun gg => gg.dropLatch w.d.toNat c.act
    t.finishLocal c l

/-- LATOM.ADD (08 R170). -/
def execLatomAdd (w : LL) (s : State) : Out := latomWord w 0 s
/-- LATOM.IMIN. -/
def execLatomImin (w : LL) (s : State) : Out := latomWord w 1 s
/-- LATOM.IMAX. -/
def execLatomImax (w : LL) (s : State) : Out := latomWord w 2 s
/-- LATOM.AND. -/
def execLatomAnd (w : LL) (s : State) : Out := latomWord w 3 s
/-- LATOM.OR. -/
def execLatomOr (w : LL) (s : State) : Out := latomWord w 4 s
/-- LATOM.XOR. -/
def execLatomXor (w : LL) (s : State) : Out := latomWord w 5 s
/-- LATOM.XCHG. -/
def execLatomXchg (w : LL) (s : State) : Out := latomWord w 6 s
/-- LATOM.CAS. -/
def execLatomCas (w : LL) (s : State) : Out := latomWord w 7 s

/-! ## One unit for the whole word (08 R171-R173) -/

/-- What a lane receives from the bytes that a unit read; `rows` gives the bytes by row, row 0 for one address. -/
def spreadWords (spread : Nat) (rows : Nat → List Byte) (lane : Nat) : List Word :=
  if spread = 8 then
    [BitVec.ofNat 32 (planeOf fun k => (field (rows 0) (4 * k) 4).testBit lane)]
  else if 16 ≤ spread then
    let n := spread - 16
    let b := TebBlock.ofWords n ((List.range (3 + n)).map fun j => field (rows 0) (4 * j) 4)
    [BitVec.ofNat 32 (match b.value n n lane with
      | .fin neg m e => (fmtF32.round .rne neg m e).bits
      | _ => fmtF32.nan)]
  else
    let c := 2 * (lane / 4)
    [BitVec.ofNat 32 (field (rows (lane % 4)) (c * spread) spread), BitVec.ofNat 32 (field (rows (lane % 4)) ((c + 1) * spread) spread)]

/-- A row of a unit that has been read: its number, its local address, its bytes. -/
structure UnitRow where
  lane : Nat
  addr : Nat
  data : List PByte
  deriving DecidableEq, Repr

/-- The bytes of row `r`. -/
def rowOf (rows : List UnitRow) (r : Nat) : List PByte := ((rows.find? fun x => x.lane == r).map fun x => x.data).getD []

/-- The row that a lane reads, and where its data begin and end in it: two elements of a transposed row, else the whole unit. -/
def laneSpan (spread n lane : Nat) : Nat × Nat × Nat :=
  if spread < 8 then (lane % 4, 2 * (lane / 4) * spread, 2 * spread) else (0, 0, n)

/-- Whether a lane's data is poisoned (21 R380): any word that it reads. -/
def lanePoisoned (spread n : Nat) (rows : List UnitRow) (lane : Nat) : Bool :=
  let p := laneSpan spread n lane
  (((rowOf rows p.1).drop p.2.1).take p.2.2).any Prod.snd

/-- The local address of a lane's data. -/
def laneData (spread n : Nat) (rows : List UnitRow) (lane : Nat) : Nat :=
  let p := laneSpan spread n lane
  ((rows.find? fun x => x.lane == p.1).map fun x => (x.addr + p.2.1) % 2 ^ 32).getD 0

/-- Reads a unit of rows, each of `n` bytes, and gives each active lane its words: at once where every row is the core's own,
else when the last row has returned. The first row that fails a check ends the word (08 R171). -/
def State.unitLoad (s : State) (c : LaneCtx) (n spread : Nat) (dst : List Nat) (l : List LLane) : State :=
  match l.find? fun x => x.res.faults with
  | some x => s.failLocal c x.addr x.res
  | none =>
    let rows : List UnitRow := (ownLanes l).map fun p => { lane := p.1.lane, addr := p.1.addr, data := s.localRead c.h p.2 n }
    if farLanes l = [] then
      let s := s.modGang c.h c.g fun gg => dst.foldl (fun gg k => gg.dropLatch k c.act) gg
      let bad (i : Nat) : Bool := lanePoisoned spread n rows i
      let good := (lanesOf c.act).filter fun i => !bad i
      ((good.foldl (fun s i => s.writeRegs c i dst (spreadWords spread (fun r => (rowOf rows r).map Prod.fst) i)) s).laneDone c).localPoison c
        (((lanesOf c.act).filter bad).map fun i => (i, laneData spread n rows i))
    else
      let own := rows.map fun x =>
        { remoteLane x.lane x.addr [] [] [] with
          stage := 1, result := x.data.map Prod.fst, bad := x.data.map Prod.snd, poisoned := x.data.any Prod.snd }
      let s := s.sendRemote c (.block n) spread ((lanesOf c.act).map fun i => (i, s.entriesOf c.h c.g i dst))
        (own ++ (farLanes l).map fun x => remoteLane x.lane x.addr [] [] [])
      ((lanesOf c.act).foldl (fun s i => s.markLane c.h c.g i dst .interlocked) s).laneDone c

/-- A transposing load of elements of `e` bytes. -/
def transposeWord (w : LL) (e : Nat) (s : State) : Out :=
  s.localWord { guard := w.g.toNat, more := [(w.a.toNat, .rows)], dsts := regs w.d 2 } fun c s =>
    let need := lanesOf (ReadLanes.rows.of c.act)
    if c.act = 0 then s.laneDone c
    else
      let l := need.map fun r =>
        let addr := s.localAddr c w.a (w.imm.toNat * e) r
        ({ lane := r, addr := addr, res := s.checkLocal c.h addr e (16 * e) false } : LLane)
      s.unitLoad c (16 * e) e (regs w.d 2) l

/-- TLD8 (08 R171). -/
def execTld8 (w : LL) (s : State) : Out := transposeWord w 1 s
/-- TLD16. -/
def execTld16 (w : LL) (s : State) : Out := transposeWord w 2 s
/-- TLD32. -/
def execTld32 (w : LL) (s : State) : Out := transposeWord w 4 s

/-- The check of a one-address word of `n` bytes; the base comes from the lowest active lane, whether or not that lane stops at the word
(08 R172). -/
def State.unitCheck (s : State) (c : LaneCtx) (a : BitVec 5) (k n : Nat) (write : Bool) : LLane :=
  let addr := s.localAddr c a k c.low
  { lane := 0, addr := addr, res := s.checkLocal c.h addr 4 n write }

/-- Writes one unit: at once, or at the other core. -/
def State.unitStore (s : State) (c : LaneCtx) (x : LLane) (bs : List Byte) : State :=
  match x.res with
  | .own t => (s.localWrite c.h t bs).laneDone c
  | .remote => (s.sendRemote c .store 0 [] [remoteLane 0 x.addr [] bs []]).laneDone c
  | r => s.failLocal c x.addr r

/-- PLNW (08 R172). -/
def execPlnw (w : LL) (s : State) : Out :=
  s.localWord { guard := w.g.toNat, more := [(w.a.toNat, .lowest)], third := [w.d.toNat] } fun c s =>
    if c.act = 0 then s.laneDone c
    else
      s.unitStore c (s.unitCheck c w.a (w.imm.toNat * 4) 128 true)
        ((List.range 32).flatMap fun k => leBytes 4 (planeOf fun i => c.act.getLsbD i && (s.val c w.d.toNat i).getLsbD k))

/-- PLNR (08 R172). -/
def execPlnr (w : LL) (s : State) : Out :=
  s.localWord { guard := w.g.toNat, more := [(w.a.toNat, .lowest)], dsts := [w.d.toNat] } fun c s =>
    if c.act = 0 then s.laneDone c
    else s.unitLoad c 128 8 [w.d.toNat] [s.unitCheck c w.a (w.imm.toNat * 4) 128 false]

/-- TEBQ (08 R173). Its flags are set as it issues, though another core may refuse the block later (log 82). -/
def execTebq (w : LTeb) (s : State) : Out :=
  let n := tebN w.var.toNat
  s.localWord { guard := w.g.toNat, more := [(w.a.toNat, .lowest)], third := [w.d.toNat] } fun c s =>
    if c.act = 0 then s.laneDone c
    else
      let x := s.unitCheck c w.a (w.off.toNat * 4) (tebBytes n) true
      let q := tebQuantise n ((List.range 32).map fun i => fmtF32.value (if c.act.getLsbD i then (s.val c w.d.toNat i).toNat else 0))
      let s' := if x.res.faults then s else s.modGang c.h c.g fun gg => gg.orFlags c.act fun i => q.2.getD i 0
      s'.unitStore c x ((q.1.words n).flatMap fun v => leBytes 4 v)

/-- TEBL (08 R173). -/
def execTebl (w : LTeb) (s : State) : Out :=
  let n := tebN w.var.toNat
  s.localWord { guard := w.g.toNat, more := [(w.a.toNat, .lowest)], dsts := [w.d.toNat] } fun c s =>
    if c.act = 0 then s.laneDone c
    else s.unitLoad c (tebBytes n) (16 + n) [w.d.toNat] [s.unitCheck c w.a (w.off.toNat * 4) (tebBytes n) false]

/-! ## Accesses at other cores (08 R165-R168, 21 R404) -/

/-- Changes one lane of a remote access. -/
def State.modRemote (s : State) (op lane : Nat) (f : RemoteLane → RemoteLane) : State :=
  { s with remotes := s.remotes.map fun x =>
      if x.id = op then { x with lanes := x.lanes.map fun l => if l.lane = lane then f l else l } else x }

/-- The handle of the task that made an access. -/
def Owner.task (o : Owner) : Nat × Nat :=
  match o with
  | .gang h g => (h, g)
  | _ => (0, 0)

/-- Whether a word has one address, or one unit of rows, for all its lanes. -/
def RemoteOp.whole (x : RemoteOp) : Bool :=
  match x.kind with
  | .block _ => true
  | .store => x.lanes.any fun l => decide (16 < l.bytes.length)
  | _ => false

/-- The bytes a remote lane touches. -/
def RemoteOp.bytes (x : RemoteOp) (l : RemoteLane) : Nat :=
  match x.kind with
  | .load n => n
  | .store => l.bytes.length
  | .latom _ => 4
  | .block n => n

/-- Whether an access writes. -/
def RemoteKind.writes (k : RemoteKind) : Bool :=
  match k with
  | .store => true
  | .latom _ => true
  | _ => false

/-- A remote lane takes effect at its scratchpad, or is refused there. -/
def State.remoteLane1 (s : State) (x : RemoteOp) (l : RemoteLane) : State :=
  let h := x.owner.task.1
  match s.localTarget h l.addr (x.bytes l) x.kind.writes with
  | .bad c => s.modRemote x.id l.lane fun y => { y with stage := 1, refused := c }
  | t =>
    match x.kind with
    | .store => (s.localWrite h t l.bytes).modRemote x.id l.lane fun y => { y with stage := 1 }
    | .latom o =>
      let r := s.latomAt h t o (l.data.getD 0 0) (l.data.getD 1 0)
      r.2.modRemote x.id l.lane fun y => match r.1 with
        | some v => { y with stage := 1, result := leBytes 4 v.toNat }
        | none => { y with stage := 1, poisoned := true }
    | _ =>
      let bs := s.localRead h t (x.bytes l)
      s.modRemote x.id l.lane fun y =>
        { y with stage := 1, result := bs.map Prod.fst, bad := bs.map Prod.snd, poisoned := bs.any Prod.snd }

/-- The core whose scratchpad receives a local address of a task: none where no task has it. -/
def State.localCore (s : State) (h addr : Nat) : Option Nat :=
  match addr / 2 ^ 28 with
  | 1 => (s.spanTask h (bits addr 27 18)).map hCore
  | 2 => if bits addr 27 25 < 6 then some (hCore (space2Handle h addr)) else none
  | _ => some (hCore h)

/-- A word arrives at the scratchpad that holds a lane's address: all its lanes for that core take effect as one, in ascending order
(08 R167); its lanes for other cores come there on their own (R168). -/
def State.remoteLands (s : State) (op lane : Nat) : Option State :=
  match s.remotes.find? fun x => x.id == op with
  | none => none
  | some x =>
    match x.lanes.find? fun l => l.lane == lane && decide (l.stage = 0) with
    | none => none
    | some l =>
      let core (m : RemoteLane) : Option Nat := s.localCore x.owner.task.1 m.addr
      some ((x.lanes.filter fun m => decide (m.stage = 0) && core m == core l).foldl (fun s m => s.remoteLane1 x m) s)

/-- REMOTE_SCRATCHPAD_ACCESS. -/
def execRemoteScratchpadAccess (op lane : Nat) (s : State) : Out := event (s.remoteLands op lane) s

/-- Whether a lane failed. -/
def RemoteLane.failed (l : RemoteLane) : Bool := decide (l.refused ≠ 0) || l.poisoned

/-- The reply of a lane-addressed remote access: its data, or none where it failed. -/
def State.remoteLaneReply (s : State) (x : RemoteOp) (l : RemoteLane) : State :=
  let (h, g) := x.owner.task
  if l.failed then s.refill h g l.lane l.dst
  else s.writeEntries h g l.lane l.dst (loadWords false (x.bytes l) (l.result.map fun b => (b, false)))

/-- The rows of a unit whose every row has returned. -/
def RemoteOp.rows (x : RemoteOp) : List UnitRow := x.lanes.map fun l => { lane := l.lane, addr := l.addr, data := l.result.zip l.bad }

/-- The last reply of a unit: no lane receives its words where a row was refused; else the lanes whose data is not poisoned do. -/
def State.remoteUnitReply (s : State) (x : RemoteOp) : State :=
  let (h, g) := x.owner.task
  x.dsts.foldl (fun s p =>
    if (x.lanes.any fun l => decide (l.refused ≠ 0)) || lanePoisoned x.spread (x.lanes.headD (remoteLane 0 0 [] [] [])).result.length x.rows p.1
    then s.refill h g p.1 p.2
    else s.writeEntries h g p.1 p.2 (spreadWords x.spread (fun r => (rowOf x.rows r).map Prod.fst) p.1)) s

/-- What a failed access reports: cause, lanes, address of the lowest (21 R404). A word of one address names its active lanes. -/
def RemoteOp.failures (x : RemoteOp) (p : RemoteLane → Bool) : Option (LaneMask × Nat) :=
  match x.lanes.filter p with
  | [] => none
  | l :: t =>
    some (if x.whole then x.mask else t.foldl (fun m y => m ||| laneBit y.lane) (laneBit l.lane), l.addr)

/-- The poisoned lanes of an access. -/
def RemoteOp.poisonOf (x : RemoteOp) : Option (LaneMask × Nat) :=
  match x.kind with
  | .block n =>
    match (lanesOf x.mask).filter (lanePoisoned x.spread n x.rows) with
    | [] => none
    | i :: t => some (t.foldl (fun m j => m ||| laneBit j) (laneBit i), laneData x.spread n x.rows i)
  | _ => x.failures fun l => decide (l.refused = 0) && l.poisoned

/-- The faults of an access whose every lane has replied: PERM by cause, then POISON; a unit that was refused has no data. -/
def State.remoteFaults (s : State) (x : RemoteOp) : State :=
  let (h, g) := x.owner.task
  let causes := ((x.lanes.filter fun l => decide (l.refused ≠ 0)).map RemoteLane.refused).eraseDups
  let s := (if x.whole then causes.take 1 else causes).foldl (fun s n => match x.failures fun l => l.refused == n with
    | some (m, addr) => s.raiseLater h g (.lane kPERM x.pc m (256 + n) addr)
    | none => s) s
  if x.whole && causes != [] then s
  else
    match x.poisonOf with
    | some (m, addr) => s.raiseLater h g (.lane kPOISON x.pc m 2 addr)
    | none => s

/-- REMOTE_SCRATCHPAD_REPLY: one lane's reply; the last one ends the access and raises its faults. -/
def State.remoteReplies (s : State) (op lane : Nat) : Option State :=
  match s.remotes.find? fun x => x.id == op with
  | none => none
  | some x =>
    match x.lanes.find? fun l => l.lane == lane && decide (l.stage = 1) with
    | none => none
    | some l =>
      let s := s.modRemote op lane fun y => { y with stage := 2 }
      let last := x.lanes.all fun m => m.lane == lane || decide (m.stage = 2)
      let s := match x.kind with
        | .block _ => if last then s.remoteUnitReply x else s
        | .store => s
        | _ => s.remoteLaneReply x l
      some (if last then ({ s with remotes := s.remotes.filter fun y => y.id != op }.remoteFaults x).settle else s)

/-- REMOTE_SCRATCHPAD_REPLY; the return of an own-core LATOM's old value takes this event too (log 22). -/
def execRemoteScratchpadReply (op lane : Nat) (s : State) : Out := event (s.remoteReplies op lane) s

end Sys2Proof.Machine
end

