-- ==== Sys2Proof/Machine/Transfer.lean ====
section
/-!
DEFINITION. Block transfers (15 R287-R301, follower copies 11 R253, R254, 12 R268) and BARREM (15 R303).
-/
namespace Sys2Proof.Machine

open Sys2Proof

/-! ## Reads by units other than cores -/

/-- Parts of a range, none crossing a 128-byte line. -/
def lineParts (va n : Nat) : List (Nat × Nat) :=
  (List.range (n / 128 + 2)).filterMap fun j =>
    let a := va / 128 * 128 + 128 * j
    let lo := if a < va then va else a
    let hi := if va + n < a + 128 then va + n else a + 128
    if lo < hi then some (lo % 2 ^ 64, hi - lo) else none

/-- Translation and checks without a TLB: a unit of the die walks the tables itself. -/
def State.checkWalk (s : State) (ctx va n : Nat) (a : Access) : Checked × State :=
  if !canonical va then (.perm 1, s)
  else
    match s.walk ctx va with
    | .page c l => (.page c l, s)
    | .leaf e slot =>
      let s := s.orSlot slot (if a.writes then 2 ^ 53 + 2 ^ 54 else 2 ^ 53)
      match permCause e (leafPa e va) n a with
      | some c => (.perm c, s)
      | none => if a.writes && pteMig e then (.mig, s) else (.ok (leafPa e va) e, s)

/-- Checks an address for a unit: through a cluster's TLB, or by a walk of its own. -/
def State.unitCheckVa (s : State) (tlb : Option Nat) (ctx va n : Nat) (a : Access) : Checked × State :=
  match tlb with
  | some k => s.check k ctx va 1 n a
  | none => s.checkWalk ctx va n a

/-- A unit of a die reads a range at the die point, poison and all; it waits where a read there would miss a write, or the home is in
self-refresh. -/
def State.unitRead (s : State) (tlb : Option Nat) (die ctx va n : Nat) : BmRes (List PByte) × State :=
  match s.asleepTable ctx with
  | some pa => (.wait pa, s)
  | none => (lineParts va n).foldl (fun r p =>
    BmRes.bind r fun bs s =>
      match s.unitCheckVa tlb ctx p.1 p.2 .read with
      | (.ok pa leaf, s) =>
        let mode := s.accessMode leaf pa 0 false
        if !s.dieReadable die pa p.2 mode then (.wait pa, s)
        else
          let q := if mode = 2 then (s.homeRead pa p.2, s) else s.dieRead die pa p.2 (mode == 3)
          (.ok (bs ++ q.1), q.2)
      | (c, s) => (.failed c p.1, s)) (.ok [], s)

/-! ## The descriptor (15 R288-R290) -/

/-- Copies bit 55 into bits 63-56 (15 R288). -/
def sext56 (a : Nat) : Nat := if (a % 2 ^ 56).testBit 55 then a % 2 ^ 56 + 255 * 2 ^ 56 else a % 2 ^ 56

/-- A signed field of `n` bits. -/
def sfield (v n : Nat) : Int := (BitVec.ofNat n v).toInt

/-- Reads a descriptor from its eight doublewords (15 Table 15-1). -/
def xdescOf (q : List Nat) : XDesc :=
  let f (i hi lo : Nat) : Nat := bits (q.getD i 0) hi lo
  { far := sext56 (f 0 55 0), esz := f 0 58 56, store := (q.getD 0 0).testBit 59, scope := f 0 62 60, near := f 1 31 0, cval := f 1 63 32,
    cword := if f 2 55 0 = 0 then 0 else sext56 (f 2 55 0), ext := (List.range 4).map fun j => f 3 (12 * j + 11) (12 * j),
    lo := (List.range 4).map fun j => f 3 (48 + 4 * j + 3) (48 + 4 * j), hi := (List.range 4).map fun j => f 4 (12 * j + 11) (12 * j),
    bmap := f 4 61 48, bmen := (q.getD 4 0).testBit 62,
    fstr := [sfield (f 5 23 0) 24, sfield (f 5 47 24) 24, sfield (f 6 23 0) 24], nstr := [f 5 63 48, f 6 39 24, f 6 55 40],
    pad := f 7 31 0, mc := (List.range (f 7 63 62)).map fun j => f 7 (41 + 10 * j) (32 + 10 * j) }

def XDesc.e (d : XDesc) : Nat := 2 ^ d.esz
/-- E: the number of elements. -/
def XDesc.count (d : XDesc) : Nat := d.ext.foldl (· * ·) 1

/-- Offset of the lowest byte of an offending field, if the descriptor is malformed (15 R290, R294). -/
def xdescBad (q : List Nat) : Option Nat :=
  let d := xdescOf q
  let f (i hi lo : Nat) : Nat := bits (q.getD i 0) hi lo
  let e := d.e
  let known := decide (d.esz ≤ 4)
  let near (j : Nat) : Bool := known && decide (1 < d.ext.getD (j + 1) 0) && decide (4 * d.nstr.getD j 0 % e ≠ 0)
  let mcnt := f 7 63 62
  let space := d.near / 2 ^ 28
  ([(known && decide (d.far % e ≠ 0), 0), (decide (4 < d.esz) || decide (d.scope = 7) || (q.getD 0 0).testBit 63, 7),
    (known && decide (d.near % e ≠ 0), 8), (decide (d.cword % 8 ≠ 0), 16), (decide (f 2 63 56 ≠ 0), 23),
    (d.ext.getD 0 0 == 0 || (known && decide (262144 < d.count * e)), 24), (d.ext.getD 1 0 == 0, 25), (d.ext.getD 2 0 == 0, 27),
    (d.ext.getD 3 0 == 0, 28), ((q.getD 4 0).testBit 63, 39), (near 0, 46), (near 1, 51), (near 2, 53), (decide (f 6 63 56 ≠ 0), 55),
    (decide (mcnt = 0) && decide (f 7 41 32 ≠ 0), 60), (decide (mcnt ≤ 1) && decide (f 7 51 42 ≠ 0), 61),
    (decide (mcnt ≤ 2) && decide (f 7 61 52 ≠ 0), 62), (decide (mcnt ≠ 0) && (d.store || (space != 0 && space != 2)), 63)].find?
      fun p => p.1).map Prod.snd

/-! ## Elements and chunks (15 R289, R291) -/

/-- One part of a transfer: its near address at the primary destination, its length, its far address (none: pad), and the bits of
each byte that are copied, the others being zero. -/
structure XPiece where
  near : Nat
  n : Nat
  far : Option Nat
  keep : Byte := 255
  deriving DecidableEq, Repr

/-- Coordinates of iteration index l. -/
def XDesc.coords (d : XDesc) (l : Nat) : List Nat :=
  let e (j : Nat) := d.ext.getD j 1
  [l % e 0, l / e 0 % e 1, l / (e 0 * e 1) % e 2, l / (e 0 * e 1 * e 2)]

/-- Element l; a store has none outside the bounds. -/
def XDesc.piece (d : XDesc) (l : Nat) : Option XPiece :=
  let k := d.coords l
  let kj (j : Nat) := k.getD j 0
  let inb := (List.range 4).all fun j => decide (d.lo.getD j 0 ≤ kj j) && decide (kj j < d.hi.getD j 0)
  let far := ((d.far : Int) + d.e * ((kj 0 : Int) + (List.range 3).foldl (fun a j => a + d.fstr.getD j 0 * (kj (j + 1) : Int)) 0)) % 2 ^ 64
  let near := (d.near + d.e * kj 0 + 4 * (List.range 3).foldl (fun a j => a + d.nstr.getD j 0 * kj (j + 1)) 0) % 2 ^ 32
  if inb then some { near := near, n := d.e, far := some far.toNat }
  else if d.store then none
  else some { near := near, n := d.e, far := none }

/-- Bytes of a transfer's payload. -/
def Transfer.bytes (x : Transfer) : Nat :=
  match x.src with
  | .desc d => d.count * d.e
  | .follow f => f.bytes

/-- C: the number of chunks. -/
def Transfer.chunks (x : Transfer) : Nat := (x.bytes + 511) / 512

/-- The parts of chunk c. -/
def Transfer.pieces (x : Transfer) (c : Nat) : List XPiece :=
  match x.src with
  | .desc d => (List.range (512 / d.e)).filterMap fun j => let l := 512 / d.e * c + j; if l < d.count then d.piece l else none
  | .follow f =>
    (f.segs.getD []).filterMap fun q =>
      let lo := if q.off < 512 * c then 512 * c else q.off
      let hi := if q.off + q.n < 512 * (c + 1) then q.off + q.n else 512 * (c + 1)
      if lo < hi then
        some { near := f.stage + lo, n := hi - lo, far := q.far.map fun a => (a + (lo - q.off)) % 2 ^ 64, keep := q.keep }
      else none

def Transfer.isStore (x : Transfer) : Bool :=
  match x.src with
  | .desc d => d.store
  | .follow _ => false

/-- The scope of its notices; a follower copy's is cluster (11 R254). -/
def Transfer.scope (x : Transfer) : Nat :=
  match x.src with
  | .desc d => d.scope
  | .follow _ => 3

/-- Address of a primary near address at a destination: none is the primary, else a multicast target (15 R288). -/
def destAddr (m : Option Nat) (a : Nat) : Nat :=
  match m with
  | none => a
  | some t => 2 * 2 ^ 28 + t * 2 ^ 18 + a % 2 ^ 18

/-- The destinations of a load. -/
def Transfer.dests (x : Transfer) : List (Option Nat) :=
  match x.src with
  | .desc d => none :: (if d.store then [] else d.mc.map some)
  | .follow _ => [none]

/-- The bitmap address at a destination, if bitmaps are kept (15 R291). -/
def Transfer.bitmap (x : Transfer) (m : Option Nat) : Option Nat :=
  match x.src with
  | .follow f => some f.bmap
  | .desc d =>
    if !d.bmen then none
    else if d.store then some (16 * d.bmap)
    else
      match m with
      | some _ => some (destAddr m (16 * d.bmap))
      | none => some (d.near / 2 ^ 18 * 2 ^ 18 + 16 * d.bmap)

/-- Words of the bitmap. -/
def Transfer.bitmapWords (x : Transfer) : Nat := (x.chunks + 31) / 32

/-- The completion word and its value. -/
def Transfer.cword (x : Transfer) : Option (Nat × Nat) :=
  match x.src with
  | .desc d => if d.cword = 0 then none else some (d.cword, d.cval)
  | .follow _ => none

/-! ## Checks at issue (15 R295) -/

/-- A failed access of a transfer: kind, detail, address. -/
structure XFault where
  kind : Nat
  detail : Nat
  addr : Nat
  deriving DecidableEq, Repr

/-- The fault of a failed far check; a PAGE record has bit 12 set (09 Table 9-3). -/
def farFault (c : Checked) (va : Nat) (a : Access) : Option XFault :=
  match c with
  | .ok _ _ => none
  | .mig => none
  | .align => some { kind := kALIGN, detail := 0, addr := va }
  | .perm n => some { kind := kPERM, detail := n, addr := va }
  | .page n l => some { kind := kPAGE, detail := pageDetail n l a + 4096, addr := va }

/-- The fault of a near footprint. -/
def State.nearFault (s : State) (h addr n : Nat) (write : Bool) : Option XFault :=
  match s.localTarget h addr n write with
  | .bad c => some { kind := kPERM, detail := 256 + c, addr := addr }
  | .desc _ => some { kind := kPERM, detail := 257, addr := addr }
  | .scratch _ _ => none

/-- The fault of word `j` of a bitmap: its words stand at byte offsets of one scratchpad, and past bits 17-0 there is none (R291). -/
def State.bitmapFault (s : State) (h b j : Nat) : Option XFault :=
  if 2 ^ 18 ≤ b % 2 ^ 18 + 4 * j then some { kind := kPERM, detail := 258, addr := (b + 4 * j) % 2 ^ 32 }
  else s.nearFault h (b + 4 * j) 4 true

/-- Runs checks until one fails. -/
def firstFault {α : Type} (f : State → α → Option XFault × State) (l : List α) (s : State) : Option XFault × State :=
  l.foldl (fun r a => match r.1 with
    | some _ => r
    | none => f r.2 a) (none, s)

/-- The checks of one destination of a load, or of a store's far elements, then its bitmap. -/
def State.checkDest (s : State) (x : Transfer) (m : Option Nat) : Option XFault × State :=
  let ps := (List.range x.chunks).flatMap x.pieces
  let r := if x.isStore then
      firstFault (fun s (p : XPiece) => match p.far with
        | none => (none, s)
        | some va => let q := s.check x.cluster (s.ctxOf x.h) va 1 p.n .write; (farFault q.1 va .write, q.2)) ps s
    else ((ps.findSome? fun p => s.nearFault x.h (destAddr m p.near) p.n true), s)
  match r.1, x.bitmap m with
  | none, some b => ((List.range x.bitmapWords).findSome? fun j => r.2.bitmapFault x.h b j, r.2)
  | _, _ => r

/-- Every check of R295. -/
def State.checkTransfer (s : State) (x : Transfer) : Option XFault × State :=
  let r := firstFault (fun s m => s.checkDest x m) x.dests s
  match r.1, x.cword with
  | none, some (a, _) => let q := r.2.check x.cluster (s.ctxOf x.h) a 1 4 .write; (farFault q.1 a .write, q.2)
  | _, _ => r

/-- Reads `n` doublewords as uniform loads. -/
def State.readDwords (s : State) (h g va n : Nat) : BmRes (List Nat) × State :=
  BmRes.bind (s.readPairs h g va n) fun ps s => (.ok (ps.map fun p => p.1.toNat + 2 ^ 32 * p.2.toNat), s)

/-- The producer gang of a task. -/
def State.producer (s : State) (h : Nat) : Nat :=
  match s.task h with
  | none => 255
  | some t => t.variant.prod

/-- BTCOPY (15 R294). -/
def execBtcopy (w : UA) (s : State) : Out :=
  s.uniformGang w.c fun h g e s =>
    let who := Who.gang h g
    let p := s.spair who w.a.toNat
    if g ≠ s.producer h then s.raiseUniform who e kPRODUCER (s.producer h % 256) 0
    else if p % 64 ≠ 0 then s.raiseUniform who e kALIGN 0 p
    else if 63 ≤ s.count who 2 then s.stayAt who e (.stall (.counter 2))
    else
      s.gate who e fun s =>
        let q := s.readDwords h g p 8
        q.2.bmFail h g e q.1 fun ds =>
          match xdescBad ds with
          | some off => q.2.raiseUniform who e kPERM 9 (p + off)
          | none =>
            let (id, s) := q.2.fresh
            let x : Transfer :=
              { id := id, cluster := hCluster h, h := h, g := g, pc := e.pc, mask := e.mask, src := .desc (xdescOf ds), committed := 0,
                spec := 0, next := 0, marked := [], flight := [], st := .queued, pageAddr := 0, pageDetail := 0 }
            let r := s.checkTransfer x
            match r.1 with
            | some f => r.2.raiseUniform who e f.kind f.detail f.addr
            | none => ({ r.2 with transfers := r.2.transfers ++ [x] }.addCount who 2 (· + 1)).advance h g e e.mask

/-! ## Chunks (15 R292, R296, R297) -/

/-- Writes bytes of near addresses at one destination; where two parts give one byte, which stays is open (R290, log 10).
A word takes the poison of its bytes, and loses its own when all four are written. -/
def State.nearWrite (s : State) (h : Nat) (l : List (LTarget × List PByte)) : State :=
  let bs := l.flatMap fun p => match p.1 with
    | .scratch u off => (List.range p.2.length).map fun j => (u, off + j, p.2.getD j (0, false))
    | _ => []
  let s := (List.range bs.length).foldl (fun s i =>
    let b := bs.getD i (h, 0, (0, false))
    let again := (bs.take i).any fun c => c.1 == b.1 && c.2.1 == b.2.1
    if again && Config.overlap (s.tick * 2 ^ 16 + i) % 2 == 0 then s
    else s.modTask b.1 fun t => { t with scratch := Memory.write t.scratch b.2.1 b.2.2.1 }) s
  ((bs.map fun b => (b.1, b.2.1 / 4)).eraseDups).foldl (fun s w =>
    let mine := bs.filter fun b => b.1 == w.1 && b.2.1 / 4 == w.2
    if mine.any fun b => b.2.2.2 then s.modTask w.1 fun t => { t with scratchPoison := AList.set false t.scratchPoison w.2 true }
    else if (List.range 4).all fun j => mine.any fun b => b.2.1 == 4 * w.2 + j then
      s.modTask w.1 fun t => { t with scratchPoison := AList.set false t.scratchPoison w.2 false }
    else s) s

/-- Result of an attempt at a chunk. -/
inductive XRes
  | done (s : State)
  | fault (f : XFault)
  | wait
  deriving Repr

/-- The pad bytes of a part (15 R289); a follower's are zero. -/
def Transfer.padBytes (x : Transfer) (n : Nat) : List PByte :=
  match x.src with
  | .desc d => (List.range n).map fun j => (BitVec.ofNat 8 (d.pad / 256 ^ (j % 4)), false)
  | .follow _ => (List.range n).map fun _ => (0, false)

/-- The data of a load's parts; none while they cannot all be read. -/
def State.loadPieces (s : State) (x : Transfer) (ps : List XPiece) : Except (Option XFault) (List (XPiece × List PByte)) × State :=
  ps.foldl (fun r p => match r.1 with
    | .error _ => r
    | .ok l =>
      match p.far with
      | none => (.ok (l ++ [(p, x.padBytes p.n)]), r.2)
      | some va =>
        match r.2.unitRead (some x.cluster) (x.cluster / 8) (s.ctxOf x.h) va p.n with
        | (.ok bs, s) => (.ok (l ++ [(p, bs.map fun b => (b.1 &&& p.keep, b.2))]), s)
        | (.failed c va, s) => (.error (some ((farFault c va .read).getD { kind := kPERM, detail := 0, addr := va })), s)
        | (_, s) => (.error none, s)) (.ok [], s)

/-- Writes of a unit of a die for a gang, accepted at its die point (15 R292, 13 R275). Each is (address, physical address, mode,
bytes, poison). -/
def State.farStore (s : State) (die : Nat) (owner : Owner) (ctx : Nat) (pc : Word) (mask : Option LaneMask)
    (l : List (Nat × Nat × Nat × List Byte × Bool)) : State :=
  let (id, s) := s.fresh
  let lanes := (List.range l.length).map fun i =>
    let p := l.getD i (0, 0, 0, [], false)
    ({ lane := i, va := p.1, pa := p.2.1, mode := p.2.2.1, data := p.2.2.2.1, poison := p.2.2.2.2, stage := 0, seq := 0, denied := 0, deniedAt := 0 } : WriteLane)
  let wr : WriteOp :=
    { id := id, owner := owner, core := 2048, die := die, ctx := ctx, pc := pc, tagged := mask.isSome, umask := mask,
      counted := false, ordered := none, through := false, acked := false, lanes := lanes }
  let s := lanes.foldl (fun s m => s.acceptAtDie wr m) { s with writes := s.writes ++ [wr] }
  (s.storeAck id).getD s

/-- Far writes of an engine, as a store of the producer gang. -/
def State.engineStore (s : State) (x : Transfer) (l : List (Nat × Nat × Nat × List Byte × Bool)) : State :=
  let s := l.foldl (fun s p => s.dropOthers x.cluster (s.ctxOf x.h) p.1 (lineOf p.2.1)) s
  s.farStore (x.cluster / 8) (.gang x.h x.g) (s.ctxOf x.h) x.pc (some x.mask) l

/-- Words of a part's bytes for the far side, with the address of each; parts below 4 bytes stay whole. -/
def farWords (va : Nat) (bs : List PByte) : List (Nat × List Byte × Bool) :=
  if bs.length < 4 then [(va, bs.map Prod.fst, bs.any Prod.snd)]
  else (List.range (bs.length / 4)).map fun j =>
    let w := (bs.drop (4 * j)).take 4
    ((va + 4 * j) % 2 ^ 64, w.map Prod.fst, w.any Prod.snd)

/-- Whether a die's LLC has room for the guest lines of a unit's writes. -/
def State.farRoom (s : State) (die : Nat) (l : List (Nat × Nat × Nat × List Byte × Bool)) : Bool :=
  s.hasLines die (l.filter fun p => !(ownHome die p.2.1 || isBank p.2.1 || p.2.2.1 == 2)).length

/-- A unit's writes can be accepted at a die: the homes can be accessed, the LLC has room. -/
def State.farTakes (s : State) (die : Nat) (l : List (Nat × Nat × Nat × List Byte × Bool)) : Bool :=
  (l.all fun p => s.awake p.2.1) && s.farRoom die l

/-- Translates far writes; a migrating page makes the chunk wait (09 R194). -/
def State.farTargets (s : State) (x : Transfer) (l : List (Nat × List Byte × Bool)) :
    Except (Option XFault) (List (Nat × Nat × Nat × List Byte × Bool)) × State :=
  l.foldl (fun r p => match r.1 with
    | .error _ => r
    | .ok done =>
      match r.2.check x.cluster (s.ctxOf x.h) p.1 1 p.2.1.length .write with
      | (.ok pa leaf, s) => (.ok (done ++ [(p.1, pa, s.accessMode leaf pa 0 true, p.2.1, p.2.2)]), s)
      | (c, s) => (.error (farFault c p.1 .write), s)) (.ok [], s)

/-- Keeps one of the far writes to each address, which one is open (15 R290, log 10). -/
def State.farDistinct (s : State) (l : List (Nat × List Byte × Bool)) : List (Nat × List Byte × Bool) :=
  (List.range l.length).filterMap fun i =>
    let p := l.getD i (0, [], false)
    let same := (List.range l.length).filter fun j => (l.getD j (0, [], false)).1 == p.1
    if same.getD (Config.overlap (s.tick * 2 ^ 16 + same.headD 0) % same.length) 0 = i then some p else none

/-- Sets a chunk's bit in a bitmap word (15 R291): an atomic OR, which leaves a poisoned word poisoned (21 R379). -/
def State.setBitmap (s : State) (h b c : Nat) : Option XFault × State :=
  match s.bitmapFault h b (c / 32) with
  | some f => (some f, s)
  | none =>
    let t := s.localTarget h (b + 4 * (c / 32)) 4 true
    let old := s.localRead h t 4
    (none, s.localWriteP h t (leBytes 4 (pword old ||| ((1 : Word) <<< (c % 32))).toNat) (old.any Prod.snd))

/-- The bytes of a load chunk arrive in every destination. -/
def State.loadChunk (s : State) (x : Transfer) (c : Nat) : XRes :=
  match s.loadPieces x (x.pieces c) with
  | (.error (some f), _) => .fault f
  | (.error none, _) => .wait
  | (.ok l, s) =>
    match x.dests.findSome? fun m => l.findSome? fun p => s.nearFault x.h (destAddr m p.1.near) p.1.n true with
    | some f => .fault f
    | none =>
      .done (x.dests.foldl (fun s m =>
        s.nearWrite x.h (l.map fun p => (s.localTarget x.h (destAddr m p.1.near) p.1.n true, p.2))) s)

/-- The bytes of a store chunk are sent. -/
def State.storeChunk (s : State) (x : Transfer) (c : Nat) : XRes :=
  let ps := x.pieces c
  match ps.findSome? fun p => s.nearFault x.h p.near p.n false with
  | some f => .fault f
  | none =>
    let l := ps.flatMap fun p => match p.far with
      | some va => farWords va (s.localRead x.h (s.localTarget x.h p.near p.n false) p.n)
      | none => []
    match s.farTargets x (s.farDistinct l) with
    | (.error (some f), _) => .fault f
    | (.error none, _) => .wait
    | (.ok t, s) => if s.farTakes (x.cluster / 8) t then .done (s.engineStore x t) else .wait

/-- A chunk's bit is set in every bitmap. -/
def State.markChunk (s : State) (x : Transfer) (c : Nat) : XRes :=
  let r := firstFault (fun s b => s.setBitmap x.h b c) (x.dests.filterMap x.bitmap) s
  match r.1 with
  | some f => .fault f
  | none => .done r.2

/-- Whether the release that a unit's notice carries has completed at a scope (10 R229): a release of the gang whose accesses the
unit's are (10 R215); at package and system scope the unit's own writes are at their homes too. -/
def State.unitReleased (s : State) (o : Owner) (scope upto : Nat) : Bool :=
  s.writesVisible o o.place.1 o.place.2 scope upto &&
    (decide (scope ≤ 4) || s.writes.all fun w => w.acked || !(w.owner == o && w.core == 2048 && decide (w.id < upto)))

/-- Whether the release that a notice of a transfer carries has completed at its SCOPE (R292). -/
def State.engineReleased (s : State) (x : Transfer) (upto : Nat) : Bool := s.unitReleased (.gang x.h x.g) x.scope upto

/-- Whether the homes that a chunk touches, and its context's page tables, can be accessed (23 R397). -/
def State.farAwake (s : State) (x : Transfer) (c : Nat) : Bool :=
  (s.asleepTable (s.ctxOf x.h)).isNone && (x.pieces c).all fun p => p.far.all fun va => s.awake (s.checkWalk (s.ctxOf x.h) va 1 .read).1.pa

/-- The next thing a chunk in flight does: its bytes are copied; then, with a release at SCOPE, its bit is set. -/
def State.tryChunk (s : State) (x : Transfer) (f : Flight) : XRes :=
  match f.sent with
  | none => if !s.farAwake x f.chunk then .wait else if x.isStore then s.storeChunk x f.chunk else s.loadChunk x f.chunk
  | some upto => if s.engineReleased x upto then s.markChunk x f.chunk else .wait

def State.transfer (s : State) (t : Nat) : Option Transfer := s.transfers.find? fun x => x.id == t
def State.modTransfer (s : State) (t : Nat) (f : Transfer → Transfer) : State :=
  { s with transfers := s.transfers.map fun x => if x.id = t then f x else x }

/-- The engine issues chunks in ascending order up to chunk `n`, at most 16 being in flight (15 R297). -/
def Transfer.issueTo (n : Nat) (x : Transfer) : Transfer :=
  let k := min ((min n x.chunks) - x.next) (16 - x.flight.length)
  { x with flight := x.flight ++ (List.range k).map fun j => { chunk := x.next + j, sent := none },
           next := x.next + k, spec := max x.spec (x.next + k) }

/-- Committed: the lowest chunk not marked. -/
def Transfer.commit (x : Transfer) : Transfer :=
  { x with committed := ((List.range x.chunks).find? fun c => !x.marked.contains c).getD x.chunks }

/-- Whether a task's transfers may go on: it is resident and not pre-empted to the end of its drain. -/
def State.resident (s : State) (h : Nat) : Bool := (s.task h).isSome && decide (h < 3072)

/-- Whether a transfer occupies its cluster's engine. -/
def Transfer.active (x : Transfer) : Bool :=
  match x.st with
  | .running => true
  | .completing _ _ => true
  | _ => false

/-- Whether a cluster's engine runs fewer than eight transfers (15 R297). -/
def State.engineFree (s : State) (k : Nat) : Bool := decide ((s.transfers.filter fun y => y.cluster == k && y.active).length < 8)

/-- TRANSFER_START: in issue order, at most eight of a cluster run at once (15 R297). A follower copy reads its placement
records first. -/
def State.slotFree (s : State) (x : Transfer) : Bool :=
  s.engineFree x.cluster && s.transfers.all fun y => !(y.cluster == x.cluster && y.st == .queued && decide (y.id < x.id))

/-- A chunk in flight whose bytes are copied; then one that is complete. -/
def Transfer.moved (f : Flight) (upto : Nat) (x : Transfer) : Transfer :=
  match f.sent with
  | none => { x with flight := x.flight.map fun y => if y = f then { y with sent := some upto } else y }
  | some _ => { x with flight := x.flight.erase f, marked := if x.marked.contains f.chunk then x.marked else f.chunk :: x.marked }.commit

/-- The next step of a chunk in flight, if it can be taken. -/
def State.chunkStep (t c : Nat) (s : State) : State :=
  match s.transfer t with
  | none => s
  | some x =>
    match x.flight.find? fun f => f.chunk == c with
    | none => s
    | some f =>
      match s.tryChunk x f with
      | .done s => s.modTransfer t (Transfer.moved f s.nextId)
      | _ => s

/-- CHUNK_COMPLETE (15 R292, R297): the engine has issued its chunks up to `issued`, and chunk `c` at least; chunk `c` goes on as far
as it can: its bytes, then its bits. A suspended transfer issues nothing (R298). -/
def State.chunkComplete (s : State) (t c issued : Nat) : Option State :=
  match s.transfer t with
  | none => none
  | some x =>
    if x.st = .running then some (((s.modTransfer t (Transfer.issueTo (max issued (c + 1)))).chunkStep t c).chunkStep t c)
    else if x.st = .suspended then some ((s.chunkStep t c).chunkStep t c)
    else none

/-- CHUNK_COMPLETE. -/
def execChunkComplete (t : Nat) (chunk : ChunkIssue) (s : State) : Out := event (s.chunkComplete t chunk.chunk chunk.issued) s

/-- The write of the completion word (15 R292). -/
def State.tryCword (s : State) (x : Transfer) : XRes :=
  match x.cword with
  | none => .done s
  | some (a, v) =>
    if (s.asleepTable (s.ctxOf x.h)).isSome then .wait
    else
    match s.farTargets x [(a, leBytes 4 v, false)] with
    | (.error (some f), _) => .fault f
    | (.error none, _) => .wait
    | (.ok l, s) => if s.farTakes (x.cluster / 8) l then .done (s.engineStore x l) else .wait

def State.dropTransfer (s : State) (t : Nat) : State := { s with transfers := s.transfers.filter fun x => x.id != t }

/-- Every chunk is complete and marked, those that a restart copies again included (15 R292, R299). -/
def Transfer.whole (x : Transfer) : Bool := decide (x.committed = x.chunks) && decide (x.next = x.chunks) && x.flight.isEmpty

/-- The next step of a completing transfer, if it can be taken: CWORD is written with a release at SCOPE; once it is visible the BT
count falls. -/
def State.completeStep (t : Nat) (s : State) : State :=
  match s.transfer t with
  | none => s
  | some x =>
    match x.st with
    | .completing false upto =>
      if s.engineReleased x upto then
        match s.tryCword x with
        | .done s => s.modTransfer t fun y => { y with st := .completing true s.nextId }
        | _ => s
      else s
    | .completing true upto => if s.engineReleased x upto then (s.dropTransfer t).uncount (.gang x.h x.g) 2 else s
    | _ => s

/-- TRANSFER_COMPLETE: with every chunk marked the transfer completes, and goes on as far as it can. -/
def State.transferComplete (s : State) (t : Nat) : Option State :=
  match s.transfer t with
  | none => none
  | some x =>
    if x.st = .running ∧ x.whole then
      some (((s.modTransfer t fun y => { y with st := .completing false s.nextId }).completeStep t).completeStep t)
    else some ((s.completeStep t).completeStep t)

/-- TRANSFER_COMPLETE. -/
def execTransferComplete (t : Nat) (s : State) : Out := event (s.transferComplete t) s

/-- The first fault among the accesses that a transfer makes next. -/
def State.nextFault (s : State) (x : Transfer) : Option XFault :=
  match x.st with
  | .running => x.flight.findSome? fun c => match s.tryChunk x c with
    | .fault f => some f
    | _ => none
  | .completing false upto =>
    if s.engineReleased x upto then
      match s.tryCword x with
      | .fault f => some f
      | _ => none
    else none
  | _ => none

/-- Suspends a transfer on a PAGE fault, with an event to the scheduler thread (15 R298). -/
def State.suspend (s : State) (x : Transfer) (f : XFault) : State :=
  (s.modTransfer x.id fun y => { y with st := .suspended, pageAddr := f.addr, pageDetail := f.detail }).post (x.cluster / 8)
    (.transfer x.id)

/-- A transfer fails: the producer gang's record, then the count, without CWORD (15 R298). -/
def State.failTransfer (s : State) (x : Transfer) (f : XFault) : State :=
  ((s.dropTransfer x.id).raiseLater x.h x.g
    { kind := f.kind, flags := 0, pc := x.pc, mask := x.mask, detail := f.detail, addr := f.addr, commit := x.committed,
      spec := x.spec }).uncount (.gang x.h x.g) 2

/-! ## Follower copies (11 R253, R254, 12 R268) -/

/-- Bits of an element of a format; a TEB or MX block of 32 for codes 10-15 (04 Table 4-1). -/
def fmtBits (f : Nat) : Nat :=
  if f = 0 ∨ f = 7 ∨ f = 8 then 32 else if f = 1 ∨ f = 2 then 16 else if f ≤ 6 then 8 else 64

/-- Bytes of `n` elements of a format. TEB and MX elements come in whole blocks of 32 in the tile's memory order, the last one rounded up (12
R268 gives a block's size only): DESIGN CHOICE (log 93). -/
def fmtBytes (f n : Nat) : Nat :=
  if f < 10 then n * (fmtBits f / 8)
  else (n + 31) / 32 * (if f = 10 ∨ f = 15 then 20 else if f = 11 then 28 else if f = 13 then 52 else 36)

def listProd (l : List Nat) : Nat := l.foldl (· * ·) 1

/-- Bytes of a tensor's tile. -/
def tensorTileBytes (t : Tensor) : Nat := fmtBytes t.fmt (listProd t.tile)

/-- Walked extents and the grid (11 R242). -/
def tensorGrid (t : Tensor) (bkt : List (Nat × Nat)) : List Nat :=
  (List.range 4).map fun k =>
    let w := if t.cover.testBit k then (bkt.getD k (0, 0)).2 else t.ext.getD k 1
    (w + t.tile.getD k 1 - 1) / t.tile.getD k 1

/-- A Morton code (11 R242). -/
def mortonCode (ndim : Nat) (c : List Nat) : Nat :=
  (List.range 32).foldl (fun v j => (List.range ndim).foldl (fun v k => if (c.getD k 0).testBit j then v + 2 ^ (ndim * j + k) else v) v) 0

/-- Coordinates of the tile with linear index t in row or column order. -/
def gridCoords (order ndim : Nat) (n : List Nat) (t : Nat) : List Nat :=
  let dims := if order = 1 then (List.range ndim).reverse else List.range ndim
  let r := dims.foldl (fun (r : List (Nat × Nat) × Nat) k => ((k, r.2 % n.getD k 1) :: r.1, r.2 / n.getD k 1)) ([], t)
  (List.range 4).map fun k => ((r.1.find? fun p => p.1 == k).map Prod.snd).getD 0

/-- All tiles of a grid in walk order. -/
def walkOrder (order ndim : Nat) (n : List Nat) : List (List Nat) :=
  if order < 2 then (List.range (listProd n)).map (gridCoords order ndim n)
  else ((List.range (listProd n)).map (gridCoords 0 ndim n)).mergeSort fun a b => decide (mortonCode ndim a ≤ mortonCode ndim b)

/-- A placement record (11 Table 11-7), and whether it is malformed (R245); so are a HOME of 31-255 and an RMASK without the replica flag,
which R245 does not name (log 81). -/
def placementOf (bs : List Byte) : Placement :=
  let home := field bs 20 1
  let flags := field bs 21 1
  let rmask := field bs 24 2
  { first := field bs 0 4, count := field bs 4 4, base := field bs 8 8, stride := field bs 16 4, home := home, flags := flags, gen := field bs 22 2,
    rmask := rmask,
    bad := decide (field bs 4 4 = 0) || decide (16 < home) || decide (8 ≤ flags) || decide (field bs 26 6 ≠ 0) ||
      (flags.testBit 0 && (flags.testBit 2 || !rmask.testBit home)) || (!flags.testBit 0 && decide (rmask ≠ 0)) }

/-- A tensor record (11 Table 11-6); none where it is malformed (R241). So are a VERSION other than 1, an NDIM outside 1-4, an FMT above 15,
an NPLACE of 0 and a PLACE off its alignment, which R241 does not name (log 81). -/
def tensorOf (bs : List Byte) : Option Tensor :=
  let ndim := field bs 4 1
  let ext := (List.range 4).map fun k => field bs (8 + 4 * k) 4
  let tile := (List.range 4).map fun k => field bs (24 + 4 * k) 4
  let cover := field bs 7 1
  let ok := decide (field bs 0 4 = 1) && decide (1 ≤ ndim) && decide (ndim ≤ 4) && decide (field bs 5 1 ≤ 15) && decide (field bs 6 1 ≤ 2) &&
    decide (cover < 2 ^ ndim) && decide (field bs 40 4 ≠ 0) && decide (field bs 44 4 = 0) && decide (field bs 48 8 % 32 = 0) &&
    decide (field bs 56 8 = 0) &&
    (List.range 4).all fun k => decide (ext.getD k 0 ≠ 0) && decide (tile.getD k 0 ≠ 0) &&
      (decide (k < ndim) || (ext.getD k 0 == 1 && tile.getD k 0 == 1))
  if ok then
    some { ndim := ndim, fmt := field bs 5 1, order := field bs 6 1, cover := cover, ext := ext, tile := tile, nplace := field bs 40 4,
           place := field bs 48 8 }
  else none

/-- The bytes of a unit's read as plain bytes, with POISON as a failure. -/
def State.unitBytes (s : State) (tlb : Option Nat) (die ctx va n : Nat) : BmRes (List Byte) × State :=
  BmRes.bind (s.unitRead tlb die ctx va n) fun bs s =>
    if bs.any Prod.snd then (.poison va (s.checkWalk ctx va 1 .read).1.pa, s) else (.ok (bs.map Prod.fst), s)

/-- Reads a record at its home (11 R244); it waits while the home is in self-refresh. -/
def State.homeBytesVa (s : State) (ctx va n : Nat) : BmRes (List Byte) × State :=
  match s.asleepTable ctx with
  | some pa => (.wait pa, s)
  | none => (lineParts va n).foldl (fun r p =>
    BmRes.bind r fun bs s =>
      match s.checkWalk ctx p.1 p.2 .read with
      | (.ok pa _, s) =>
        let q := s.homeRead pa p.2
        if !s.awake pa then (.wait pa, s)
        else if q.any Prod.snd then (.poison p.1 pa, s)
        else (.ok (bs ++ q.map Prod.fst), s)
      | (c, s) => (.failed c p.1, s)) (.ok [], s)

/-- The placement record of a follower that covers tile u: none where no record does. A record whose GEN is odd, or changes,
is read again: the search waits. Records are read from the first, the first that covers u is used as it stands, and no malformed field
is looked for: R254 and R268 name no check of them. DESIGN CHOICE (log 93). -/
def State.coverRecord (s : State) (ctx place u : Nat) (n : Nat) (i : Nat) : BmRes (Option Placement) × State :=
  match n with
  | 0 => (.ok none, s)
  | n + 1 =>
    match s.homeBytesVa ctx (place + 32 * i) 32 with
    | (.ok bs, s) =>
      let r := placementOf bs
      if r.gen % 2 = 1 then (.wait 0, s)
      else if r.first ≤ u ∧ u < r.first + r.count then (.ok (some r), s)
      else s.coverRecord ctx place u n (i + 1)
    | (.failed c va, s) => (.failed c va, s)
    | (.poison va pa, s) => (.poison va pa, s)
    | (.wait pa, s) => (.wait pa, s)

/-- The follower's matching tile (11 R253). -/
def followTile (fmap : Nat) (c : List Nat) : List Nat :=
  let k (j : Nat) := c.getD j 0
  match fmap with
  | 0 => [k 0, k 1, k 2, k 3]
  | 1 => [k 0, 0, k 2, k 3]
  | 2 => [0, k 1, k 2, k 3]
  | _ => [k 1, k 0, k 2, k 3]

/-- Whether element `l` of a tile, in memory order, lies beyond the extent. -/
def beyond (t : Tensor) (c : List Nat) (l : Nat) : Bool :=
  let e (j : Nat) := t.tile.getD j 1
  let k := [l % e 0, l / e 0 % e 1, l / (e 0 * e 1) % e 2, l / (e 0 * e 1 * e 2)]
  decide (l < listProd t.tile) && (List.range 4).any fun j => decide (t.ext.getD j 1 ≤ c.getD j 0 * e j + k.getD j 0)

/-- The bits of byte `o` of a block of 32 elements that belong to no element of `out` (04 R65, R71): of a TEB block a plane's byte
holds one bit of eight elements, of an MXFP8 block a byte is one element, of an MXFP4 block two. -/
def blockKeep (fmt o : Nat) (out : Nat → Bool) : Byte :=
  let clear (l : List (Nat × Nat)) : Byte := BitVec.ofNat 8 (255 - l.foldl (fun m p => if out p.1 then m + p.2 else m) 0)
  if fmt = 14 then (if o < 32 then clear [(o, 255)] else 255)
  else if fmt = 15 then (if o < 16 then clear [(2 * o, 15), (2 * o + 1, 240)] else 255)
  else if o < 4 then 255
  else clear ((List.range 8).map fun j => (8 * (o % 4) + j, 2 ^ j))

/-- The parts of block `b` of a tile: a block beyond the extent as a whole is not read; of one that straddles its end the bits of the
elements beyond are zero. -/
def blockSegs (t : Tensor) (c : List Nat) (far b : Nat) : List FollowSeg :=
  let n := fmtBytes t.fmt 32
  let out (i : Nat) : Bool := beyond t c (32 * b + i)
  let inTile := (List.range 32).filter fun i => decide (32 * b + i < listProd t.tile)
  if inTile.all out then [{ off := n * b, n := n, far := none, keep := 255 }]
  else if inTile.any out then
    (List.range n).map fun o =>
      let k := blockKeep t.fmt o out
      { off := n * b + o, n := 1, far := if k = 0 then none else some ((far + n * b + o) % 2 ^ 64), keep := k }
  else [{ off := n * b, n := n, far := some ((far + n * b) % 2 ^ 64), keep := 255 }]

/-- The parts of a follower's tile at far address `far`: elements beyond the extent are zeros, and not read (12 R268). -/
def followSegs (t : Tensor) (c : List Nat) (far : Nat) : List FollowSeg :=
  let inside (k j : Nat) : Bool := decide (c.getD k 0 * t.tile.getD k 1 + j < t.ext.getD k 1)
  if 10 ≤ t.fmt then (List.range ((listProd t.tile + 31) / 32)).flatMap (blockSegs t c far)
  else
    let es := fmtBits t.fmt / 8
    let t0 := t.tile.getD 0 1
    (List.range (listProd t.tile / t0)).flatMap fun r =>
      let k1 := r % t.tile.getD 1 1
      let k2 := r / t.tile.getD 1 1 % t.tile.getD 2 1
      let k3 := r / (t.tile.getD 1 1 * t.tile.getD 2 1)
      let n := if inside 1 k1 && inside 2 k2 && inside 3 k3 then
          (if t.ext.getD 0 1 - c.getD 0 0 * t0 < t0 then t.ext.getD 0 1 - c.getD 0 0 * t0 else t0) else 0
      let o := es * t0 * r
      (if n = 0 then [] else [{ off := o, n := es * n, far := some ((far + o) % 2 ^ 64), keep := 255 }]) ++
        (if n = t0 then [] else [{ off := o + es * n, n := es * (t0 - n), far := none, keep := 255 }])

/-- A whole tile of zeros: absent, uncovered or padding (11 R254). -/
def Follow.zeros (f : Follow) : Follow := { f with segs := some [{ off := 0, n := f.bytes, far := none, keep := 255 }] }

/-- Resolves a follower copy: reads its tensor record and placement records. -/
def State.resolveFollow (s : State) (x : Transfer) (f : Follow) : BmRes Follow × State :=
  match s.task x.h with
  | none => (.wait 0, s)
  | some t =>
    match s.launch t.launch with
    | none => (.wait 0, s)
    | some l =>
      match l.followers.getD f.slot none with
      | none => (.ok f.zeros, s)
      | some w =>
        let c := followTile (bits t.variant.fmap (2 * f.slot + 1) (2 * f.slot)) (t.ident.tile.map BitVec.toNat)
        let n := tensorGrid w t.variant.bkt
        let order := walkOrder w.order w.ndim n
        match (List.range order.length).find? fun i => order.getD i [] == c with
        | none => (.ok f.zeros, s)
        | some u =>
          BmRes.bind (s.coverRecord t.ctx w.place u w.nplace 0) fun r s =>
            match r with
            | none => (.ok f.zeros, s)
            | some p =>
              if p.flags.testBit 2 then (.ok f.zeros, s)
              else (.ok { f with segs := some (followSegs w c ((p.base + (u - p.first) * p.stride) % 2 ^ 64)) }, s)

/-- The fault of a follower's record read; poison fails the copy. -/
def bmFault {α : Type} (r : BmRes α) : Option XFault :=
  match r with
  | .failed c va => farFault c va .read
  | .poison va pa => some { kind := kPOISON, detail := poisonSource pa, addr := va }
  | _ => none

/-- A transfer that starts or restarts: it issues again from its committed chunk, the highest chunk ever issued standing (15 R297, R299). A
follower first reads its records, which may suspend or fail it. -/
def State.startTransfer (s : State) (x : Transfer) : Option State :=
  match x.src with
  | .desc _ => some (s.modTransfer x.id fun y => { y with st := .running, next := y.committed, flight := [] })
  | .follow f =>
    if f.segs.isSome then some (s.modTransfer x.id fun y => { y with st := .running, next := y.committed, flight := [] })
    else
      let r := s.resolveFollow x f
      match r.1 with
      | .ok f => some (r.2.modTransfer x.id fun y => { y with st := .running, src := .follow f })
      | q =>
        match bmFault q with
        | none => none
        | some e => some (if e.kind = kPAGE then r.2.suspend x e else r.2.failTransfer x e)

/-- TRANSFER_START. -/
def State.transferStart (s : State) (t : Nat) : Option State :=
  match s.transfer t with
  | none => none
  | some x => if x.st = .queued ∧ s.slotFree x then s.startTransfer x else none

/-- TRANSFER_START. -/
def execTransferStart (t : Nat) (s : State) : Out := event (s.transferStart t) s

/-- TRANSFER_PAGE_FAULT. -/
def State.transferPage (s : State) (t : Nat) : Option State :=
  match s.transfer t with
  | none => none
  | some x =>
    match s.nextFault x with
    | some f => if f.kind = kPAGE then some (s.suspend x f) else none
    | none => none

/-- TRANSFER_PAGE_FAULT. -/
def execTransferPageFault (t : Nat) (s : State) : Out := event (s.transferPage t) s

/-- Whether a task is being pre-empted. -/
def State.stopping (s : State) (h : Nat) : Bool :=
  match s.task h with
  | none => false
  | some t => t.phase == .stopping

/-- TRANSFER_RESTART: a suspended transfer whose fault is resolved, or a stopped one whose task is restored, copies again
from its committed chunk, marked chunks too, where its engine has a slot free (15 R297, R299, R300). -/
def State.transferRestart (s : State) (t : Nat) : Option State :=
  match s.transfer t with
  | none => none
  | some x =>
    if ((x.st = .suspended ∧ !s.posted (.transfer t)) ∨ (x.st = .stopped ∧ !s.stopping x.h)) ∧ s.resident x.h ∧
        s.engineFree (hCluster x.h) then
      (s.modTransfer t fun y => { y with cluster := hCluster x.h }).startTransfer { x with cluster := hCluster x.h }
    else none

/-- TRANSFER_RESTART. -/
def execTransferRestart (t : Nat) (s : State) : Out := event (s.transferRestart t) s

/-- TRANSFER_FAILED: a PERM fault of a running transfer, or the refused resolution of a suspended one. -/
def State.transferFailed (s : State) (t : Nat) : Option State :=
  match s.transfer t with
  | none => none
  | some x =>
    if x.st = .suspended then (if s.posted (.transfer t) then none else some (s.failTransfer x { kind := kPAGE, detail := x.pageDetail, addr := x.pageAddr }))
    else
      match s.nextFault x with
      | some f => if f.kind = kPAGE then none else some (s.failTransfer x f)
      | none => none

/-- TRANSFER_FAILED. -/
def execTransferFailed (t : Nat) (s : State) : Out := event (s.transferFailed t) s

/-- TRANSFER_DRAIN_TIMEOUT: the chunks of a stopping task's transfer that are not complete are abandoned (15 R300). -/
def State.drainTimeout (s : State) (t : Nat) : Option State :=
  match s.transfer t with
  | none => none
  | some x =>
    match s.task x.h with
    | none => none
    | some k =>
      if k.phase = .stopping ∧ (x.st = .running ∨ x.st = .suspended ∨ x.st = .queued) then
        some (s.modTransfer t fun y => { y with st := .stopped, flight := [] })
      else none

/-- TRANSFER_DRAIN_TIMEOUT. -/
def execTransferDrainTimeout (t : Nat) (s : State) : Out := event (s.drainTimeout t) s

/-! ## BTTEST (15 R301) -/

/-- Reads the bitmap words of chunks f to f + n - 1: whether every bit is set. -/
def State.bitmapTest (s : State) (h base f n : Nat) : Except XFault Bool :=
  if n = 0 then .ok true
  else
    let ws := (List.range 16).filter fun j => decide (f / 32 ≤ j) && decide (j ≤ (f + n - 1) / 32)
    match ws.findSome? fun j =>
        let a := (base + 4 * j) % 2 ^ 32
        match s.localTarget h a 4 false with
        | .bad c => some ({ kind := kPERM, detail := 256 + c, addr := a } : XFault)
        | t => if (s.localRead h t 4).any Prod.snd then some { kind := kPOISON, detail := 2, addr := a } else none with
    | some x => .error x
    | none =>
      .ok ((List.range n).all fun i =>
        (pword (s.localRead h (s.localTarget h ((base + 4 * ((f + i) / 32)) % 2 ^ 32) 4 false) 4)).getLsbD ((f + i) % 32))

/-- BTTEST. -/
def execBttest (w : UCab) (s : State) : Out :=
  s.uniformGang w.c fun h g e s =>
    let who := Who.gang h g
    match e.st with
    | .stall (.acquire sc _) => s.acquireReturn h g e sc
    | _ =>
      let base := (s.sreg who w.a.toNat).toNat
      let f := (s.sreg who (w.a.toNat + 1)).toNat
      let n := (s.sreg who w.b.toNat).toNat
      if base % 4 ≠ 0 then s.raiseUniform who e kALIGN 256 base
      else if 512 < f + n then s.raiseUniform who e kPERM 258 base
      else
        s.gate who e fun s =>
          match s.bitmapTest h base f n with
          | .error x => s.raiseUniform who e x.kind x.detail x.addr
          | .ok r =>
            let s := s.setC who w.cd.toNat r
            if r then s.acquireReturn h g e 4 else s.advance h g e e.mask

/-! ## BARREM (15 R303, 16 R322) -/

/-- Whether an operand is malformed (cause 4). -/
def badNotice (v : Nat) : Bool :=
  let sp := bits v 31 28
  v.testBit 7 || v.testBit 17 || decide (2 < sp) || decide (95 < bits v 6 0) || (v.testBit 16 && decide (sp ≠ 0)) ||
    (!v.testBit 16 && decide (bits v 15 8 = 0)) || (decide (sp = 0) && decide (bits v 27 18 ≠ 0)) || (decide (sp = 1) && decide (bits v 27 23 ≠ 0))

/-- The target task of a notice (08 R158, R159). -/
def State.noticeTarget (s : State) (h v : Nat) : Option Nat :=
  match bits v 31 28 with
  | 0 => some h
  | 1 => s.spanTask h (bits v 22 18)
  | _ =>
    match s.localTarget h (2 * 2 ^ 28 + bits v 27 18 * 2 ^ 18) 0 false with
    | .scratch u _ => some u
    | _ => none

/-- Scope of a notice's release: die at a span barrier, whichever space names it (10 R222, log 87), and outside the cluster (15 R303). -/
def State.noticeScope (s : State) (h v : Nat) : Nat :=
  match s.noticeTarget h v with
  | none => 3
  | some u => if hCluster u ≠ hCluster h ∨ (s.task u).any fun t => t.isSpanBarrier (bits v 6 0) then 4 else 3

/-- Whether a word is a stream's. -/
def Who.isStream (w : Who) : Bool :=
  match w with
  | .gang _ _ => false
  | .stream _ _ => true

/-- The notice of a BARREM leaves once its release is done and every earlier local access is received (15 R303). -/
def State.sendNotice (s : State) (w : Who) (e : Entry) (v : Nat) : State :=
  let scope := s.noticeScope (s.gangOf w).1 v
  if s.arrivalDone w scope (s.upto e) then
    let (id, s) := s.fresh
    let n : Notice :=
      { id := id, owner := w.owner, stream := w.isStream, counts := true, pc := e.pc, mask := e.mask, operand := BitVec.ofNat 32 v,
        arrived := false, acked := false, refused := false }
    ({ s with notices := s.notices ++ [n] }.addCount w 4 (· + 1)).nextWord w e
  else s.stayAt w e (.stall (.notice v scope (s.upto e)))

/-- An arm writes X where the barrier's credits are kept: for a span barrier, in the one place that every task of the span sees. -/
def State.armBarrier (s : State) (h b x : Nat) : State :=
  (s.modTask (s.creditHome h b) fun t => t.modBarrier b fun z => { z with x := x }).barrierTest h b

/-- BARREM: its operand is read once, at issue; a notice that waits for its release keeps it. A stream's notice issues after its earlier
words (16 R321); an arm acts at issue. -/
def execBarrem (w : UA) (s : State) : Out :=
  s.uniform w.c fun who e s =>
    match e.st with
    | .stall (.notice v _ _) => s.sendNotice who e v
    | _ =>
      let v := (s.sreg who w.a.toNat).toNat
      let h := (s.gangOf who).1
      let b := bits v 6 0
      if badNotice v then s.raiseUniform who e kBARRIER 4 v
      else if v.testBit 16 then
        match s.task h with
        | none => s
        | some t =>
          if t.variant.nbar ≤ b then s.raiseUniform who e kBARRIER 3 b
          else (s.armBarrier h b (bits v 15 8)).nextWord who e
      else if 63 ≤ s.count who 4 then s.stayAt who e (.stall (.counter 4))
      else if !s.streamDrained who then s.stayAt who e (.stall .streamDrain)
      else s.gate who e fun s => s.sendNotice who e v

def State.modNotice (s : State) (n : Nat) (f : Notice → Notice) : State :=
  { s with notices := s.notices.map fun x => if x.id = n then f x else x }

/-- Who issued an owner's access, as a gang: a stream's is its MSTART's. -/
def State.ownerGang (s : State) (o : Owner) : Nat × Nat :=
  match o with
  | .gang h g => (h, g)
  | .stream k i => s.gangOf (.stream k i)
  | .engine => (0, 0)

/-- Credits arrive at a barrier: Y saturates at 65,535 (15 R302). -/
def State.credit (s : State) (u b n : Nat) (stream : Option Nat) : State :=
  let home := s.creditHome u b
  s.modTask home fun t => t.modBarrier b fun z =>
    let m := if 65535 < z.y + n then 65535 - z.y else n
    { z with y := z.y + m, credits := if m = 0 then z.credits else z.credits ++ [(m, stream)] }

/-- BARREM_NOTICE_ARRIVAL: credits and the completion test, or a refusal. -/
def State.noticeArrives (s : State) (id : Nat) : Option State :=
  match s.notices.find? fun n => n.id == id && !n.arrived with
  | none => none
  | some n =>
    let v := n.operand.toNat
    let b := bits v 6 0
    let refuse := s.modNotice id fun x => { x with arrived := true, acked := true, refused := true }
    match s.noticeTarget (s.ownerGang n.owner).1 v with
    | none => some refuse
    | some u =>
      match s.task u, s.task (s.creditHome u b) with
      | some t, some th =>
        if t.variant.nbar ≤ b then some refuse
        else
          let z := th.barrier b
          let c := bits v 15 8
          let stream := n.stream
          let atOnce := !stream || decide (z.x = 0) || decide (65535 < z.y + c)
          some (((s.modNotice id fun x => { x with arrived := true, acked := atOnce }).credit u b c (if stream && !atOnce then some id else none)).barrierTest u b)
      | _, _ => some refuse

/-- BARREM_NOTICE_ARRIVAL. -/
def execBarremNoticeArrival (n : Nat) (s : State) : Out := event (s.noticeArrives n) s

/-- The record of a refused notice. -/
def Notice.refusal (n : Notice) : FaultInfo :=
  let fl : BitVec 8 := if n.stream then 6 else 4
  { kind := kBARRIER, flags := fl, pc := n.pc, mask := n.mask, detail := 5, addr := n.operand.toNat, commit := 0, spec := 0 }

/-- Whether an owner is on the device, not saved. -/
def State.ownerHere (s : State) (o : Owner) : Bool :=
  match o with
  | .gang h _ => s.resident h
  | .stream k i => (s.stream k i).isSome
  | .engine => true

/-- NOTICE_ACKNOWLEDGED: the RG count falls; a refused notice raises BARRIER cause 5 (15 R303, 21 R404). -/
def State.noticeAck (s : State) (id : Nat) : Option State :=
  match s.notices.find? fun n => n.id == id && n.acked && s.ownerHere n.owner with
  | none => none
  | some n =>
    let (h, g) := s.ownerGang n.owner
    let s : State := { s with notices := s.notices.filter fun x => x.id != id }
    let s := if n.refused then s.raiseLater h g (n.refusal) else s
    some (if n.counts then s.uncount n.owner 4 else s)

/-- NOTICE_ACKNOWLEDGED. -/
def execNoticeAcknowledged (n : Nat) (s : State) : Out := event (s.noticeAck n) s

end Sys2Proof.Machine
end

