-- ==== Sys2Proof/Machine/Bank.lean ====
section
/-!
DEFINITION. Bank memory's commands (13 R271-R284): BKOP, BKRED, BKRANK, BKREAD, checked at issue; the bank units perform a
command as one event, in ascending element order (log 14).
-/
namespace Sys2Proof.Machine

open Sys2Proof

/-! ## Rounding in a command's mode (13 R278, R280) -/

/-- A rounded result, and whether it overflowed: infinity, or the largest finite value under saturate. -/
def FFmt.fit (f : FFmt) (rnd : Rnd) (sat : Bool) (v : FVal) : Nat × Bool :=
  match v with
  | .nan _ => (f.nan, false)
  | .inf n => ((f.mkInf n).1, false)
  | .fin n m e =>
    let r := f.round rnd n m e
    if r.beyond then (if sat then f.withSign n f.maxFin else (f.mkInf n).1, true) else (r.bits, false)

/-- The exact sum; an exact zero is -0 only under RDN, or of two -0. -/
def sumV (rnd : Rnd) (x y : FVal) : FVal :=
  match x, y with
  | .nan a, _ => .nan a
  | .inf _, .nan b => .nan b
  | .fin _ _ _, .nan b => .nan b
  | .inf a, .inf b => if a = b then .inf a else .nan false
  | .inf a, .fin _ _ _ => .inf a
  | .fin _ _ _, .inf b => .inf b
  | .fin n1 m1 e1, .fin n2 m2 e2 =>
    let r := dyAdd (signed n1 m1) e1 (signed n2 m2) e2
    if r.1 = 0 then .fin (if n1 = n2 ∧ m1 = 0 ∧ m2 = 0 then n1 else decide (rnd = .rdn)) 0 0
    else .fin (decide (r.1 < 0)) r.1.natAbs r.2

/-- The exact product, NaN where there is none. -/
def prodV (x y : FVal) : FVal := (mulV x y).getD (.nan false)

/-- Entry into FX64 in a rounding mode: the value, and whether it saturated (04 R70; CTL mode); `none` for NaN. -/
def fxEnterBy (rnd : Rnd) (f : Nat) (v : FVal) : Option (Int × Bool) :=
  match v with
  | .nan _ => none
  | .inf n => some (if n then fxMin else fxMax, true)
  | .fin n m e =>
    let q := (roundInt rnd n m (e + f)).1
    some (satInt q fxMin fxMax, decide (q < fxMin ∨ fxMax < q))

/-! ## Elements (13 R272, R278) -/

/-- Bytes of an element of a format a command accepts. -/
def bankSize (fmt : Nat) : Nat := fmtBits fmt / 8

/-- The float layout of codes 0, 1, 2. -/
def floatFmt (fmt : Nat) : FFmt := if fmt = 0 then fmtF32 else if fmt = 1 then fmtF16 else fmtBf16

/-- An element's exact value. -/
def elemVal (fmt f : Nat) (x : Nat) : FVal :=
  if fmt = 7 then intVal (BitVec.ofNat 32 x).toInt
  else if fmt = 8 then intVal x
  else if fmt = 9 then fxVal f (fxOf x)
  else (floatFmt fmt).value x

/-- A result element: its bits, and what it adds to RES: a NaN, an FX64 saturation, an overflow or saturation. -/
structure BankRes where
  bits : Nat
  nan : Bool
  cellSat : Bool
  beyond : Bool
  deriving DecidableEq, Repr

/-- An integer result in a range, saturated. -/
def intSat (lo hi : Int) (width : Nat) (v : Int) : BankRes :=
  { bits := (satInt v lo hi % 2 ^ width).toNat, nan := false, cellSat := false, beyond := decide (v < lo ∨ hi < v) }

/-- An FX64 result, saturated. -/
def fxSat (v : Int) : BankRes := { intSat fxMin fxMax 64 v with cellSat := decide (v < fxMin ∨ fxMax < v) }

/-- A float result. -/
def floatRes (r : Nat × Bool) : BankRes := { bits := r.1, nan := false, cellSat := false, beyond := r.2 }

/-- A conversion to any target: floats by CTL mode and saturate, integers and FX64 saturated, a NaN there being 0. -/
def bankConvert (dfmt f : Nat) (rnd : Rnd) (sat : Bool) (v : FVal) : BankRes :=
  let nan : BankRes := { bits := 0, nan := true, cellSat := false, beyond := false }
  if dfmt = 7 ∨ dfmt = 8 then
    let lo : Int := if dfmt = 7 then -(2 ^ 31) else 0
    let hi : Int := if dfmt = 7 then 2 ^ 31 - 1 else 2 ^ 32 - 1
    match v with
    | .nan _ => nan
    | .inf n => intSat lo hi 32 (if n then lo - 1 else hi + 1)
    | .fin n m e => intSat lo hi 32 (roundInt rnd n m e).1
  else if dfmt = 9 then
    match fxEnterBy rnd f v with
    | none => nan
    | some (q, s) => { bits := fxBits q, nan := false, cellSat := s, beyond := s }
  else floatRes ((floatFmt dfmt).fit rnd sat v)

/-- BKOP's CVT: as `bankConvert`, but a float overflow without saturate follows 04 Table 4-5 (R77). -/
def bankCvt (dfmt f : Nat) (rnd : Rnd) (sat : Bool) (v : FVal) : BankRes :=
  if dfmt = 0 ∨ dfmt = 2 then
    let r := cvtToFloat (floatFmt dfmt) rnd sat false v
    { bits := r.1, nan := false, cellSat := false, beyond := r.2 &&& flOverflow != 0 }
  else bankConvert dfmt f rnd sat v

/-- BKOP of one element (13 Table 13-3). -/
def bkopElem (m dfmt sfmt f : Nat) (rnd : Rnd) (sat : Bool) (alpha x y : Nat) : BankRes :=
  let vx := elemVal sfmt f x
  let vy := elemVal dfmt f y
  if m = 5 then bankCvt dfmt f rnd sat vx
  else if dfmt = 7 then
    let a := (BitVec.ofNat 32 x).toInt
    let b := (BitVec.ofNat 32 y).toInt
    let fitInt (v : Int) : BankRes :=
      if sat then intSat (-(2 ^ 31)) (2 ^ 31 - 1) 32 v else { bits := (v % 2 ^ 32).toNat, nan := false, cellSat := false, beyond := false }
    match m with
    | 0 => fitInt (a + b)
    | 1 => fitInt (a * b)
    | 2 => fitInt (if a < b then b else a)
    | _ => fitInt (if a < b then a else b)
  else if dfmt = 9 then
    let a := fxOf x
    let b := fxOf y
    match m with
    | 0 => fxSat (a + b)
    | 1 => fxSat (roundInt rnd (decide (a * b < 0)) (a * b).natAbs (-(f : Int))).1
    | 2 => fxSat (if a < b then b else a)
    | _ => fxSat (if a < b then a else b)
  else
    let fm := floatFmt dfmt
    match m with
    | 0 => floatRes (fm.fit rnd sat (sumV rnd vx vy))
    | 1 => floatRes (fm.fit rnd sat (prodV vx vy))
    | 2 => floatRes ((fm.minMax true x y).1, false)
    | 3 => floatRes ((fm.minMax false x y).1, false)
    | _ => floatRes (fm.fit rnd sat (sumV rnd (prodV (fmtF32.value alpha) vx) vy))

/-! ## The descriptor (13 Table 13-2) -/

/-- The fields of a descriptor, from its first seven doublewords. -/
structure BkDesc where
  version : Nat
  dfmt : Nat
  dres : Nat
  sfmtA : Nat
  sfmtB : Nat
  frac : Nat
  fres : Nat
  rmode : Nat
  sat : Bool
  scope : Nat
  cres : Nat
  group : Nat
  count : Nat
  alpha : Nat
  dst : Nat
  srcA : Nat
  srcB : Nat
  cword : Nat
  cval : Nat
  res2 : Nat
  deriving DecidableEq, Repr

/-- Reads a descriptor. -/
def bkDescOf (q : List Nat) : BkDesc :=
  let f (i hi lo : Nat) : Nat := bits (q.getD i 0) hi lo
  { version := f 0 15 0, dfmt := f 0 19 16, dres := f 0 23 20, sfmtA := f 0 27 24, sfmtB := f 0 31 28, frac := f 0 37 32, fres := f 0 39 38,
    rmode := f 0 41 40, sat := (q.getD 0 0).testBit 42, scope := f 0 45 43, cres := f 0 47 46, group := f 0 63 48, count := f 1 31 0,
    alpha := f 1 63 32, dst := q.getD 2 0, srcA := q.getD 3 0, srcB := q.getD 4 0, cword := q.getD 5 0, cval := f 6 31 0, res2 := f 6 63 32 }

/-- Formats that BKOP takes. -/
def bkopFmt (f : Nat) : Bool := f == 0 || f == 2 || f == 7 || f == 9

def BankKind.isRank (k : BankKind) : Bool :=
  match k with
  | .rank => true
  | .commit => true
  | _ => false

/-- Whether a command has a source A, a source B, a GROUP, an ALPHA. -/
def BankKind.usesA (k : BankKind) : Bool := k != .commit
def BankKind.usesB (k : BankKind) (d : BkDesc) : Bool :=
  match k with
  | .op m => m != 5
  | .rank => d.srcB != 0
  | _ => false
def BankKind.usesGroup (k : BankKind) : Bool := k == .red || k == .rank
def BankKind.usesAlpha (k : BankKind) : Bool := k == .op 4 || k.isRank

/-- The destination format is one the command accepts. -/
def BankKind.dfmtOk (k : BankKind) (d : BkDesc) : Bool :=
  match k with
  | .op m => bkopFmt d.dfmt && (m != 4 || d.dfmt == 0 || d.dfmt == 2)
  | .red => d.dfmt == 9
  | .read _ => d.dfmt == 0 || d.dfmt == 1 || d.dfmt == 2 || d.dfmt == 7 || d.dfmt == 8
  | _ => d.dfmt == 0

/-- The source formats are ones the command accepts; SFMT of an absent source is ignored, source A of a commit round among them: DESIGN
CHOICE (log 40). -/
def BankKind.sfmtOk (k : BankKind) (d : BkDesc) : Bool :=
  match k with
  | .op m => if m = 5 then bkopFmt d.sfmtA else d.sfmtA == d.dfmt && d.sfmtB == d.dfmt
  | .red => bkopFmt d.sfmtA
  | .read _ => d.sfmtA == 9
  | .rank => (d.sfmtA == 0 || d.sfmtA == 2) && (d.srcB == 0 || d.sfmtB == 8)
  | .commit => true

/-- Offset of the first offending field of a malformed descriptor (13 R272); a misaligned CWORD is one, and no ALIGN: DESIGN CHOICE (log 95). -/
def BankKind.malformed (k : BankKind) (d : BkDesc) : Option Nat :=
  ([(d.version != 1, 0), (d.dres != 0 || !k.dfmtOk d, 2), (!k.sfmtOk d, 3), (d.fres != 0, 4), (d.cres != 0 || d.scope == 7, 5),
    ((d.group != 0) != k.usesGroup, 6), (d.count == 0 || decide (2 ^ 24 < d.count), 8), (d.alpha != 0 && !k.usesAlpha, 12),
    (d.srcA != 0 && !k.usesA, 24), (d.srcB != 0 && !(k.usesB d), 32), (decide (d.cword % 4 ≠ 0), 40), (d.res2 != 0, 52)].find?
      fun p => p.1).map Prod.snd

/-- One range of a command: offset of its field, address, element size, length, whether it is the destination, whether it
must lie in bank memory. -/
structure BkRange where
  off : Nat
  va : Nat
  align : Nat
  len : Nat
  dst : Bool
  bank : Bool
  deriving DecidableEq, Repr

/-- The groups of a count. -/
def groups (count group : Nat) : Nat := (count + group - 1) / group

/-- The ranges (13 R273), the destination first. The cells of a clearing BKREAD are a source, without the checks of a destination: DESIGN
CHOICE (log 95). -/
def BankKind.ranges (k : BankKind) (d : BkDesc) : List BkRange :=
  let sa := bankSize d.sfmtA
  let a (bank : Bool) : BkRange := { off := 24, va := d.srcA, align := sa, len := d.count * sa, dst := false, bank := bank }
  let b (sz : Nat) : BkRange := { off := 32, va := d.srcB, align := sz, len := d.count * sz, dst := false, bank := false }
  let t (al n : Nat) (bank : Bool) : BkRange := { off := 16, va := d.dst, align := al, len := n, dst := true, bank := bank }
  let sz := bankSize d.dfmt
  match k with
  | .op _ => [t sz (d.count * sz) false, a false] ++ (if k.usesB d then [b sz] else [])
  | .red => [t 8 (8 * groups d.count d.group) true, a false]
  | .read _ => [t sz (d.count * sz) false, a true]
  | .rank => [t 128 (128 * groups d.count d.group) true, a false] ++ (if d.srcB ≠ 0 then [b 4] else [])
  | .commit => [t 128 (128 * d.count) true]

/-! ## Issue (13 R271, R273, R274) -/

/-- What the checks of the ranges give: the physical addresses, a fault, or a wait for a migration. -/
inductive BkCheck
  | ok (pas : List Nat)
  | fault (kind detail addr : Nat)
  | mig
  deriving DecidableEq, Repr

/-- Checks one range at the cluster TLB; `die` is the command's die once its destination is known. -/
def State.checkRangeBk (s : State) (k ctx p : Nat) (die : Option Nat) (r : BkRange) : Except BkCheck Nat × State :=
  let a : Access := if r.dst then .write else .read
  match s.check k ctx r.va 1 1 a with
  | (.align, s) => (.error (.fault kALIGN 0 r.va), s)
  | (.page c l, s) => (.error (.fault kPAGE (pageDetail c l a) r.va), s)
  | (.perm c, s) => (.error (if c ≤ 3 then .fault kPERM c r.va else .fault kPERM 8 (p + r.off)), s)
  | (.mig, s) => (.error .mig, s)
  | (.ok pa leaf, s) =>
    let home := homeOf pa
    let bad := decide (7 < home) || (r.bank && !isBank pa) || (match die with
      | some d => home % 4 != d
      | none => false) || decide (pageBytes leaf < sigVa r.va % pageBytes leaf + r.len) || !inHome pa r.len
    if bad then (.error (.fault kPERM 8 (p + r.off)), s) else (.ok pa, s)

/-- Checks every range in turn. -/
def State.checkRangesBk (s : State) (k ctx p : Nat) (rs : List BkRange) : BkCheck × State :=
  match rs.find? fun r => r.va % r.align != 0 with
  | some r => (.fault kALIGN 0 r.va, s)
  | none =>
    let q := rs.foldl (fun (acc : Except BkCheck (List Nat) × State) r =>
      match acc.1 with
      | .error _ => acc
      | .ok pas =>
        match acc.2.checkRangeBk k ctx p (pas.head?.map fun pa => homeOf pa % 4) r with
        | (.ok pa, s) => (.ok (pas ++ [pa]), s)
        | (.error e, s) => (.error e, s)) (.ok [], s)
    match q.1 with
    | .error e => (e, q.2)
    | .ok pas =>
      let n := rs.length
      let item (i : Nat) : Nat × Nat × Nat := (pas.getD i 0, ((rs.map fun r => r.len).getD i 0), ((rs.map fun r => r.off).getD i 0))
      match (List.range n).findSome? fun j => (List.range j).findSome? fun i =>
          let x := item i
          let y := item j
          if meets x.1 x.2.1 y.1 y.2.1 && !(x.1 == y.1 && x.2.1 == y.2.1) then some y.2.2 else none with
      | some off => (.fault kPERM 9 (p + off), q.2)
      | none => (.ok pas, q.2)

/-- A bank command word (13 R271). -/
def bankWord (c : BitVec 3) (a : BitVec 5) (kind : State → Who → BankKind) (s : State) : Out :=
  s.uniformGang c fun h g e s =>
    let who := Who.gang h g
    let k := kind s who
    let p := s.spair who a.toNat
    if 63 ≤ s.count who 3 then s.stayAt who e (.stall (.counter 3))
    else if p % 64 ≠ 0 then s.raiseUniform who e kALIGN 0 p
    else
      s.gate who e fun s =>
        let q := s.readDwords h g p 7
        q.2.bmFail h g e q.1 fun ds =>
          let d := bkDescOf ds
          match k.malformed d with
          | some off => q.2.raiseUniform who e kPERM 9 (p + off)
          | none =>
            match q.2.checkRangesBk (hCluster h) (s.ctxOf h) p (k.ranges d) with
            | (.fault kd dt ad, s) => s.raiseUniform who e kd dt ad
            | (.mig, s) => s.putEntry h g { e with st := .migration }
            | (.ok pas, s) =>
              let (id, s) := s.fresh
              let cmd : BankCmd :=
                { id := id, owner := .gang h g, ctx := s.ctxOf h, kind := k, dfmt := d.dfmt, sfmtA := d.sfmtA, sfmtB := d.sfmtB,
                  frac := d.frac, rmode := d.rmode, sat := d.sat, scope := d.scope, group := d.group, count := d.count,
                  alpha := BitVec.ofNat 32 d.alpha, dst := pas.getD 0 0, srcA := pas.getD 1 0, srcB := pas.getD 2 0,
                  hasB := k.usesB d, cword := if d.cword = 0 then none else some d.cword, cval := d.cval, res := p + 56,
                  fin := none }
              ({ s with bankCmds := s.bankCmds ++ [cmd] }.addCount who 3 (· + 1)).advance h g e e.mask

/-- BKOP.ADD (13 R278). -/
def execBkopAdd (w : UA) (s : State) : Out := bankWord w.c w.a (fun _ _ => .op 0) s
/-- BKOP.MUL. -/
def execBkopMul (w : UA) (s : State) : Out := bankWord w.c w.a (fun _ _ => .op 1) s
/-- BKOP.MAX. -/
def execBkopMax (w : UA) (s : State) : Out := bankWord w.c w.a (fun _ _ => .op 2) s
/-- BKOP.MIN. -/
def execBkopMin (w : UA) (s : State) : Out := bankWord w.c w.a (fun _ _ => .op 3) s
/-- BKOP.AXPY. -/
def execBkopAxpy (w : UA) (s : State) : Out := bankWord w.c w.a (fun _ _ => .op 4) s
/-- BKOP.CVT. -/
def execBkopCvt (w : UA) (s : State) : Out := bankWord w.c w.a (fun _ _ => .op 5) s
/-- BKRED (13 R279). -/
def execBkred (w : UA) (s : State) : Out := bankWord w.c w.a (fun _ _ => .red) s
/-- BKRANK, candidate round (13 R282). -/
def execBkrank (w : UA) (s : State) : Out := bankWord w.c w.a (fun _ _ => .rank) s
/-- BKRANK, commit round (13 R283). -/
def execBkrankCommit (w : UA) (s : State) : Out := bankWord w.c w.a (fun _ _ => .commit) s
/-- BKREAD (13 R280): bit 0 of s[b] is clear. -/
def execBkread (w : UAB) (s : State) : Out := bankWord w.c w.a (fun s who => .read ((s.sreg who w.b.toNat).getLsbD 0)) s

/-! ## Performing a command (13 R275) -/

/-- What a command has gathered for RES, and its denied bytes: how many elements, and the first. -/
structure BkSum where
  nans : Nat
  cellSat : Bool
  poison : Bool
  beyond : Bool
  full : Bool
  denials : Nat
  deniedAt : Nat
  deriving DecidableEq, Repr

/-- Nothing gathered. -/
def BkSum.zero : BkSum := { nans := 0, cellSat := false, poison := false, beyond := false, full := false, denials := 0, deniedAt := 0 }

/-- RES (13 R275). -/
def BkSum.word (r : BkSum) : Nat :=
  (if r.nans < 2 ^ 24 then r.nans else 2 ^ 24 - 1) + (if r.cellSat then 2 ^ 24 else 0) + (if r.poison then 2 ^ 25 else 0) +
    (if r.beyond then 2 ^ 26 else 0) + (if r.full then 2 ^ 27 else 0)

/-- An element read at its home: bits and poison. -/
def State.elemRead (s : State) (pa n : Nat) : Nat × Bool :=
  let b := s.homeRead pa n
  (leNat (b.map Prod.fst), b.any Prod.snd)

/-- Writes an element at its home, with its poison; a guarded one is denied (09 R199). `clear` clears the cell's sticky flag, then `sat`
sets it (13 R277). -/
def State.elemWrite (s : State) (r : BkSum) (pa n v : Nat) (bad clear sat : Bool) : State × BkSum :=
  match s.guarded pa n with
  | some b => (s.logDenial (dieOfPa pa), { r with denials := r.denials + 1, deniedAt := if r.denials = 0 then b else r.deniedAt })
  | none =>
    let t := (s.homeWrite pa (leBytes n v)).markPoison pa n bad
    let t := if clear then t.clearSticky pa n else t
    (if sat && isBank pa then { t with sticky := AList.set false t.sticky (pa / 8) true } else t, r)

/-- Notes a result. -/
def BkSum.note (r : BkSum) (x : BankRes) (bad : Bool) : BkSum :=
  { r with nans := if x.nan then r.nans + 1 else r.nans, cellSat := r.cellSat || x.cellSat, poison := r.poison || bad, beyond := r.beyond || x.beyond }

/-- Element i of BKOP. -/
def BankCmd.opElem (c : BankCmd) (m : Nat) (p : State × BkSum) (i : Nat) : State × BkSum :=
  let n := bankSize c.dfmt
  let x := p.1.elemRead (c.srcA + i * bankSize c.sfmtA) (bankSize c.sfmtA)
  let y := if c.hasB then p.1.elemRead (c.srcB + i * n) n else (0, false)
  let r := bkopElem m c.dfmt c.sfmtA c.frac (Rnd.ofField c.rmode) c.sat c.alpha.toNat x.1 y.1
  let at_ := c.dst + i * n
  let r := { r with cellSat := r.cellSat && isBank at_ }
  p.1.elemWrite (p.2.note r (x.2 || y.2)) at_ n r.bits (x.2 || y.2) true r.cellSat

/-- Element i of BKRED. A poisoned source that reads as NaN is skipped and leaves its cell unpoisoned: DESIGN CHOICE (log 95). -/
def BankCmd.redElem (c : BankCmd) (p : State × BkSum) (i : Nat) : State × BkSum :=
  let x := p.1.elemRead (c.srcA + i * bankSize c.sfmtA) (bankSize c.sfmtA)
  let cell := c.dst + 8 * (i / c.group)
  match fxEnterBy (Rnd.ofField c.rmode) c.frac (elemVal c.sfmtA c.frac x.1) with
  | none => (p.1, { p.2 with nans := p.2.nans + 1, poison := p.2.poison || x.2 })
  | some (q, _) =>
    let old := p.1.elemRead cell 8
    let sum := fxAdd (fxOf old.1) q
    p.1.elemWrite { p.2 with cellSat := p.2.cellSat || sum.2, poison := p.2.poison || x.2 || old.2 } cell 8 (fxBits sum.1) (x.2 || old.2) false
      sum.2

/-- Element i of BKREAD. -/
def BankCmd.readElem (c : BankCmd) (clear : Bool) (p : State × BkSum) (i : Nat) : State × BkSum :=
  let n := bankSize c.dfmt
  let cell := c.srcA + 8 * i
  let x := p.1.elemRead cell 8
  let flag := AList.get false p.1.sticky (cell / 8)
  let r := bankConvert c.dfmt c.frac (Rnd.ofField c.rmode) c.sat (fxVal c.frac (fxOf x.1))
  let p := if clear then p.1.elemWrite p.2 cell 8 0 false true false else p
  p.1.elemWrite (p.2.note { r with cellSat := flag } x.2) (c.dst + i * n) n r.bits x.2 false false

/-- The key of a score (13 R282). -/
def rankKey (x : Word) : Word :=
  let b := if x = 0x80000000 then 0 else x
  if b.getLsbD 31 then b ^^^ 0xFFFFFFFF else b ^^^ 0x80000000

/-- Candidate i of a candidate round. A poisoned one that reads as NaN, or whose index is suppressed, is skipped and leaves its slot
unpoisoned: DESIGN CHOICE (log 95). -/
def BankCmd.rankElem (c : BankCmd) (p : State × BkSum) (i : Nat) : State × BkSum :=
  let x := p.1.elemRead (c.srcA + i * bankSize c.sfmtA) (bankSize c.sfmtA)
  let slot := c.dst + 128 * (i / c.group)
  let ix := if c.hasB then p.1.elemRead (c.srcB + 4 * i) 4 else ((c.alpha + BitVec.ofNat 32 (i % c.group)).toNat, false)
  let v : Word := BitVec.ofNat 32 (if c.sfmtA = 2 then x.1 * 65536 else x.1)
  let old := p.1.elemRead slot 8
  let nsup := (p.1.elemRead (slot + 8) 1).1
  let inv := 2 ^ 32 - 1 - ix.1
  let sup := (List.range 8).any fun j => decide (j < nsup) && (p.1.elemRead (slot + 16 + 8 * j) 4).1 == inv
  let bad := x.2 || ix.2 || (p.1.elemRead slot 80).2
  let r := { p.2 with poison := p.2.poison || bad }
  if isNan32 v then (p.1, { r with nans := r.nans + 1 })
  else if sup then (p.1, r)
  else
    let cand := (rankKey v).toNat * 2 ^ 32 + inv
    p.1.elemWrite r slot 8 (if old.1 < cand then cand else old.1) bad false false

/-- Slot i of a commit round. -/
def BankCmd.commitElem (c : BankCmd) (p : State × BkSum) (i : Nat) : State × BkSum :=
  let slot := c.dst + 128 * i
  let cell := p.1.elemRead slot 8
  let nsup := p.1.elemRead (slot + 8) 4
  let n := nsup.1 % 256
  let bad := cell.2 || nsup.2
  let r := { p.2 with poison := p.2.poison || bad }
  if cell.1 = 0 then (p.1, r)
  else if n < 8 then
    let q := p.1.elemWrite r (slot + 16 + 8 * n) 8 cell.1 bad false false
    let q := q.1.elemWrite q.2 (slot + 8) 4 (nsup.1 + 1) nsup.2 false false
    q.1.elemWrite q.2 slot 8 0 nsup.2 false false
  else p.1.elemWrite { r with full := true } slot 8 0 nsup.2 false false

/-- Every element of a command, in ascending order. -/
def BankCmd.perform (c : BankCmd) (s : State) : State × BkSum :=
  (List.range c.count).foldl (fun p i =>
    match c.kind with
    | .op m => c.opElem m p i
    | .red => c.redElem p i
    | .read b => c.readElem b p i
    | .rank => c.rankElem p i
    | .commit => c.commitElem p i) (s, BkSum.zero)

/-- A completion write of a unit: 4 bytes at a virtual address, accepted at the issuing gang's die; none while the page is being moved (09
R194), its home cannot be accessed or the die has no room for it; dropped where it may not be written. -/
def State.unitWord (s : State) (owner : Owner) (ctx va v : Nat) : Option State :=
  if (s.asleepTable ctx).isSome then none
  else
  match s.checkWalk ctx va 4 .write with
  | (.ok pa leaf, s) =>
    let l := [(va, pa, s.accessMode leaf pa 0 true, leBytes 4 v, false)]
    if s.farTakes owner.place.2 l then some (s.farStore owner.place.2 owner ctx 0 none l) else none
  | (.mig, _) => none
  | (_, s) => some s

/-- The next notice of a unit's command, where the release before it has completed; none once the count may fall. -/
def State.finishStep (o : Owner) (ctx scope res : Nat) (cword : Option (Nat × Nat)) (p : State × Option Finish) : State × Option Finish :=
  match p.2 with
  | none => p
  | some f =>
    if !p.1.unitReleased o scope f.upto then p
    else
      let wrote (k : Nat) (r : Option State) : State × Option Finish := match r with
        | some s => (s, some { f with stage := k, upto := s.nextId })
        | none => p
      match f.stage, cword with
      | 0, _ => wrote 1 (p.1.unitWord o ctx res f.word)
      | 1, some (a, v) => wrote 2 (p.1.unitWord o ctx a v)
      | 1, none => wrote 2 (some p.1)
      | _, _ => (p.1, none)

/-- The notices of a unit's command, as far as they can be given now. -/
def State.finish (s : State) (o : Owner) (ctx scope res : Nat) (cword : Option (Nat × Nat)) (f : Finish) : State × Option Finish :=
  let step := State.finishStep o ctx scope res cword
  step (step (step (s, some f)))

/-- Records a denial of a unit's writes against a gang. -/
def State.unitDenial (s : State) (o : Owner) (n at_ : Nat) : State :=
  match o with
  | .gang h g =>
    if n = 0 then s
    else s.modGang h g fun gg => { gg with denials := gg.denials ++ [{ pc := 0, mask := 0, addr := at_, cause := 1, tagged := false }] }
  | _ => s

/-- Whether the homes that a command touches can be accessed (23 R397). -/
def State.cmdAwake (s : State) (c : BankCmd) : Bool :=
  s.awake c.dst && (c.kind == .commit || s.awake c.srcA) && (!c.hasB || s.awake c.srcB)

/-- BANK_COMMAND_COMPLETE: the elements; then RES, CWORD and the BK count, each with a release at the CTL scope (R275). -/
def State.bankComplete (s : State) (b : Nat) : Option State :=
  match s.bankCmds.find? fun c => c.id == b with
  | none => none
  | some c =>
    let go (s : State) (f : Finish) : State :=
      match s.finish c.owner c.ctx c.scope c.res (c.cword.map fun a => (a, c.cval)) f with
      | (s, none) => { s with bankCmds := s.bankCmds.filter fun x => x.id != b }.uncount c.owner 3
      | (s, some f) => { s with bankCmds := s.bankCmds.map fun x => if x.id = b then { x with fin := some f } else x }
    match c.fin with
    | some f => some (go s f)
    | none =>
      if !s.cmdAwake c then none
      else
        let p := c.perform s
        let s := p.1.unitDenial c.owner p.2.denials p.2.deniedAt
        some (go s { stage := 0, word := p.2.word, upto := s.nextId })

/-- BANK_COMMAND_COMPLETE. -/
def execBankCommandComplete (b : Nat) (s : State) : Out := event (s.bankComplete b) s

end Sys2Proof.Machine
end

