-- ==== Sys2Proof/Machine/Control.lean ====
section
/-!
DEFINITION. Branches, calls and returns with the window moves of 05 R82, reconvergence, exit, priorities and traps
(07 R140-R148), and overlays' JMPF (08 R178).
-/
namespace Sys2Proof.Machine

open Sys2Proof

/-! ## Segments (08 R174) -/

/-- Whether a segment is in the task's kernel object. -/
def State.inObject (s : State) (h seg : Nat) : Bool :=
  match s.task h with
  | none => false
  | some t =>
    match s.launch t.launch with
    | none => false
    | some l => decide (seg < l.nseg ∧ seg < 4096)

/-- Whether an instruction slot holds a segment of a task's kernel object. -/
def ISlot.holds (x : ISlot) (t : Task) (kobj seg : Nat) : Bool := x.ctx == t.ctx && x.kobj == kobj && x.seg == seg

/-- The kernel object of a task. -/
def State.kobjOf (s : State) (t : Task) : Nat :=
  match s.launch t.launch with
  | none => 0
  | some l => l.packet.kobj

/-- The slot of core `c` that holds a segment of a task. -/
def State.slotOf (s : State) (c : Nat) (t : Task) (seg : Nat) : Option (Nat × ISlot) :=
  (s.core c).islots.findSome? fun p =>
    match p.2 with
    | some x => if x.holds t (s.kobjOf t) seg then some (p.1, x) else none
    | none => none

/-- Whether a segment has landed on the task's core. -/
def State.landed (s : State) (h seg : Nat) : Bool :=
  match s.task h with
  | none => false
  | some t =>
    match s.slotOf (hCore h) t seg with
    | some (_, x) => x.landed
    | none => false

/-- A reference makes a slot the most recent (08 R174). -/
def State.touch (s : State) (h seg : Nat) : State :=
  match s.task h with
  | none => s
  | some t =>
    match s.slotOf (hCore h) t seg with
    | some (i, x) => s.modCore (hCore h) fun c => { c with islots := AList.set none c.islots i (some { x with recency := s.tick }) }
    | none => s

/-- The fault of a code pointer, if any: kind, detail, address (07 R142). -/
def State.pointerFault (s : State) (h : Nat) (lo hi : Word) : Option (Nat × Nat × Nat) :=
  let seg := lo.toNat / 8192
  if hi ≠ 0 ∨ lo.toNat % 4 ≠ 0 ∨ 2 ^ 25 ≤ lo.toNat then some (kALIGN, 0, lo.toNat)
  else if !s.inObject h seg then some (kSEGMISS, 0, seg)
  else if !s.landed h seg then some (kSEGMISS, 1, seg)
  else none

/-! ## Window moves (05 R82) -/

/-- Key of a word of a thread's spill area. -/
def spillKey (g lane word : Nat) : Nat := (g * 32 + lane) * 16384 + word

/-- Whether a call must spill. -/
def Thread.mustSpill (D : Nat) (t : Thread) : Bool := decide (D < t.base + 48 - t.floor)

/-- Whether a call overflows the spill area. -/
def Thread.overflows (D S : Nat) (t : Thread) : Bool := t.mustSpill D && decide (S < (t.floor / 20 + 1) * 80)

/-- Physical entries of the logical entries floor .. floor + 19. -/
def Thread.floorEntries (D : Nat) (t : Thread) : List Nat := (List.range 20).map fun j => (t.floor + j) % D

/-- Entries of a list that are not full. -/
def Thread.pending (t : Thread) (ps : List Nat) : List Nat := ps.filter fun p => AList.get .full t.rstate p != .full

/-- What a call must wait for in one lane: the entries it spills, and its link register. -/
def Thread.callWaits (D : Nat) (t : Thread) (lane : Nat) : List (Nat × Nat) :=
  (t.pending ((if t.mustSpill D then t.floorEntries D else []) ++ [(t.base + 27) % D])).map fun p => (lane, p)

/-- One lane's window move and link of a call; the spill area takes the entries with their poison. -/
def Task.callLane (t : Task) (g lane : Nat) (link : Word) : Task :=
  let D := t.variant.depth
  let th := (t.gang g).thread lane
  let t := if th.mustSpill D then
      { t with
        spill := (List.range 20).foldl (fun a j =>
          AList.set 0 a (spillKey g lane (th.floor + j)) (AList.get 0 th.stack ((th.floor + j) % D))) t.spill,
        spillPoison := (List.range 20).foldl (fun a j =>
          AList.set false a (spillKey g lane (th.floor + j)) (AList.get false th.poison ((th.floor + j) % D))) t.spillPoison }
    else t
  t.setGang g ((t.gang g).modThread lane fun x =>
    { x with floor := if x.mustSpill D then x.floor + 20 else x.floor, base := x.base + 20 }.write D 7 link)

/-- Physical entries that a return refills. -/
def Thread.fillEntries (D : Nat) (t : Thread) : List Nat :=
  if t.base - 20 < t.floor then (List.range 20).map fun j => (t.floor - 20 + j) % D else []

/-- Whether a return's fill meets poison (05 R83). -/
def Task.fillPoison (t : Task) (g lane : Nat) : Bool :=
  let th := (t.gang g).thread lane
  decide (th.base - 20 < th.floor) &&
    (List.range 20).any fun j => AList.get false t.spillPoison (spillKey g lane (th.floor - 20 + j))

/-- One lane's window move of a return. -/
def Task.retLane (t : Task) (g lane : Nat) : Task :=
  let D := t.variant.depth
  t.setGang g ((t.gang g).modThread lane fun x =>
    if x.base - 20 < x.floor then
      (List.range 20).foldl (fun y j =>
        y.writePhys ((x.floor - 20 + j) % D) (AList.get 0 t.spill (spillKey g lane (x.floor - 20 + j))))
        { x with base := x.base - 20, floor := x.floor - 20 }
    else { x with base := x.base - 20 })

/-- CALL, CALLR and RET invalidate the operand latch (05 R85). -/
def Gang.clearLatch (gg : Gang) : Gang := { gg with latch := [] }

/-! ## Branches -/

/-- The code word a branch sends its threads to (07 R141). -/
def branchTarget (pc : Word) (imm : BitVec 15) : Word := pc + 4 + 4 * imm.signExtend 32

/-- BRA (07 R141). -/
def execBra (w : LB) (s : State) : Out :=
  s.lane { guard := w.g.toNat } fun c s =>
    (s.putEntry c.h c.g { c.e.at (branchTarget c.e.pc w.imm) c.act with pri := w.pri }).advance c.h c.g c.e
      (c.e.mask &&& ~~~c.act)

/-- Lanes of a mask that a call overflows. -/
def Task.overflowLanes (t : Task) (g : Nat) (m : LaneMask) : LaneMask :=
  maskOf fun i => m.getLsbD i && ((t.gang g).thread i).overflows t.variant.depth t.variant.spill

/-- The window moves of a call in the lanes of a mask. -/
def State.callLanes (s : State) (h g : Nat) (m : LaneMask) (link : Word) : State :=
  if m = 0 then s
  else s.modTask h fun t =>
    let t := (lanesOf m).foldl (fun t i => t.callLane g i link) t
    t.setGang g (t.gang g).clearLatch

/-- What the call of some lanes must wait for. -/
def Task.callNeed (t : Task) (g : Nat) (m : LaneMask) : List (Nat × Nat) :=
  (lanesOf m).flatMap fun i => ((t.gang g).thread i).callWaits t.variant.depth i

/-- Raises STACKOVF: detail 0 for overflow, 1 for a return at base 0 (05 R83). -/
def State.raiseStack (s : State) (c : LaneCtx) (detail : Nat) (m : LaneMask) : State :=
  s.raise c.h c.g (.lane kSTACKOVF c.e.pc m detail 0) { c.e with mask := m }

/-- CALL (07 R141). -/
def execCall (w : LB) (s : State) : Out :=
  s.lane { guard := w.g.toNat } fun c s =>
    match s.task c.h with
    | none => s
    | some t =>
      let ovf := t.overflowLanes c.g c.act
      let ok := c.act &&& ~~~ovf
      let need := t.callNeed c.g ok
      if need ≠ [] then s.putEntry c.h c.g { c.e with st := (s.gang c.h c.g).waiting need }
      else
        let s := s.raiseStack c 0 ovf
        let s := s.callLanes c.h c.g ok (c.e.pc + 4)
        (s.putEntry c.h c.g { c.e.at (branchTarget c.e.pc w.imm) ok with pri := w.pri }).advance c.h c.g c.e
          (c.e.mask &&& ~~~c.act)

/-- Raises the faults of code pointers, kind by kind; the record names the lanes of one kind and detail. -/
def State.raisePointers (s : State) (c : LaneCtx) (ptr : Nat → Option (Nat × Nat × Nat)) : State :=
  [(kALIGN, 0), (kSEGMISS, 0), (kSEGMISS, 1)].foldl (fun s kd =>
    let m := maskOf fun i => c.act.getLsbD i && (match ptr i with
      | some (k, d, _) => k == kd.1 && d == kd.2
      | none => false)
    let addr := match ptr (lowestLane m) with
      | some (_, _, a) => a
      | none => 0
    s.raise c.h c.g (.lane kd.1 c.e.pc m kd.2 addr) { c.e with mask := m }) s

/-- Threads continue at their own code words: those with one target form one entry (07 R142). -/
def State.scatter (s : State) (h g : Nat) (e : Entry) (m : LaneMask) (target : Nat → Word) : State :=
  (lanesOf m).foldl (fun s i =>
    let same := maskOf fun j => m.getLsbD j && target j == target i
    if lowestLane same = i then (s.putEntry h g (e.at (target i) same)).touch h ((target i).toNat / 8192) else s) s

/-- CALLR (07 R142). -/
def execCallr (w : LJ) (s : State) : Out :=
  s.lane { guard := w.g.toNat, third := [w.a.toNat, w.a.toNat + 1] } fun c s =>
    match s.task c.h with
    | none => s
    | some t =>
      let lo (i : Nat) := s.val c w.a.toNat i
      let ptr (i : Nat) := s.pointerFault c.h (lo i) (s.val c (w.a.toNat + 1) i)
      let bad := maskOf fun i => c.act.getLsbD i && (ptr i).isSome
      let ovf := t.overflowLanes c.g (c.act &&& ~~~bad)
      let ok := c.act &&& ~~~bad &&& ~~~ovf
      let need := t.callNeed c.g ok
      if need ≠ [] then s.putEntry c.h c.g { c.e with st := (s.gang c.h c.g).waiting need }
      else
        let s' := (s.raisePointers c ptr).raiseStack c 0 ovf
        let s' := s'.callLanes c.h c.g ok (c.e.pc + 4)
        (s'.scatter c.h c.g c.e ok lo).advance c.h c.g c.e (c.e.mask &&& ~~~c.act)

/-- JMPR (07 R142). -/
def execJmpr (w : LJ) (s : State) : Out :=
  s.lane { guard := w.g.toNat, third := [w.a.toNat, w.a.toNat + 1] } fun c s =>
    let lo (i : Nat) := s.val c w.a.toNat i
    let ptr (i : Nat) := s.pointerFault c.h (lo i) (s.val c (w.a.toNat + 1) i)
    let bad := maskOf fun i => c.act.getLsbD i && (ptr i).isSome
    ((s.raisePointers c ptr).scatter c.h c.g c.e (c.act &&& ~~~bad) lo).advance c.h c.g c.e (c.e.mask &&& ~~~c.act)

/-- RET (07 R143): a return at base 0, a bad code word and a poisoned fill fault without effect. -/
def execRet (w : LG) (s : State) : Out :=
  s.lane { guard := w.g.toNat, third := [7] } fun c s =>
    match s.task c.h with
    | none => s
    | some t =>
      let D := t.variant.depth
      let th (i : Nat) := (t.gang c.g).thread i
      let lo (i : Nat) := s.val c 7 i
      let zero := maskOf fun i => c.act.getLsbD i && (th i).base == 0
      let ptr (i : Nat) := if zero.getLsbD i then none else s.pointerFault c.h (lo i) 0
      let bad := maskOf fun i => c.act.getLsbD i && (ptr i).isSome
      let pois := maskOf fun i => c.act.getLsbD i && !zero.getLsbD i && !bad.getLsbD i && t.fillPoison c.g i
      let ok := c.act &&& ~~~zero &&& ~~~bad &&& ~~~pois
      let need := (lanesOf ok).flatMap fun i => ((th i).pending ((th i).fillEntries D)).map fun p => (i, p)
      if need ≠ [] then s.putEntry c.h c.g { c.e with st := (s.gang c.h c.g).waiting need }
      else
        let s' := (s.raiseStack c 1 zero).raisePointers c ptr
        let s' := s'.raise c.h c.g (.lane kPOISON c.e.pc pois 5 0) { c.e with mask := pois }
        let s' := if ok = 0 then s' else s'.modTask c.h fun t =>
          let t := (lanesOf ok).foldl (fun t i => t.retLane c.g i) t
          t.setGang c.g (t.gang c.g).clearLatch
        (s'.scatter c.h c.g c.e ok lo).advance c.h c.g c.e (c.e.mask &&& ~~~c.act)

/-! ## Reconvergence and exit -/

/-- The highest priority of a list of entries. -/
def highestPri (l : List Entry) : BitVec 3 := l.foldl (fun p e => if p.toNat < e.pri.toNat then e.pri else p) 0

/-- Releases an RCB when every thread of the gang that has not exited waits at one (07 R140). -/
def State.rcbTest (s : State) (h g : Nat) : State :=
  let live := (s.gang h g).frontier.filter fun e => e.st != .exited
  match live with
  | [] => s
  | e :: _ =>
    if live.all fun x => x.st == .rcb && x.pc == e.pc then
      let m := live.foldl (fun a x => a ||| x.mask) 0
      (s.modGang h g fun gg => { gg with frontier := gg.frontier.filter fun x => x.st == .exited }).advance h g
        { e with pri := highestPri live } m
    else s

/-- RCB (07 R140). -/
def execRcb (w : LG) (s : State) : Out :=
  s.lane { guard := w.g.toNat } fun c s =>
    ((s.putEntry c.h c.g { c.e with mask := c.act, st := .rcb, qkeep := [] }).advance c.h c.g c.e
      (c.e.mask &&& ~~~c.act)).rcbTest c.h c.g

/-- Lanes exit: they leave every barrier and join the exited entry (07 R144, R151). -/
def State.exitLanes (s : State) (h g : Nat) (m : LaneMask) : State :=
  match s.task h with
  | none => s
  | some t =>
    let s := s.modGang h g fun gg => gg.exitLanes m
    (List.range t.variant.nbar).foldl (fun s b => s.leave h g b m) s

/-- EXIT (07 R144): waits for pending data into the thread's registers. -/
def execExit (w : LG) (s : State) : Out :=
  s.lane { guard := w.g.toNat } fun c s =>
    let need := (lanesOf c.act).flatMap fun i => ((s.gang c.h c.g).thread i).rstate.map fun p => (i, p.1)
    if need ≠ [] then s.putEntry c.h c.g { c.e with st := (s.gang c.h c.g).waiting need }
    else
      ((s.advance c.h c.g c.e (c.e.mask &&& ~~~c.act)).exitLanes c.h c.g c.act).rcbTest c.h c.g

/-- Active lanes take a priority; the entry splits when it differs (07 R145). -/
def State.setPri (s : State) (c : LaneCtx) (n : BitVec 3) : State :=
  if n = c.e.pri then s.laneDone c
  else (s.advance c.h c.g { c.e with pri := n } c.act).advance c.h c.g c.e (c.e.mask &&& ~~~c.act)

/-- SETPRI. -/
def execSetpri (w : LSetpri) (s : State) : Out := s.lane { guard := w.g.toNat } fun c s => s.setPri c w.n

/-- YIELD. -/
def execYield (w : LG) (s : State) : Out := s.lane { guard := w.g.toNat } fun c s => s.setPri c 0

/-- TRAP (07 R146). -/
def execTrap (w : LTrap) (s : State) : Out :=
  s.lane { guard := w.g.toNat } fun c s =>
    (s.raise c.h c.g (.lane kTRAP c.e.pc c.act w.code.toNat 0) { c.e with mask := c.act }).advance c.h c.g c.e
      (c.e.mask &&& ~~~c.act)

/-- BRK (07 R146): TRAP with code 0 and detail bit 8. -/
def execBrk (w : LG) (s : State) : Out :=
  s.lane { guard := w.g.toNat } fun c s =>
    (s.raise c.h c.g (.lane kTRAP c.e.pc c.act 256 0) { c.e with mask := c.act }).advance c.h c.g c.e
      (c.e.mask &&& ~~~c.act)

/-! ## Uniform branches -/

/-- A gang's entry or a stream goes to a code word. -/
def State.goTo (s : State) (w : Who) (e : Entry) (pc : Word) : State :=
  match w with
  | .gang h g => s.putEntry h g (e.at pc e.mask)
  | .stream k i => s.modStream k i fun x => { x with pc := pc, st := .ready }

/-- UBRA (07 R148). -/
def execUbra (w : UB) (s : State) : Out := s.uniform w.c fun who e s => s.goTo who e (branchTarget e.pc w.imm)

/-- A thread's entry of a segment by JMPF releases the task's fetch references to it (08 R176). -/
def Task.dropRef (t : Task) (seg : Nat) : Task := { t with fetchRefs := t.fetchRefs.filter (· != seg) }

/-- JMPF (08 R178). -/
def execJmpf (w : UAB) (s : State) : Out :=
  s.uniformGang w.c fun h g e s =>
    let who := Who.gang h g
    let seg := (s.sreg who w.a.toNat).toNat
    let off := (s.sreg who w.b.toNat).toNat
    if off % 4 ≠ 0 ∨ 8192 ≤ off then s.raiseUniform who e kALIGN 0 off
    else if !s.inObject h seg then s.raiseUniform who e kSEGMISS 0 seg
    else if !s.landed h seg then s.raiseUniform who e kSEGMISS 1 seg
    else ((s.modTask h fun t => t.dropRef seg).goTo who e (BitVec.ofNat 32 (seg * 8192 + off))).touch h seg

end Sys2Proof.Machine
end

