-- ==== Sys2Proof/Machine/Launch.lean ====
section
/-!
DEFINITION. Launches: packets, acceptance, the walk, the home queues, LAUNCH, JOINL, merge windows, completion (11 R232-R250,
R252, R260-R263, 10 R230).
-/
namespace Sys2Proof.Machine

open Sys2Proof

/-! ## Structures in memory -/

/-- A launch packet from its 128 bytes (11 Table 11-1). -/
def packetOf (bs : List Byte) : Packet :=
  { version := field bs 0 2, kind := field bs 2 1, steal := field bs 4 2, spanbar := field bs 6 1, lpri := field bs 7 1,
    kobj := field bs 8 8, work := field bs 16 8, nitems := field bs 24 4, args := field bs 32 8, crec := field bs 40 8,
    sh := (List.range 4).map fun k => field bs (48 + 4 * k) 4, follow := (List.range 6).map fun k => field bs (64 + 8 * k) 8,
    reserved := decide (field bs 3 1 ≠ 0 ∨ field bs 28 4 ≠ 0 ∨ field bs 112 16 ≠ 0), lost := [] }

/-- The 4-byte words of a structure that are poisoned. -/
def lostWords (bs : List PByte) : List Nat :=
  (List.range (bs.length / 4)).filter fun j => (List.range 4).any fun i => (bs.getD (4 * j + i) (0, false)).2

/-- Bytes of a structure with those of a good one in the place of its lost words: what the words that can be read still show to be
malformed is so (11 R234). -/
def knownBytes (good : List Byte) (lost : List Nat) (bs : List PByte) : List Byte :=
  (List.range bs.length).map fun j => if lost.contains (j / 4) then good.getD j 0 else (bs.getD j (0, false)).1

/-- A packet some of whose words are poisoned; a completion record whose address is not whole is none. -/
def packetRead (bs : List PByte) : Packet :=
  let lost := lostWords bs
  let p := packetOf (knownBytes [1] lost bs)
  { p with lost := lost, crec := if lost.contains 10 || lost.contains 11 then 0 else p.crec }

/-- Refusal cause 1 (11 Table 11-2); a KIND that was lost is none that fails. -/
def Packet.bad (p : Packet) (system : Bool) : Bool :=
  system || p.version != 1 || decide (2 < p.kind) || p.reserved || decide (7 < p.lpri) ||
    (!p.lost.contains 0 && p.kind != 2 && p.spanbar != 0) || decide (p.args % 8 ≠ 0) || decide (p.crec % 32 ≠ 0)

/-- Whether the follower fields of a list or span launch fail (cause 8). -/
def Packet.followBad (p : Packet) : Bool := p.follow.any fun a => a != 0

/-- Whether NITEMS, unless it was lost, and SPANBAR fail a check that needs nothing else (cause 9). -/
def Packet.itemsBad (p : Packet) : Bool :=
  let has := !p.lost.contains 6
  match p.kind with
  | 0 => p.nitems != 0
  | 1 => has && (p.nitems == 0 || decide (2 ^ 24 < p.nitems))
  | _ => (has && (p.nitems == 0 || decide (24 < p.nitems))) || decide (8 < p.spanbar)

/-- A variant descriptor from its 96 bytes (11 Table 11-5). -/
def variantOf (bs : List Byte) : Variant :=
  { bkt := (List.range 4).map fun k => (field bs (8 * k) 4, field bs (8 * k + 4) 4), threads := field bs 32 2, depth := field bs 34 1,
    gran := field bs 35 1, spill := field bs 36 2, nq := field bs 38 1, nbar := field bs 39 1, prod := field bs 40 1, fmask := field bs 41 1,
    entry := field bs 42 2, fmap := field bs 44 2, fstage := (List.range 6).map fun i => field bs (48 + 2 * i) 2,
    fbmap := (List.range 6).map fun i => field bs (60 + 2 * i) 2 }

/-- A variant descriptor that refuses the launch with cause 2 (11 R237, R238). -/
def variantBad (nseg : Nat) (bs : List Byte) : Bool :=
  let v := variantOf bs
  decide (v.threads < 32 ∨ 1024 < v.threads ∨ v.threads % 32 ≠ 0) || decide (v.depth < 32 ∨ 248 < v.depth ∨ v.depth % 8 ≠ 0) ||
    decide (64 < v.gran) || decide (v.spill % 80 ≠ 0 ∨ 65520 < v.spill) || decide (32 < v.nq) || decide (v.nbar = 0 ∨ 96 < v.nbar) ||
    decide (64 ≤ v.fmask) || decide (nseg ≤ v.entry) || decide (4096 ≤ v.fmap) || decide (field bs 46 2 ≠ 0) || decide (field bs 72 24 ≠ 0) ||
    (List.range 6).any fun i => !v.fmask.testBit i &&
      (bits v.fmap (2 * i + 1) (2 * i) != 0 || v.fstage.getD i 0 != 0 || v.fbmap.getD i 0 != 0)

/-- The bytes of a good kernel-object header, variant descriptor, SEGTAB entry and tensor record; each fails no check, beside any other
words of a good one. -/
def goodHeader : List Byte := [1, 0, 2, 1, 0, 16]
def goodVariant : List Byte := ((List.range 4).flatMap fun _ => [0, 0, 0, 0, 255, 255, 255, 255]) ++ [0, 4, 32, 0, 0, 0, 0, 1, 255, 63]
def goodSegEntry : List Byte := [0, 0, 0, 0, 0, 0, 0, 0, 4]
def goodTensor : List Byte :=
  [1, 0, 0, 0, 4, 0, 0, 0] ++ ((List.range 8).flatMap fun _ => [1, 0, 0, 0]) ++ [1]

/-- Gangs of a variant's task. -/
def Variant.gangs (v : Variant) : Nat := v.threads / 32
/-- Register blocks of a variant's task (11 R255). -/
def Variant.blocks (v : Variant) : Nat := v.gangs * (v.depth / 8)

/-- A SEGTAB entry: code address, length, kind, the rest (11 Table 11-4). -/
structure SegEntry where
  addr : Nat
  len : Nat
  kind : Nat
  rest : Nat
  deriving DecidableEq, Repr

/-- A SEGTAB entry from its two doublewords. -/
def segEntryOf (q : List Nat) : SegEntry :=
  { addr := q.getD 0 0, len := bits (q.getD 1 0) 31 0, kind := bits (q.getD 1 0) 39 32, rest := bits (q.getD 1 0) 63 40 }

/-- A malformed SEGTAB entry (11 R238). -/
def SegEntry.bad (e : SegEntry) : Bool :=
  decide (e.addr % 4 ≠ 0) || !canonical e.addr || decide (e.len < 4 ∨ 8192 < e.len ∨ e.len % 4 ≠ 0) || decide (1 < e.kind) || decide (e.rest ≠ 0)

/-- Where a segment's SEGTAB entry stands. -/
def Launch.segEntryVa (l : Launch) (seg : Nat) : Nat := (l.segtab + 16 * seg) % 2 ^ 64

/-- Whether a variant's buckets hold the shape (11 R239). -/
def Variant.matches (v : Variant) (sh : List Nat) : Bool :=
  (List.range 4).all fun k => decide ((v.bkt.getD k (0, 0)).1 ≤ sh.getD k 0) && decide (sh.getD k 0 ≤ (v.bkt.getD k (0, 0)).2)

/-- A task larger than an empty core, or a producer gang outside it (11 Table 11-2, cause 5). -/
def Variant.tooBig (v : Variant) : Bool := decide (256 < v.blocks) || (v.prod != 255 && decide (v.gangs ≤ v.prod))

/-! ## Submission and acceptance (11 R232, R234) -/

/-- A launch as submitted. -/
def Launch.submitted (ctx die : Nat) (token : Option Word) (p : Packet) (system : Bool) : Launch :=
  { ctx := ctx, die := die, token := token, packet := p, phase := .accept, map := 0, nseg := 0, segtab := 0, variant := none, entryAddr := 0, entryLen := 0,
    tensor := none, followers := [], recs := [], items := [], nread := 0, spec := 0, committed := 0, created := 0, ended := 0, run := 0, skip := 0, fault := 0,
    fidx := none, refusal := 0, wcause := 0, killed := false, system := system, crecWait := false, release := none }

/-- Whether two list launches of one item may be merged (11 R261). -/
def MergeWindow.takes (w : MergeWindow) (ctx : Nat) (p : Packet) : Bool :=
  w.ctx == ctx && w.kobj == p.kobj && w.sh == p.sh && w.lpri == p.lpri && w.steal == p.steal

/-- Releases the children of a merge window for acceptance. -/
def State.closeWindow (s : State) (d : Nat) (w : MergeWindow) : State :=
  w.children.foldl (fun s l => s.modLaunch l fun x => if x.phase = .merging then { x with phase := .accept } else x)
    (s.modDie d fun x => { x with mergeWindows := x.mergeWindows.filter fun y => y != w })

/-- A child joins its merge window or opens one; the 256th closes it. -/
def State.mergeChild (s : State) (d l : Nat) (x : Launch) : State :=
  let p := x.packet
  let w := ((s.die d).mergeWindows.find? fun w => w.takes x.ctx p).getD
    { ctx := x.ctx, kobj := p.kobj, sh := p.sh, lpri := p.lpri, steal := p.steal, children := [] }
  let w' := { w with children := w.children ++ [l] }
  let s := s.modDie d fun y => { y with mergeWindows := (y.mergeWindows.filter fun z => z != w) ++ [w'] }
  let s := s.modLaunch l fun y => { y with phase := .merging }
  if w'.children.length = 256 then s.closeWindow d w' else s

/-- Submits a packet to a die's launch unit: the launch's number. -/
def State.submit (s : State) (ctx die : Nat) (token : Option Word) (p : Packet) (system : Bool) : Nat × State :=
  let n := s.nextLaunch
  let l := Launch.submitted ctx die token p system
  let s := { s with launches := AList.set none s.launches n (some l), nextLaunch := n + 1 }
  (n, if token.isSome ∧ p.kind = 1 ∧ p.nitems = 1 ∧ p.crec = 0 then s.mergeChild die n l else s)

/-- MERGE_WINDOW_CLOSE: the oldest window of a die closes (11 R261). -/
def execMergeWindowClose (d : Nat) (s : State) : Out :=
  event ((s.die d).mergeWindows.head?.map fun w => s.closeWindow d w) s

/-- What a part of the acceptance finds; `wait` where what it reads cannot be read yet. -/
inductive Accept (α : Type)
  | ok (v : α)
  | refuse (cause : Nat)
  | suspend (kind detail addr : Nat)
  | wait
  deriving DecidableEq, Repr

/-- The kind, detail and address of a failed read of a unit. -/
def readFault {α : Type} (r : BmRes α) : Nat × Nat × Nat :=
  match r with
  | .failed c va =>
    match c with
    | .page n l => (kPAGE, pageDetail n l .read, va)
    | .perm n => (kPERM, n, va)
    | _ => (kALIGN, 0, va)
  | .poison va pa => (kPOISON, poisonSource pa, va)
  | _ => (0, 0, 0)

/-- What a launch unit reports of a failed read of the record at `va` (11 R248). -/
def readFaultAt {α : Type} (va : Nat) (r : BmRes α) : Nat × Nat × Nat := ((readFault r).1, (readFault r).2.1, va)

/-- A launch unit reads a structure of a launch: its bytes, with a good one's in the place of those that it cannot read, and the words
lost; none where they cannot be read yet. -/
def State.readKnown (s : State) (l : Launch) (good : List Byte) (va n : Nat) : Option (List Byte × List Nat) × State :=
  match s.unitRead none l.die l.ctx (va % 2 ^ 64) n with
  | (.ok bs, s) => (some (knownBytes good (lostWords bs) bs, lostWords bs), s)
  | (.wait _, s) => (none, s)
  | (_, s) => (some ((List.range n).map fun j => good.getD j 0, List.range (n / 4)), s)

/-- What the checks of a launch's packet and kernel object find: the launch with what was read of its kernel object, the causes that
hold, in ascending order, and the words lost of the chosen variant: all of them where no variant could be chosen. -/
structure Found where
  launch : Launch
  causes : List Nat
  lost : List Nat
  deriving DecidableEq, Repr

/-- The words of a variant descriptor. -/
def variantWords : List Nat := List.range 24

/-- The chosen variant, as far as the descriptors show it. -/
inductive Choice
  | chosen (v : Variant) (lost : List Nat)
  | nothing
  | unknown
  deriving DecidableEq, Repr

/-- Chooses the lowest variant that holds the shape (11 R239): unknown where a lost bucket leaves it open; `all` says that these are all
the descriptors. -/
def chooseVariant (sh : List Nat) (all : Bool) : List (List Byte × List Nat) → Choice
  | [] => if all then .nothing else .unknown
  | x :: r =>
    if !(variantOf x.1).matches sh then chooseVariant sh all r
    else if x.2.all fun j => decide (8 ≤ j) then .chosen (variantOf x.1) x.2
    else .unknown

/-- Reads the variant descriptors of a kernel object. -/
def State.readVariants (s : State) (l : Launch) (nvar : Nat) : Option (List (List Byte × List Nat)) × State :=
  (List.range nvar).foldl (fun r i =>
    match r.1 with
    | none => r
    | some vs =>
      match r.2.readKnown l goodVariant (l.packet.kobj + 64 + 96 * i) 96 with
      | (none, s) => (none, s)
      | (some v, s) => (some (vs ++ [v]), s)) (some [], s)

/-- Whether a kernel object's map differs from its context's (cause 3). -/
def State.badMap (s : State) (l : Launch) (map : Nat) : Bool := decide (some map ≠ (s.context l.ctx).map fun c => c.desc.map)

/-- A kernel-object header that refuses the launch with cause 2 (11 Table 11-4). -/
def headerBad (hd : List Byte) : Bool :=
  decide (field hd 0 2 ≠ 1 ∨ field hd 3 1 = 0 ∨ 8 < field hd 3 1 ∨ field hd 4 2 = 0 ∨ 4096 < field hd 4 2 ∨ field hd 6 2 ≠ 0 ∨ field hd 16 48 ≠ 0)

/-- The checks of a chosen variant: its entry segment's SEGTAB entry (cause 2), then causes 5 and 6, beside those known; `known` says
whether SEGTAB was read. -/
def State.acceptVariant (s : State) (l : Launch) (v : Variant) (lost known : List Nat) (segtab : Bool) : Option Found × State :=
  let limit := ((s.context l.ctx).map fun c => c.desc.spillLimit).getD 0
  let own := (if v.tooBig then [5] else []) ++ (if limit < v.spill then [6] else [])
  let more (unread : Bool) : List Nat := known.filter (fun c => decide (c < 10)) ++ own ++ (if unread || known.contains 10 then [10] else [])
  let l := { l with variant := some v }
  if !segtab || lost.contains 10 then (some { launch := l, causes := more true, lost := lost }, s)
  else
    match s.readKnown l goodSegEntry (l.segEntryVa v.entry) 16 with
    | (none, s) => (none, s)
    | (some (sb, lostS), s) =>
      let seg := segEntryOf [field sb 0 8, field sb 8 8]
      let l := { l with entryAddr := field sb 0 8, entryLen := field sb 8 4 }
      (some { launch := l, causes := if seg.bad || seg.kind != 0 then [2] else more (lostS != []), lost := lost }, s)

/-- The checks of the kernel object (11 R234, R236-R239): its header, every variant descriptor, the chosen variant. One whose NVAR is lost
has a first descriptor; a lost word of the packet is cause 10. -/
def State.acceptKernel (s : State) (l : Launch) : Option Found × State :=
  match s.readKnown l goodHeader l.packet.kobj 64 with
  | (none, s) => (none, s)
  | (some (hd, lostH), s) =>
    let stop (c : Nat) : Found := { launch := l, causes := [c], lost := variantWords }
    if headerBad hd then (some (stop 2), s)
    else
      let l := { l with map := field hd 2 1, nseg := field hd 4 2, segtab := field hd 8 8 }
      match s.readVariants l (field hd 3 1) with
      | (none, s) => (none, s)
      | (some vs, s) =>
        let badMap := if !lostH.contains 0 && s.badMap l l.map then [3] else []
        let unread := if lostH != [] || l.packet.lost != [] || vs.any (fun v => v.2 != []) then [10] else []
        let shape := [12, 13, 14, 15].all fun j => !l.packet.lost.contains j
        if vs.any fun v => variantBad l.nseg v.1 then (some (stop 2), s)
        else
          match if shape then chooseVariant l.packet.sh (!lostH.contains 0) vs else .unknown with
          | .nothing => (some { launch := l, causes := badMap ++ [4], lost := variantWords }, s)
          | .unknown => (some { launch := l, causes := badMap ++ [10], lost := variantWords }, s)
          | .chosen v lost => s.acceptVariant l v lost (badMap ++ unread) (!(lostH.contains 2 || lostH.contains 3))

/-- The checks of the packet, then of the kernel object. -/
def State.acceptObject (s : State) (l : Launch) : Option Found × State :=
  let p := l.packet
  let stop (c : Nat) : Option Found × State := (some { launch := l, causes := [c], lost := variantWords }, s)
  if p.bad l.system then stop 1
  else if p.kobj % 64 ≠ 0 then stop 2
  else if p.lost.contains 2 || p.lost.contains 3 then stop 10
  else s.acceptKernel l

/-- Whether a follower that was read as `w`, of lost words `lostW`, fails a check (11 R253); a lost word fails none, and a lost TILE is at
least 1. -/
def followerFails (v : Variant) (lostV : List Nat) (ndim : Option Nat) (i : Nat) (w : Tensor) (lostW : List Nat) : Bool :=
  let n := tensorTileBytes w
  let bn := ((n + 511) / 512 + 31) / 32 * 4
  let stage := v.fstage.getD i 0 * 512
  let bm := v.fbmap.getD i 0 * 4
  let has (j : Nat) : Bool := !lostV.contains j
  let outside (a n : Nat) : Bool := has 8 && decide (v.gran * 4096 < a + n)
  !lostW.contains 1 && (ndim.any (fun d => d != w.ndim) || (has (12 + i / 2) && outside stage n) || (has (15 + i / 2) && outside bm bn) ||
    (has (12 + i / 2) && has (15 + i / 2) && meets stage n bm bn))

/-- Acceptance of one follower slot: 0 good, 8 invalid, 10 unreadable, 11 not yet readable; and the tensor record it names. -/
def State.acceptFollower (s : State) (f : Found) (ndim : Option Nat) (i : Nat) : (Nat × Option Tensor) × State :=
  let l := f.launch
  let v := l.variant.getD (variantOf goodVariant)
  let a := l.packet.follow.getD i 0
  let lostA := l.packet.lost.contains (16 + 2 * i) || l.packet.lost.contains (17 + 2 * i)
  if !f.lost.contains 10 && !(lostA && a == 0) && (a != 0) != v.fmask.testBit i then ((8, none), s)
  else if a % 8 ≠ 0 then ((8, none), s)
  else if lostA then ((10, none), s)
  else if a = 0 then ((0, none), s)
  else
    match s.readKnown l goodTensor a 64 with
    | (none, s) => ((11, none), s)
    | (some (bs, lost), s) =>
      match tensorOf bs with
      | none => ((8, none), s)
      | some w => ((if followerFails v f.lost ndim i w lost then 8 else if lost = [] then 0 else 10, some w), s)

/-- Acceptance of a placed launch whose tensor record was read as `bs`, of lost words `lost`. -/
def State.acceptTensor (s : State) (f : Found) (bs : List Byte) (lost : List Nat) : Accept Launch × State :=
  let p := f.launch.packet
  match tensorOf bs with
  | none => (.refuse 7, s)
  | some t =>
    if (List.range 4).any fun k => t.cover.testBit k && f.launch.variant.any fun v => decide ((v.bkt.getD k (0, 0)).2 < t.ext.getD k 1) then (.refuse 7, s)
    else
      let ndim := if lost.contains 1 then none else some t.ndim
      let r := (List.range 6).foldl (fun (r : List (Nat × Option Tensor) × State) i =>
        let q := r.2.acceptFollower f ndim i
        (r.1 ++ [q.1], q.2)) ([], s)
      let codes := r.1.map Prod.fst
      if codes.contains 11 then (.wait, s)
      else if codes.contains 8 then (.refuse 8, r.2)
      else if p.nitems ≠ 0 then (.refuse 9, r.2)
      else if codes.contains 10 ∨ f.causes ≠ [] then (.refuse 10, r.2)
      else (.ok { f.launch with tensor := some t, followers := r.1.map Prod.snd }, r.2)

/-- Acceptance of a placed launch's tensor record and followers: a fault of its read suspends the launch, unless it is refused in any
case. -/
def State.acceptPlaced (s : State) (f : Found) : Accept Launch × State :=
  let l := f.launch
  if l.packet.work % 8 ≠ 0 then (.refuse 7, s)
  else if l.packet.lost.contains 4 || l.packet.lost.contains 5 then s.acceptTensor f goodTensor (List.range 16)
  else
    match s.unitBytes none l.die l.ctx l.packet.work 64 with
    | (.ok bs, s) => s.acceptTensor f bs []
    | (.wait _, _) => (.wait, s)
    | (q, s) =>
      if f.causes = [] then let x := readFaultAt l.packet.work q; (.suspend x.1 x.2.1 x.2.2, s)
      else
        match s.readKnown l goodTensor l.packet.work 64 with
        | (none, s) => (.wait, s)
        | (some (bs, lost), s) => s.acceptTensor f bs lost

/-- Acceptance of a list or span launch's fields. -/
def acceptItems (f : Found) : Accept Launch :=
  let p := f.launch.packet
  if p.work % 8 ≠ 0 then .refuse 7
  else if p.followBad then .refuse 8
  else if p.itemsBad || (p.kind == 2 && !f.lost.contains 9 && f.launch.variant.any fun v => decide (v.nbar < p.spanbar)) then .refuse 9
  else if f.causes = [] then .ok f.launch
  else .refuse 10

/-- The part of the acceptance after the kernel object: the lowest cause is reported (11 R234). -/
def State.acceptWork (s : State) (f : Found) : Accept Launch × State :=
  match f.causes.find? fun c => decide (c < 7) with
  | some c => (.refuse c, s)
  | none =>
    let p := f.launch.packet
    if p.lost.contains 0 then (.refuse (if p.work % 8 ≠ 0 then 7 else 10), s)
    else if p.kind = 0 then s.acceptPlaced f
    else (acceptItems f, s)

/-- Whether launch units accept launches: a hand-over pauses them (23 R393). -/
def State.accepting (s : State) : Bool :=
  match s.hand.st with
  | .paused => false
  | .adopting => false
  | _ => true

/-- Posts a walker fault to the walking die's scheduler thread (11 R248), with the packet copy. -/
def State.postWalker (s : State) (n : Nat) (l : Launch) (cause kind detail addr : Nat) : State :=
  s.post l.die (.walker n l.ctx l.packet cause kind detail addr l.committed l.spec)

/-- Acceptance of the kernel object: after a suspension what was read of it stands, but the context's map may have changed (03 R50). -/
def State.acceptHead (s : State) (l : Launch) : Option Found × State :=
  if l.variant.isSome then (some { launch := l, causes := if s.badMap l l.map then [3] else [], lost := [] }, s) else s.acceptObject l

/-- LAUNCH_ACCEPTANCE (11 R234): after a suspension it goes on with what it had read. -/
def State.launchAcceptance (s : State) (n : Nat) : Option State :=
  match s.launch n with
  | none => none
  | some l =>
    if l.phase = .accept ∧ s.accepting ∧ s.lehr.level ≠ 4 then
      match s.acceptHead l with
      | (none, _) => none
      | (some f, s) =>
        match s.acceptWork f with
        | (.ok l', s) => some (s.modLaunch n fun _ => { l' with phase := .walking })
        | (.refuse c, s) => some (s.modLaunch n fun x => { x with phase := .done, refusal := c })
        | (.suspend k d a, s) => some ((s.modLaunch n fun _ => { f.launch with phase := .acceptSuspended }).postWalker n f.launch 1 k d a)
        | (.wait, _) => none
    else none

/-- LAUNCH_ACCEPTANCE. -/
def execLaunchAcceptance (l : Nat) (s : State) : Out := event (s.launchAcceptance l) s

/-! ## Home queues (11 R250) -/

/-- Tasks in the queue of a die's home. -/
def Die.depth (d : Die) : Nat := d.homeQ.foldl (fun n p => n + p.2.length) 0

/-- The head: the oldest task of the highest level that is not empty. -/
def Die.headTask (d : Die) : Option QTask :=
  (List.range 8).foldl (fun o v => match AList.get [] d.homeQ v with
    | q :: _ => some q
    | [] => o) none

/-- Tasks in the order in which the queue would offer them. -/
def Die.queued (d : Die) : List QTask := (List.range 8).reverse.flatMap fun v => AList.get [] d.homeQ v

/-- Removes a task. -/
def Die.unqueue (d : Die) (q : QTask) : Die :=
  { d with homeQ := AList.modify [] d.homeQ q.lpri fun l => l.erase q }

/-- Queues a task at a home (11 R245). -/
def State.enqueue (s : State) (home : Nat) (q : QTask) : State :=
  s.modDie (ownerDie home) fun d => { d with homeQ := AList.modify [] d.homeQ q.lpri fun l => l ++ [q] }

/-- Whether a home's queue takes another task. -/
def State.queueRoom (s : State) (home : Nat) : Bool := decide ((s.die (ownerDie home)).depth < 65536)

/-! ## The walk (11 R245-R248, R252) -/

/-- Records accepted before the first malformed one. -/
def Launch.goodRecs (l : Launch) : List Placement := l.recs.takeWhile fun r => !r.bad

/-- Index of the record that holds the committed tile, or of the next to read. -/
def Launch.commitRec (l : Launch) : Nat :=
  (l.goodRecs.findIdx? fun r => decide (l.committed < r.first + r.count)).getD l.goodRecs.length

/-- A record overlaps or stands before the last one (11 R245). -/
def Launch.outOfOrder (l : Launch) (r : Placement) : Bool :=
  match l.recs.getLast? with
  | none => false
  | some q => decide (r.first < q.first + q.count)

/-- Tiles of the records accepted. -/
def Launch.covered (l : Launch) (r : Placement) : Nat := if l.committed < r.first + r.count then r.first + r.count else l.committed

/-- Suspends the walk: records beyond the committed tile are dropped (11 Table 11-8). -/
def State.suspendWalk (s : State) (n : Nat) (l : Launch) (f : Nat × Nat × Nat) : State :=
  (s.modLaunch n fun x =>
    { x with phase := .suspended, recs := x.recs.take l.commitRec, nread := if x.packet.kind = 0 then l.commitRec else x.committed,
             items := x.items.take x.committed }).postWalker n l 1 f.1 f.2.1 f.2.2

/-- A work item (11 Table 11-9); none where it is malformed: HOME 31-255 too, which R252 does not name (log 81). -/
def itemOf (l : Launch) (i : Nat) (bs : List Byte) : Option Ident :=
  let home := field bs 24 1
  let off := field bs 28 4
  if 16 < home ∨ field bs 25 3 ≠ 0 then none
  else some { taskid := BitVec.ofNat 32 i, tile := (List.range 4).map fun k => BitVec.ofNat 32 (field bs (4 * k) 4),
              extx := BitVec.ofNat 32 (field bs 16 4), exty := BitVec.ofNat 32 (field bs 20 4), home := home,
              spanidx := if l.packet.kind = 2 then some i else none, args := (l.packet.args + 8 * off) % 2 ^ 64 }

/-- The marker of a malformed item. -/
def badMark : Placement := { first := 0, count := 0, base := 0, stride := 0, home := 0, flags := 0, gen := 0, rmask := 0, bad := true }

/-- WALKER_ACCEPT_RECORD: the next placement record, or work item, is read and accepted. -/
def State.acceptRecord (s : State) (n : Nat) : Option State :=
  match s.launch n with
  | none => none
  | some l =>
    if l.phase ≠ .walking ∨ l.recs.any fun r => r.bad then none
    else
      match l.tensor with
      | some t =>
        if t.nplace ≤ l.nread ∨ l.commitRec + 16 < l.nread then none
        else
          match s.homeBytesVa l.ctx ((t.place + 32 * l.nread) % 2 ^ 64) 32 with
          | (.ok bs, s) =>
            let r := placementOf bs
            if r.gen % 2 = 1 then none
            else
              let r := { r with bad := r.bad || l.outOfOrder r }
              some (s.modLaunch n fun x => { x with recs := x.recs ++ [r], nread := x.nread + 1, spec := if r.bad then x.spec else l.covered r })
          | (.wait _, _) => none
          | (q, s) => some (s.suspendWalk n l (readFaultAt ((t.place + 32 * l.nread) % 2 ^ 64) q))
      | none =>
        if l.packet.nitems ≤ l.nread then none
        else
          match s.unitBytes none l.die l.ctx ((l.packet.work + 32 * l.nread) % 2 ^ 64) 32 with
          | (.ok bs, s) =>
            match itemOf l l.nread bs with
            | some it => some (s.modLaunch n fun x => { x with items := x.items ++ [it], nread := x.nread + 1, spec := x.nread + 1 })
            | none => some (s.modLaunch n fun x => { x with recs := [badMark], nread := x.nread + 1 })
          | (.wait _, _) => none
          | (q, s) => some (s.suspendWalk n l (readFaultAt ((l.packet.work + 32 * l.nread) % 2 ^ 64) q))

/-- WALKER_ACCEPT_RECORD. -/
def execWalkerAcceptRecord (l : Nat) (s : State) : Out := event (s.acceptRecord l) s

/-- Stops the walk with cause 2 at a tile or item `at_`. -/
def State.stopWalk (s : State) (n : Nat) (l : Launch) (at_ : Nat) : State :=
  (s.modLaunch n fun x => { x with phase := .stopped, wcause := 2 }).postWalker n l 2 0 0 at_

/-- Identity of a placed task (11 R249). -/
def placedIdent (p : Packet) (t : Tensor) (tile : Nat) (c : List Nat) (home : Nat) (padding : Bool) : Ident :=
  let ext (k : Nat) : Nat :=
    let r := t.ext.getD k 1 - c.getD k 0 * t.tile.getD k 1
    if r < t.tile.getD k 1 then r else t.tile.getD k 1
  { taskid := BitVec.ofNat 32 tile, tile := (List.range 4).map fun k => BitVec.ofNat 32 (if k < t.ndim then c.getD k 0 else 0),
    extx := if padding then 0 else BitVec.ofNat 32 (ext 0),
    exty := if padding then 0 else if t.ndim = 1 then 1 else BitVec.ofNat 32 (ext 1),
    home := home, spanidx := none, args := p.args }

/-- The replica home with the shortest queue, ties to the lowest home (11 R245). -/
def State.shortest (s : State) (rmask : Nat) : Nat :=
  match (List.range 16).filter fun h => rmask.testBit h with
  | [] => 0
  | h :: t => t.foldl (fun b x => if (s.die (ownerDie x)).depth < (s.die (ownerDie b)).depth then x else b) h

/-- Moves the committed position past one tile, done at the last. -/
def Launch.commit1 (l : Launch) (total : Nat) : Launch :=
  { l with committed := l.committed + 1, spec := if l.spec < l.committed + 1 then l.committed + 1 else l.spec,
           phase := if l.committed + 1 = total then .done else l.phase }

/-- Queues the committed tile's task. -/
def State.queueTile (s : State) (n : Nat) (l : Launch) (total home : Nat) (i : Ident) : Option State :=
  if s.queueRoom home then
    some ((s.enqueue home { launch := n, lpri := l.packet.lpri, ident := i }).modLaunch n fun x => { x.commit1 total with created := x.created + 1 })
  else none

/-- Commits a tile of a placed launch (11 R245). -/
def State.commitPlaced (s : State) (n : Nat) (l : Launch) (t : Tensor) (v : Variant) : Option State :=
  let grid := tensorGrid t v.bkt
  let total := listProd grid
  let u := l.committed
  let c := (walkOrder t.order t.ndim grid).getD u []
  let good := l.goodRecs
  match good.find? fun r => decide (r.first ≤ u) && decide (u < r.first + r.count) with
  | some r =>
    if r.flags.testBit 2 then some (s.modLaunch n fun x => { x.commit1 total with skip := x.skip + 1 })
    else
      let home := if r.flags.testBit 0 then s.shortest r.rmask else r.home
      s.queueTile n l total home (placedIdent l.packet t u c home false)
  | none =>
    if (good.any fun r => decide (u < r.first)) ∨ (good.length = l.recs.length ∧ t.nplace ≤ l.nread) then
      if (List.range 4).any fun k => decide (t.ext.getD k 1 ≤ c.getD k 0 * t.tile.getD k 1) then
        match ((good.filter fun r => decide (r.first ≤ u)).getLast?).or good.head? with
        | some r => s.queueTile n l total r.home (placedIdent l.packet t u c r.home true)
        | none => none
      else some (s.stopWalk n l u)
    else if good.length ≠ l.recs.length then some (s.stopWalk n l u)
    else none

/-- Commits an item of a list, or the whole of a span once its items are read (11 R252, R258). A queued span counts as one task of its
queue (log 80). -/
def State.commitItem (s : State) (n : Nat) (l : Launch) : Option State :=
  if l.packet.kind = 2 then
    if l.items.length = l.packet.nitems then
      match l.items with
      | it :: _ =>
        if s.queueRoom it.home then
          some ((s.enqueue it.home { launch := n, lpri := l.packet.lpri, ident := it }).modLaunch n fun x =>
            { x with committed := x.packet.nitems, phase := .done, created := x.packet.nitems })
        else none
      | [] => none
    else if l.recs = [] then none else some (s.stopWalk n l l.items.length)
  else
    match l.items[l.committed]? with
    | some it => s.queueTile n l l.packet.nitems it.home it
    | none => if l.recs = [] then none else some (s.stopWalk n l l.committed)

/-- WALKER_COMMIT_TILE. -/
def State.commitTile (s : State) (n : Nat) : Option State :=
  match s.launch n with
  | none => none
  | some l =>
    if l.phase ≠ .walking then none
    else
      match l.tensor, l.variant with
      | some t, some v => s.commitPlaced n l t v
      | _, _ => s.commitItem n l

/-- WALKER_COMMIT_TILE. -/
def execWalkerCommitTile (l : Nat) (s : State) : Out := event (s.commitTile l) s

/-- WALKER_RESUME: a resolved fault lets the unit read again. -/
def State.walkerResume (s : State) (n : Nat) : Option State :=
  match s.launch n with
  | none => none
  | some l =>
    if s.walkerPosted n then none
    else
      match l.phase with
      | .acceptSuspended => some (s.modLaunch n fun x => { x with phase := .accept })
      | .suspended => some (s.modLaunch n fun x => { x with phase := .walking, spec := x.committed })
      | _ => none

/-- WALKER_RESUME. -/
def execWalkerResume (l : Nat) (s : State) : Out := event (s.walkerResume l) s

/-- WALKER_REFUSED: the walk stops with cause 1. -/
def State.walkerRefused (s : State) (n : Nat) : Option State :=
  match s.launch n with
  | none => none
  | some l =>
    if (l.phase = .acceptSuspended ∨ l.phase = .suspended) ∧ !s.walkerPosted n then some (s.modLaunch n fun x => { x with phase := .stopped, wcause := 1 }) else none

/-- WALKER_REFUSED. -/
def execWalkerRefused (l : Nat) (s : State) : Out := event (s.walkerRefused l) s

/-! ## LAUNCH and JOINL (11 R260, R262, R263) -/

/-- The join slot that a LAUNCH takes, if one is free (log 17). -/
def Context.freeJoin (c : Context) (tick : Nat) : Option Nat :=
  let free := (List.range 4096).filter fun i => AList.get none c.joins i == none
  free[Config.joinSlot tick % free.length]?

/-- The sequence number of a context's n-th token: never 0. -/
def joinSeq (ctx n : Nat) : Nat := (Config.joinBase ctx + n) % (2 ^ 20 - 1) + 1

/-- Takes a join slot: the token and the state. -/
def State.takeJoin (s : State) (ctx i l : Nat) : Word × State :=
  match s.context ctx with
  | none => (0, s)
  | some c =>
    let seq := joinSeq ctx c.nextSeq
    (BitVec.ofNat 32 (seq * 4096 + i), s.modContext ctx fun c =>
      { c with nextSeq := c.nextSeq + 1,
               joins := AList.set none c.joins i (some { seq := seq, launch := l, joined := false, issuerEnded := false, status := none }) })

/-- A LAUNCH submits the packet it has copied, or waits with the copy for a join slot; one whose context has been torn down is discarded: no
child, no slot (11 R264). -/
def State.launchSubmit (s : State) (h g : Nat) (e : Entry) (d : Nat) (p : Packet) : State :=
  let ctx := s.ctxOf h
  if !s.created ctx then s.advance h g e e.mask
  else
  match (s.context ctx).bind fun c => c.freeJoin s.tick with
  | none => s.putEntry h g { e with st := .stall (.joinSlot p) }
  | some i =>
    let r := s.takeJoin ctx i s.nextLaunch
    let s := (r.2.submit ctx (hDie h) (some r.1) p false).2
    let s := s.modTask h fun t => { t with tokens := r.1 :: t.tokens }
    (s.setS (.gang h g) d r.1).advance h g e e.mask

/-- A LAUNCH whose release has completed copies the packet at `p`. -/
def State.launchCopy (s : State) (h g : Nat) (e : Entry) (d p : Nat) : State :=
  let q := s.readDwords h g p 16
  match (if (s.asleepTable (s.ctxOf h)).isSome then .wait 0 else q.1) with
  | .wait _ => s.putEntry h g { e with st := .stall (.launch p (s.upto e)) }
  | r => q.2.bmFail h g e r fun ds => q.2.launchSubmit h g e d (packetOf (ds.flatMap fun d => leBytes 8 d))

/-- LAUNCH (11 R260): the address is read at issue, the packet copied once, after the release. -/
def execLaunch (w : UDA) (s : State) : Out :=
  s.uniformGang w.c fun h g e s =>
    let who := Who.gang h g
    match e.st with
    | .stall (.launch p _) => s.launchCopy h g e w.d.toNat p
    | .stall (.joinSlot p) => s.launchSubmit h g e w.d.toNat p
    | _ =>
      let p := s.spair who w.a.toNat
      if p % 64 ≠ 0 then s.raiseUniform who e kALIGN 0 p
      else
        s.gate who e fun s =>
          if s.releaseDone who 5 s.nextId then s.launchCopy h g e w.d.toNat p
          else s.putEntry h g { e with st := .stall (.launch p s.nextId) }

/-- The join slot of a valid token. -/
def State.joinOf (s : State) (ctx : Nat) (token : Word) : Option JoinSlot :=
  match (s.context ctx).bind fun c => AList.get none c.joins (token.toNat % 4096) with
  | some j => if j.seq = token.toNat / 4096 ∧ !j.joined then some j else none
  | none => none

/-- Frees a join slot whose child has completed and which is joined or whose issuer has ended (11 R262). -/
def Context.reapJoin (c : Context) (i : Nat) : Context :=
  match AList.get none c.joins i with
  | some j => if j.status.isSome ∧ (j.joined ∨ j.issuerEnded) then { c with joins := AList.set none c.joins i none } else c
  | none => c

/-- Changes a token's join slot. -/
def State.modJoin (s : State) (ctx : Nat) (token : Word) (f : JoinSlot → JoinSlot) : State :=
  s.modContext ctx fun c =>
    match AList.get none c.joins (token.toNat % 4096) with
    | some j =>
      if j.seq = token.toNat / 4096 then
        { c with joins := AList.set none c.joins (token.toNat % 4096) (some (f j)) }.reapJoin (token.toNat % 4096)
      else c
    | none => c

/-- The return of a JOINL with a status, which joins its token: for 1, 2 and 4 with an acquire at package scope, once the gang's loads
have landed. -/
def State.joinReturn (s : State) (h g : Nat) (e : Entry) (d : Nat) (token v : Word) : State :=
  let k := v.toNat % 16
  let ret (s : State) : State :=
    ((s.modJoin (s.ctxOf h) token fun x => { x with joined := true }).setS (.gang h g) d v).advance h g e e.mask
  if k = 1 ∨ k = 2 ∨ k = 4 then
    if s.loadsLanded (.gang h g) (s.upto e) then ret (s.discard (hCore h) (hDie h) 5)
    else s.putEntry h g { e with st := .stall (.joined token v (s.upto e)) }
  else ret s

/-- JOINL (11 R263). -/
def execJoinl (w : UDA) (s : State) : Out :=
  s.uniformGang w.c fun h g e s =>
    match e.st with
    | .stall (.joined token v _) => s.joinReturn h g e w.d.toNat token v
    | _ =>
      let ctx := s.ctxOf h
      let token := s.sreg (.gang h g) w.a.toNat
      match s.joinOf ctx token with
      | none => (s.setS (.gang h g) w.d.toNat 0xFFFF0006).advance h g e e.mask
      | some j =>
        match j.status with
        | some v => s.joinReturn h g e w.d.toNat token v
        | none => s.putEntry h g { e with st := .stall (.joinl token) }

/-! ## Completion (11 R235, 10 R230) -/

/-- FIDX of the completion record: all ones while no task has faulted (11 R235). -/
def Launch.fidxWord (l : Launch) : Word := l.fidx.getD (BitVec.allOnes 32)

/-- The status code. -/
def Launch.code (l : Launch) : Nat :=
  if l.refusal ≠ 0 then 5 else if l.killed then 3 else if l.fault ≠ 0 ∨ l.wcause ≠ 0 then 2 else if l.created = 0 then 4 else 1

/-- STATUS bits 15-8. -/
def Launch.causeByte (l : Launch) : Nat := if l.refusal ≠ 0 then l.refusal else l.wcause

/-- The completion record's bytes (11 Table 11-3). -/
def Launch.record (l : Launch) : List Byte :=
  leBytes 4 (l.code + 256 * l.causeByte) ++ leBytes 4 l.run ++ leBytes 4 l.skip ++ leBytes 4 l.fault ++ leBytes 4 l.fidxWord.toNat ++
    leBytes 4 l.committed ++ leBytes 8 0

/-- The status word of JOINL (11 R263). -/
def Launch.joinStatus (l : Launch) : Word :=
  BitVec.ofNat 32 (l.code + 256 * l.causeByte + 65536 * (if l.code = 2 then l.fidxWord.toNat % 65536 else 0xFFFF))

/-- Writes the completion record: none while it waits for a page that moves, or for a home in self-refresh. A launch that is refused
for a misaligned CREC has nowhere to write it: no record is written and no event posted (log 81). -/
def State.writeCrec (s : State) (n : Nat) (l : Launch) : Option State :=
  if l.packet.crec = 0 ∨ l.packet.crec % 32 ≠ 0 then some (s.modLaunch n fun x => { x with crecWait := false })
  else
    if (s.asleepTable l.ctx).isSome then none
    else
    match s.checkWalk l.ctx l.packet.crec 32 .write with
    | (.ok pa _, s) =>
      if !s.awake pa then none
      else
        let s := s.modLaunch n fun x => { x with crecWait := false }
        if (s.guarded pa 32).isSome then some ((s.logDenial (dieOfPa pa)).post l.die (.crecFailed n))
        else some (s.plainStore pa l.record)
    | (.page _ _, s) => some ((s.modLaunch n fun x => { x with crecWait := true }).post l.die (.crec n))
    | (.mig, _) => none
    | (_, s) => some ((s.modLaunch n fun x => { x with crecWait := false }).post l.die (.crecFailed n))

/-- A completed launch that waits for nothing is gone. -/
def State.reapLaunch (s : State) (n : Nat) : State :=
  match s.launch n with
  | some l => if l.phase = .complete ∧ !l.crecWait then { s with launches := AList.set none s.launches n none } else s
  | none => s

/-- Entries stalled on a token take its status. -/
def Gang.wakeJoins (gg : Gang) (token v : Word) (upto : Nat) : Gang :=
  { gg with frontier := gg.frontier.map fun e => if e.st = .stall (.joinl token) then { e with st := .stall (.joined token v upto) } else e }

/-- A child's status reaches its token, and every JOINL stalled on it (R263). -/
def State.deliverJoin (s : State) (l : Launch) : State :=
  match l.token with
  | none => s
  | some token =>
    let v := l.joinStatus
    let wake (o : Option Task) : Option Task :=
      o.map fun t => if t.ctx = l.ctx then { t with gangs := AList.mapVals Gang.absent (fun q => q.wakeJoins token v s.nextId) t.gangs } else t
    let s := { s with tasks := AList.mapVals none wake s.tasks }
    s.modJoin l.ctx token fun j => { j with status := some v }

/-- Every L1 line of the package, and every clean word of a guest line, is invalidated (10 R230). -/
def State.discardAll (s : State) : State :=
  { s with cores := AList.mapVals Core.reset (fun c => { c with l1 := [] }) s.cores,
           dies := AList.mapVals Die.reset (fun d => { d with guest := dropClean d.guest }) s.dies }

/-- Every write made before a point stands at its home: those of a launch's tasks, and those they have seen (10 R219, R230). -/
def State.allHome (s : State) (upto : Nat) : Bool := s.writes.all fun w => w.acked || decide (upto ≤ w.id)

/-- LAUNCH_COMPLETE: the walk is over and every task has ended; the release of 10 R230, then the record, then the token. -/
def State.launchComplete (s : State) (n : Nat) : Option State :=
  match s.launch n with
  | none => none
  | some l =>
    if (l.phase = .done ∨ l.phase = .stopped) ∧ l.created = l.ended then
      let upto := l.release.getD s.nextId
      let s := s.modLaunch n fun x => { x with release := some upto }
      if s.allHome upto then
        match s.discardAll.writeCrec n l with
        | none => none
        | some s => some (((s.modLaunch n fun x => { x with phase := .complete }).deliverJoin l).reapLaunch n)
      else some s
    else none

/-- LAUNCH_COMPLETE. -/
def execLaunchComplete (l : Nat) (s : State) : Out := event (s.launchComplete l) s

end Sys2Proof.Machine
end

