-- ==== Sys2Proof/Machine/Tasks.lean ====
section
/-!
DEFINITION. Core resources, placement, dispatch, task start (11 R251, R255-R259, 05 R93), instruction slots and segment
fetches (08 R174-R177, R403).
-/
namespace Sys2Proof.Machine

open Sys2Proof

/-! ## Resources of a core (11 R255, R256) -/

/-- The tasks on a core. -/
def State.coreTasks (s : State) (c : Nat) : List Task :=
  s.tasks.filterMap fun p => if hCore p.1 = c then p.2 else none

/-- Sum of a number over tasks. -/
def sumOf {α : Type} (l : List α) (f : α → Nat) : Nat := l.foldl (fun n t => n + f t) 0

/-- The lowest free run of `n` register blocks. -/
def State.freeRun (s : State) (c n : Nat) : Option Nat :=
  let used := (s.coreTasks c).map fun t => (t.block0, t.variant.blocks)
  (List.range (257 - n)).find? fun b => used.all fun u => !meets b n u.1 u.2

/-- Free register blocks. -/
def State.freeBlocks (s : State) (c : Nat) : Nat := 256 - sumOf (s.coreTasks c) fun t => t.variant.blocks

/-- Free granules, lowest first. -/
def State.freeGranules (s : State) (c : Nat) : List Nat := (List.range 64).filter fun i => !(s.heldGranules c).contains i

/-- The lowest free task slot. -/
def State.freeSlot (s : State) (c : Nat) : Option Nat := (List.range 16).find? fun i => (s.task (handleOf c i)).isNone

/-! ## Instruction slots (08 R174) -/

/-- Whether a task refers to a segment: an entry stands in it, or a fetch reference names it. -/
def Task.refers (t : Task) (seg : Nat) : Bool :=
  t.fetchRefs.contains seg || t.gangs.any fun q => q.2.frontier.any fun e => e.st != .exited && decide (e.pc.toNat / 8192 = seg)

/-- Whether a slot of a core may be replaced. -/
def State.slotIdle (s : State) (c : Nat) (x : ISlot) : Bool :=
  x.landed && (s.coreTasks c).all fun t => !(x.holds t (s.kobjOf t) x.seg && t.refers x.seg)

/-- The least recent of the slots that satisfy a test, an empty one first. -/
def oldestSlot (n : Nat) (l : AList (Option ISlot)) (idle : ISlot → Bool) : Option Nat :=
  match (List.range n).find? fun i => (AList.get none l i).isNone with
  | some i => some i
  | none =>
    ((List.range n).foldl (fun (b : Option (Nat × Nat)) i =>
      match AList.get none l i with
      | some x =>
        if idle x then
          (match b with
            | some (_, r) => if x.recency < r then some (i, x.recency) else b
            | none => some (i, x.recency))
        else b
      | none => b) none).map Prod.fst

/-- The slot a core would replace. -/
def State.replaceable (s : State) (c : Nat) : Option Nat := oldestSlot 16 (s.core c).islots (s.slotIdle c)

/-- The slot that holds, or is reserved for, a segment. -/
def State.slotFor (s : State) (c ctx kobj seg : Nat) : Option Nat :=
  (s.core c).islots.findSome? fun p => match p.2 with
    | some x => if x.ctx = ctx ∧ x.kobj = kobj ∧ x.seg = seg then some p.1 else none
    | none => none

/-- A reserved slot. -/
def ISlot.reserved (ctx kobj seg addr len tick : Nat) : ISlot :=
  { ctx := ctx, kobj := kobj, seg := seg, landed := false, addr := addr, len := len, code := [], poison := [], recency := tick }

/-- Requests a segment for a core: landed, nothing; fetch pending, joined; else a fetch starts, in a slot if one is free. -/
def State.request (s : State) (c ctx kobj seg addr len : Nat) (who : FetchFor) : State :=
  let same (f : Fetch) : Bool := !f.matrix && f.unit == c && f.ctx == ctx && f.kobj == kobj && f.seg == seg
  if s.fetches.any same then { s with fetches := s.fetches.map fun f => if same f then { f with who := f.who ++ [who] } else f }
  else if (s.slotFor c ctx kobj seg).isSome then s
  else
    let slot := s.replaceable c
    let (id, s) := s.fresh
    let f : Fetch :=
      { id := id, matrix := false, unit := c, slot := slot, ctx := ctx, kobj := kobj, seg := seg, addr := addr, len := len, who := [who],
        suspended := false }
    let s := { s with fetches := s.fetches ++ [f] }
    match slot with
    | none => s
    | some i => s.modCore c fun x => { x with islots := AList.set none x.islots i (some (ISlot.reserved ctx kobj seg addr len s.tick)) }

/-! ## Placement (11 R255, 08 R159, R162) -/

/-- Whether a core has the resources of a task but for its instruction slots (11 R255). -/
def State.hasRoom (s : State) (c : Nat) (v : Variant) : Bool :=
  let ts := s.coreTasks c
  (s.freeRun c v.blocks).isSome && decide (v.gran ≤ (s.freeGranules c).length) &&
    decide (sumOf ts (fun t => t.variant.gangs) + v.gangs ≤ 64) && decide (sumOf ts (fun t => t.variant.threads) + v.threads ≤ 2048) &&
    (s.freeSlot c).isSome && decide (sumOf ts (fun t => t.variant.nq) + v.nq ≤ 32) && decide (sumOf ts (fun t => t.variant.nbar) + v.nbar ≤ 96)

/-- Whether a task of a launch fits on a core (11 R255). -/
def State.fits (s : State) (c : Nat) (l : Launch) (v : Variant) : Bool :=
  s.hasRoom c v && ((s.slotFor c l.ctx l.packet.kobj v.entry).isSome || (s.replaceable c).isSome)

/-- The gangs of a starting task, at a code word. -/
def startGangs (n : Nat) (pc : Word) : AList Gang := (List.range n).map fun g => (g, Gang.start pc)

/-- A barrier whose members are every thread of a task. -/
def startBarrier (n : Nat) : Barrier := { Barrier.fresh with members := (List.range n).map fun g => (g, allLanes) }

/-- The barriers at task start: barrier 0, and the span barriers of a span's task, have every thread as a member (07 R150, R155). -/
def startBarriers (v : Variant) (span : Bool) (spanbar : Nat) : AList Barrier :=
  ((List.range v.nbar).filter fun b => b == 0 || (span && decide (v.nbar - spanbar ≤ b))).map fun b => (b, startBarrier v.gangs)

/-- A task as placed. -/
def Task.placed (l : Launch) (n : Nat) (v : Variant) (i : Ident) (block0 : Nat) (granules : List Nat) : Task :=
  { ctx := l.ctx, launch := n, ident := i, variant := v, sh := l.packet.sh, phase := .starting, fate := .alive, started := false,
    block0 := block0, granules := granules, gangs := startGangs v.gangs (BitVec.ofNat 32 (v.entry * 8192)), scratch := [], scratchPoison := [],
    mdesc := [], queues := [], barriers := startBarriers v i.spanidx.isSome l.packet.spanbar, spanbar := l.packet.spanbar, spill := [], spillPoison := [],
    fetchRefs := [], pins := [], tokens := [], saved := [], streams := [] }

/-- Reclaims lent granules: their lines are invalid (08 R164). -/
def State.trimL1 (s : State) (c : Nat) : State :=
  let ways := s.l1Ways c
  s.modCore c fun x => { x with l1 := x.l1.filter fun y => ways.contains y.way }

/-- A core places a task into a slot: its generation advances. -/
def State.putTask (s : State) (c slot : Nat) (t : Task) : State :=
  ((s.setTask (handleOf c slot) (some t)).modCore c fun x =>
    { x with slotGen := AList.modify 0 x.slotGen slot fun g => (g + 1) % 8, lastPlaced := s.tick + 1 }).trimL1 c

/-- The follower copies of a placed task, counted in its producer gang, or gang 0 (11 R254). -/
def State.startFollowers (s : State) (h : Nat) (l : Launch) (v : Variant) : State :=
  let g := if v.prod = 255 then 0 else v.prod
  (List.range 6).foldl (fun s i =>
    match l.followers.getD i none with
    | none => s
    | some w =>
      let (id, s) := s.fresh
      let x : Transfer :=
        { id := id, cluster := hCluster h, h := h, g := g, pc := BitVec.allOnes 32, mask := 0,
          src := .follow { slot := i, stage := v.fstage.getD i 0 * 512, bmap := v.fbmap.getD i 0 * 4, bytes := tensorTileBytes w, segs := none },
          committed := 0, spec := 0, next := 0, marked := [], flight := [], st := .queued, pageAddr := 0, pageDetail := 0 }
      { s with transfers := s.transfers ++ [x] }.addCount (.gang h g) 2 (· + 1)) s

/-- Places a task of a launch on a core where it fits. -/
def State.place (s : State) (c n : Nat) (l : Launch) (v : Variant) (i : Ident) : State :=
  match s.freeRun c v.blocks, s.freeSlot c with
  | some b, some slot =>
    let h := handleOf c slot
    let s := s.request c l.ctx l.packet.kobj v.entry l.entryAddr l.entryLen (.entry h)
    let s := s.putTask c slot (Task.placed l n v i b ((s.freeGranules c).take v.gran))
    s.startFollowers h l v
  | _, _ => s

/-! ## Rectangles of cores (11 R258) -/

/-- A rectangle of cores of a die. -/
structure Rect where
  x : Nat
  y : Nat
  w : Nat
  h : Nat
  deriving DecidableEq, Repr

/-- Core j of a rectangle, row by row. -/
def Rect.core (r : Rect) (d j : Nat) : Nat := ((d / 2) * 6 + r.y + j / r.w) * 16 + ((d % 2) * 8 + r.x + j % r.w)

/-- Whether a core takes `k` tasks at once. -/
def State.takesMany (s : State) (c n : Nat) (l : Launch) (v : Variant) (i : Ident) (k : Nat) : Bool :=
  match k with
  | 0 => true
  | k + 1 => s.fits c l v && (s.place c n l v i).takesMany c n l v i k

/-- The distance from a square. -/
def Rect.skew (r : Rect) : Nat := (r.w - r.h) + (r.h - r.w)

/-- Whether a rectangle is preferred to another: larger, then nearer to square, then lower y, then lower x; among equals the
wider (log 18). -/
def Rect.before (a b : Rect) : Bool :=
  if a.w * a.h ≠ b.w * b.h then decide (b.w * b.h < a.w * a.h)
  else if a.skew ≠ b.skew then decide (a.skew < b.skew)
  else if a.y ≠ b.y then decide (a.y < b.y)
  else if a.x ≠ b.x then decide (a.x < b.x)
  else decide (b.w ≤ a.w)

/-- Every rectangle of a die of at most `n` cores. -/
def rectangles (n : Nat) : List Rect :=
  ((List.range 8).flatMap fun x => (List.range 6).flatMap fun y => (List.range 8).flatMap fun w => (List.range 6).map fun h =>
    { x := x, y := y, w := w + 1, h := h + 1 : Rect }).filter fun r => decide (r.x + r.w ≤ 8) && decide (r.y + r.h ≤ 6) && decide (r.w * r.h ≤ n)

/-! ## Dispatch (11 R251, R257) -/

/-- The cores of a die, least recently placed first. -/
def State.offerOrder (s : State) (d : Nat) : List Nat :=
  (dieCores d).mergeSort fun a b => decide ((s.core a).lastPlaced ≤ (s.core b).lastPlaced)

/-- Whether a core is kept for another task. -/
def Die.keeps (d : Die) (c : Nat) (q : QTask) : Bool := d.reserved.any fun p => p.2 == c && p.1 != q

/-- The core kept for a task. -/
def Die.reservedFor (d : Die) (q : QTask) : Option Nat := (d.reserved.find? fun p => p.1 == q).map Prod.snd

/-- The launch and variant of a queued task. -/
def State.queuedLaunch (s : State) (q : QTask) : Option (Launch × Variant) :=
  match s.launch q.launch with
  | some l => l.variant.map fun v => (l, v)
  | none => none

def QTask.isSpan (q : QTask) : Bool := q.ident.spanidx.isSome

/-- The core of a die that takes a task: the one reserved for it, if one is (11 R257). -/
def State.takes (s : State) (d : Nat) (q : QTask) : Option Nat :=
  match s.queuedLaunch q with
  | none => none
  | some (l, v) =>
    match (s.die d).reservedFor q with
    | some c => if s.fits c l v then some c else none
    | none => (s.offerOrder d).find? fun c => !(s.die d).keeps c q && s.fits c l v

/-- A task is placed: its reservation ends and its bypasses are forgotten. -/
def Die.served (d : Die) (q : QTask) : Die :=
  { d with bypass := d.bypass.filter fun p => p.1 != q, reserved := d.reserved.filter fun p => p.1 != q }

/-- Places a queued task of home `home` on a core of die `d`. -/
def State.dispatch (s : State) (home c : Nat) (q : QTask) : State :=
  match s.queuedLaunch q with
  | none => s
  | some (l, v) => (s.modDie home fun d => (d.unqueue q).served q).place c q.launch l v q.ident

/-- The bypasses of a head so far. -/
def Die.bypasses (d : Die) (q : QTask) : Nat := ((d.bypass.find? fun p => p.1 == q).map Prod.snd).getD 0

/-- Whether a task fits on an empty core (11 R255). -/
def Variant.fitsEmpty (v : Variant) : Bool :=
  decide (v.blocks ≤ 256) && decide (v.gran ≤ 64) && decide (v.gangs ≤ 64) && decide (v.threads ≤ 2048) && decide (v.nq ≤ 32) &&
    decide (v.nbar ≤ 96)

/-- The core that a reservation takes: most free blocks, then lowest COREY, then lowest COREX (11 R257), of those not kept for another. -/
def State.reserveCore (s : State) (d : Nat) (q : QTask) : Option Nat :=
  match s.queuedLaunch q with
  | none => none
  | some (_, v) =>
    match ((dieCores d).filter fun c => !(s.die d).keeps c q).mergeSort fun a b => decide (a ≤ b) with
    | [] => none
    | c :: t => if v.fitsEmpty then some (t.foldl (fun b x => if s.freeBlocks b < s.freeBlocks x then x else b) c) else none

/-- Counts a bypass of a head; after the fourth a core is reserved. -/
def State.countBypass (s : State) (d : Nat) (q : QTask) : State :=
  let n := (s.die d).bypasses q + 1
  let r := s.reserveCore d q
  s.modDie d fun x =>
    { x with bypass := (q, n) :: x.bypass.filter fun p => p.1 != q,
             reserved := if n = 4 then (r.map fun c => (q, c)).toList ++ x.reserved else x.reserved }

/-- A later task of the queue that fits, placed before the head. -/
def State.bypassHead (s : State) (d : Nat) (q : QTask) : Option State :=
  if 4 ≤ (s.die d).bypasses q then none
  else
    ((s.die d).queued.filter fun x => x != q && !x.isSpan).findSome? fun x =>
      (s.takes d x).map fun c => (s.dispatch d c x).countBypass d q

/-- A remote queue from which a die may take the head: its depth exceeds the head's STEAL. -/
def State.stealable (s : State) (d r : Nat) : Option QTask :=
  if r = d then none
  else
    match (s.die r).headTask with
    | none => none
    | some q =>
      match s.launch q.launch with
      | none => none
      | some l => if l.packet.steal ≠ 65535 ∧ l.packet.steal < (s.die r).depth ∧ !q.isSpan then some q else none

/-- Takes the head of the deepest remote queue whose head fits. -/
def State.steal (s : State) (d : Nat) : Option State :=
  ((List.range 4).mergeSort fun a b => decide ((s.die b).depth ≤ (s.die a).depth)).findSome? fun r =>
    match s.stealable d r with
    | none => none
    | some q => (s.takes d q).map fun c => s.dispatch r c q

/-- The rectangle of a die on which a span is placed (11 R258). A core reserved for the span at the head binds it to no rectangle that holds
that core: R257 does not say how one core's reservation binds a span. DESIGN CHOICE (log 94). -/
def State.spanRect (s : State) (d : Nat) (q : QTask) : Option Rect :=
  match s.queuedLaunch q with
  | none => none
  | some (l, v) =>
    let n := l.items.length
    let ok (r : Rect) : Bool := (List.range (r.w * r.h)).all fun j =>
      let c := r.core d j
      !(s.die d).keeps c q && s.takesMany c q.launch l v q.ident ((n + r.w * r.h - 1) / (r.w * r.h))
    ((rectangles n).filter ok).foldl (fun (b : Option Rect) r => match b with
      | none => some r
      | some x => if r.before x then some r else b) none

/-- DISPATCH_TASK: a head that fits nowhere, a span as one task, may be bypassed. -/
def State.dispatchTask (s : State) (d : Nat) : Option State :=
  if !(s.die d).online ∨ 4 ≤ d ∨ !s.dieAwake d then none
  else
    match (s.die d).headTask with
    | none => s.steal d
    | some q =>
      match (if q.isSpan then none else s.takes d q) with
      | some c => some (s.dispatch d c q)
      | none => if (s.spanRect d q).isSome && q.isSpan then none else s.bypassHead d q

/-- DISPATCH_TASK. -/
def execDispatchTask (die : Nat) (s : State) : Out := event (s.dispatchTask die) s

/-! ## Spans (11 R258) -/

/-- Places every task of a span on a rectangle. -/
def State.placeSpan (s : State) (d n : Nat) (l : Launch) (v : Variant) (r : Rect) : State :=
  (List.range l.items.length).foldl (fun s i =>
    match l.items[i]? with
    | some it => s.place (r.core d (i % (r.w * r.h))) n l v it
    | none => s) s

/-- SPAN_PLACEMENT: the span at the head of a die's queue is placed as one unit. -/
def State.spanPlacement (s : State) (d : Nat) : Option State :=
  if !(s.die d).online ∨ 4 ≤ d ∨ !s.dieAwake d then none
  else
    match (s.die d).headTask with
    | none => none
    | some q =>
      match s.queuedLaunch q with
      | none => none
      | some (l, v) =>
        if !q.isSpan then none
        else
          match s.spanRect d q with
          | none => none
          | some r => some ((s.modDie d fun x => (x.unqueue q).served q).placeSpan d q.launch l v r)

/-- SPAN_PLACEMENT. -/
def execSpanPlacement (die : Nat) (s : State) : Out := event (s.spanPlacement die) s

/-! ## Task start (05 R93) -/

/-- The segments a starting or restored task must have landed: its entries' (21 R377). -/
def Task.needs (t : Task) : List Nat :=
  (t.gangs.flatMap fun q => (q.2.frontier.filter fun e => e.st != .exited).map fun e => e.pc.toNat / 8192).eraseDups

/-- s2-s15 at task start: the argument block's address and its first 12 words. -/
def startRegs (args : Nat) (bs : List Byte) : AList Word :=
  ((2, BitVec.ofNat 32 args) :: (3, BitVec.ofNat 32 (args / 2 ^ 32)) :: (List.range 12).map fun j => (4 + j, BitVec.ofNat 32 (field bs (4 * j) 4))).filter
    fun p => p.2 != 0

/-- A fault before a task's first word: gang 0's record, at offset 0 of a segment. -/
def State.startFault (s : State) (h seg kind detail addr : Nat) : State :=
  s.raiseLater h 0 (.lane kind (BitVec.ofNat 32 (seg * 8192)) allLanes detail addr)

/-- A PAGE fault of the argument read (05 R93): gang 0 parks at the entry word, and the read is made again once the page is resolved. -/
def State.argumentPage (s : State) (h seg detail addr : Nat) : State :=
  (s.gang h 0).frontier.foldl (fun s e => s.raise h 0 (.lane kPAGE (BitVec.ofNat 32 (seg * 8192)) allLanes detail addr) e)
    (s.modGang h 0 fun gg => { gg with frontier := [] })

/-- Whether a segment of a task could not be read: gang 0 holds SEGMISS with detail 3, in its record or behind it (08 R403). -/
def State.codeLost (s : State) (h : Nat) : Bool :=
  let lost (r : Record) : Bool := r.busy && r.kind == kSEGMISS && r.detail == 3
  lost (s.gang h 0).record || (s.gang h 0).held.any lost

/-- TASK_START: the segments have landed; the argument block is read, or a restored task acquires at package scope (10 R231). A task whose
code could not be read issues nothing. -/
def State.taskStart (s : State) (h : Nat) : Option State :=
  match s.task h with
  | none => none
  | some t =>
    if t.phase ≠ .starting ∨ t.fate ≠ .alive ∨ s.codeLost h ∨ (s.gang h 0).record.busy && !t.started then none
    else if !(t.needs.all fun seg => s.landed h seg) then none
    else
      let s := s.discard (hCore h) (hDie h) 5
      if t.started then some (s.modTask h fun t => { t with phase := .running })
      else
        match s.unitBytes (some (hCluster h)) (hDie h) t.ctx t.ident.args 48 with
        | (.ok bs, s) =>
          let r := startRegs t.ident.args bs
          some (s.modTask h fun t =>
            { t with phase := .running, started := true, gangs := AList.mapVals Gang.absent (fun g => { g with s := r }) t.gangs })
        | (.wait _, _) => none
        | (q, s) =>
          let f := readFault q
          some (if f.1 = kPAGE then s.argumentPage h t.variant.entry f.2.1 f.2.2
            else s.startFault h t.variant.entry f.1 f.2.1 f.2.2)

/-- TASK_START. -/
def execTaskStart (h : Nat) (s : State) : Out := event (s.taskStart h) s

/-! ## CFETCH and CSEGQ (08 R176, R177) -/

/-- Adds a fetch reference; a fifth releases the oldest. -/
def Task.addRef (t : Task) (seg : Nat) : Task :=
  let l := t.fetchRefs ++ [seg]
  { t with fetchRefs := l.drop (l.length - 4) }

/-- Parts of a range, none crossing a 4 KiB page. -/
def pageParts (va n : Nat) : List (Nat × Nat) :=
  (List.range (n / 4096 + 2)).filterMap fun j =>
    let a := va / 4096 * 4096 + 4096 * j
    let lo := if a < va then va else a
    let hi := if va + n < a + 4096 then va + n else a + 4096
    if lo < hi then some (lo % 2 ^ 64, hi - lo) else none

/-- Checks every page of a code range: the first that fails. -/
def State.checkCode (s : State) (k ctx va n : Nat) : Option (Nat × Checked) × State :=
  (pageParts va n).foldl (fun r p => match r.1 with
    | some _ => r
    | none =>
      let q := r.2.check k ctx p.1 1 p.2 .read
      (if q.1.isOk then none else some (p.1, q.1), q.2)) (none, s)

/-- CFETCH (08 R176): its own entry counts among the references of its segment when a slot is chosen. -/
def execCfetch (w : UA) (s : State) : Out :=
  s.uniformGang w.c fun h g e s =>
    let who := Who.gang h g
    let seg := (s.sreg who w.a.toNat).toNat
    if !s.inObject h seg then s.raiseUniform who e kSEGMISS 0 seg
    else if s.landed h seg then ((s.modTask h fun t => t.addRef seg).touch h seg).advance h g e e.mask
    else
      match s.task h with
      | none => s
      | some t =>
        match s.launch t.launch with
        | none => s
        | some l =>
          s.gate who e fun s =>
            let q := s.readDwords h g (l.segEntryVa seg) 2
            q.2.bmFail h g e q.1 fun ds =>
              let se := segEntryOf ds
              if se.bad then q.2.raiseUniform who e kSEGMISS 2 seg
              else
                match q.2.checkCode (hCluster h) t.ctx se.addr se.len with
                | (some (va, c), s) => s.raiseUniChecked who e va c .read
                | (none, s) =>
                  ((s.advance h g e e.mask).modTask h fun t => t.addRef seg).request (hCore h) t.ctx l.packet.kobj seg se.addr se.len (.cfetch h)

/-- CSEGQ (08 R177). -/
def execCsegq (w : UCa) (s : State) : Out :=
  s.uniformGang w.c fun h g e s =>
    let seg := (s.sreg (.gang h g) w.a.toNat).toNat
    (s.setC (.gang h g) w.cd.toNat (s.landed h seg)).advance h g e e.mask

/-! ## Landing (08 R403) -/

/-- The code of a segment's bytes: words by number, the filler unlisted (03 R60). -/
def codeOf (bs : List Byte) : AList Word :=
  (List.range (bs.length / 4)).filterMap fun j =>
    let w : Word := BitVec.ofNat 32 (field bs (4 * j) 4)
    if w = 0x7FE00000 then none else some (j, w)

/-- Changes the slot of a fetch. -/
def State.modFetchSlot (s : State) (f : Fetch) (i : Nat) (x : Option ISlot) : State :=
  if f.matrix then s.modCluster f.unit fun c => { c with mslots := AList.set none c.mslots i x }
  else s.modCore f.unit fun c => { c with islots := AList.set none c.islots i x }

/-- What follows for one waiter of a fetch that lands nothing. -/
def State.fetchLost (s : State) (f : Fetch) (w : FetchFor) : State :=
  match w with
  | .cfetch h => s.modTask h fun t => t.dropRef f.seg
  | .entry h => s.startFault h f.seg kSEGMISS 3 f.seg
  | .restore h => s.startFault h f.seg kSEGMISS 3 f.seg
  | .stream i =>
    match s.stream f.unit i with
    | none => s
    | some x =>
      (s.raiseLater x.h x.g { kind := kSEGMISS, flags := 2, pc := BitVec.ofNat 32 (f.seg * 8192), mask := 0, detail := 3, addr := f.seg,
                              commit := 0, spec := 0 }).modStream f.unit i fun y => { y with st := .parked .fault }

/-- A fetch lands nothing: its slot is free. -/
def State.fetchFails (s : State) (f : Fetch) : State :=
  let s := { s with fetches := s.fetches.filter fun x => x.id != f.id }
  let s := match f.slot with
    | none => s
    | some i => s.modFetchSlot f i none
  f.who.foldl (fun s w => s.fetchLost f w) s

/-- Changes a fetch. -/
def State.modFetch (s : State) (n : Nat) (f : Fetch → Fetch) : State :=
  { s with fetches := s.fetches.map fun y => if y.id = n then f y else y }

/-- A fetch waits for a page, with slot `i` reserved; its event names the context, the segment and the faulting address. -/
def State.holdFetch (s : State) (f : Fetch) (i va : Nat) : State :=
  ((s.modFetch f.id fun y => { y with slot := some i, suspended := true }).modFetchSlot f i
    (some (ISlot.reserved f.ctx f.kobj f.seg f.addr f.len s.tick))).post ((if f.matrix then f.unit else clusterOf f.unit) / 8)
    (.fetch f.id f.ctx f.seg va)

/-- Whether the event of a fetch still waits for a scheduler thread. -/
def State.fetchPosted (s : State) (n : Nat) : Bool :=
  s.dies.any fun d => d.2.events.any fun e => match e with
    | .fetch m _ _ _ => m == n
    | _ => false

/-- SEGMENT_FETCH_LANDS. -/
def State.fetchLands (s : State) (n : Nat) : Option State :=
  match s.fetches.find? fun f => f.id == n && !f.suspended with
  | none => none
  | some f =>
    match (if f.matrix then f.slot else f.slot.or (s.replaceable f.unit)) with
    | none => none
    | some i =>
      let k := if f.matrix then f.unit else clusterOf f.unit
      match s.unitBytes (some k) (k / 8) f.ctx f.addr f.len with
      | (.ok bs, s) =>
        let x := { ISlot.reserved f.ctx f.kobj f.seg f.addr f.len s.tick with landed := true, code := codeOf bs }
        some ({ s with fetches := s.fetches.filter fun y => y.id != n }.modFetchSlot f i (some x))
      | (.failed (.page _ _) va, s) => some (s.holdFetch f i va)
      | (.wait _, _) => none
      | (_, s) => some (s.fetchFails f)

/-- SEGMENT_FETCH_LANDS. -/
def execSegmentFetchLands (f : Nat) (s : State) : Out := event (s.fetchLands f) s

end Sys2Proof.Machine
end

