-- ==== Sys2Proof/Machine/Matrix.lean ====
section
/-!
DEFINITION. Matrix streams and the matrix unit (11 R265, R266, 16 R304-R322): MSTART, the five matrix words with their
checks at issue, and the array's and the post chain's work as events (log 15).
-/
namespace Sys2Proof.Machine

open Sys2Proof

/-! ## Starting a stream (11 R265, R266) -/

/-- A stream as MSTART starts it: s2:s3 hold the pair. -/
def Stream.start (h g seg slot : Nat) (lo hi : Word) : Stream :=
  { h := h, g := g, seg := seg, slot := slot, started := false, stopping := false, pc := BitVec.ofNat 32 (seg * 8192),
    s := AList.set 0 (AList.set 0 [] 2 lo) 3 hi, c := 1, counters := Counters.zero, tiles := [], tables := [], st := .ready, lastIssue := 0, kept := [] }

/-- A free stream slot of a cluster. -/
def State.freeStream (s : State) (k : Nat) : Option Nat := (List.range 4).find? fun i => (s.stream k i).isNone

/-- Whether a stream holds a control-core slot's segment. -/
def State.mslotUsed (s : State) (k : Nat) (x : ISlot) : Bool :=
  (s.cluster k).streams.any fun p => match p.2 with
    | some y =>
      (match s.task y.h with
        | some t => x.holds t (s.kobjOf t) y.seg
        | none => false)
    | none => false

/-- The control-core slot for a segment: the one that holds or awaits it, or the least recent that no stream holds: of eight slots at
most four are held. -/
def State.mslotFor (s : State) (k ctx kobj seg : Nat) : Option (Nat × Option ISlot) :=
  match (s.cluster k).mslots.findSome? fun p => match p.2 with
      | some x => if x.ctx = ctx ∧ x.kobj = kobj ∧ x.seg = seg then some (p.1, p.2) else none
      | none => none with
  | some r => some r
  | none => (oldestSlot 8 (s.cluster k).mslots fun x => !s.mslotUsed k x).map fun i => (i, none)

/-- Puts a stream on a cluster, fetching its segment where it has not landed; a fetch into a slot that is replaced is dropped. -/
def State.putStream (s : State) (k i ctx kobj addr len : Nat) (x : Stream) : State :=
  match s.mslotFor k ctx kobj x.seg with
  | none => s
  | some (j, held) =>
    let s := s.modCluster k fun c => { c with streams := AList.set none c.streams i (some { x with slot := j }) }
    match held with
    | some y =>
      let s := s.modCluster k fun c => { c with mslots := AList.set none c.mslots j (some { y with recency := s.tick }) }
      if y.landed then s
      else { s with fetches := s.fetches.map fun f =>
               if f.matrix && f.unit == k && f.slot == some j then { f with who := f.who ++ [.stream i] } else f }
    | none =>
      let (id, s) := s.fresh
      let f : Fetch :=
        { id := id, matrix := true, unit := k, slot := some j, ctx := ctx, kobj := kobj, seg := x.seg, addr := addr, len := len,
          who := [.stream i], suspended := false }
      { s with fetches := (s.fetches.filter fun (y : Fetch) => !(y.matrix && y.unit == k && y.slot == some j)) ++ [f] }.modCluster k fun c =>
        { c with mslots := AList.set none c.mslots j (some (ISlot.reserved ctx kobj x.seg addr len s.tick)) }

/-- Whether a cluster can start a stream: a slot is free and the matrix units are on (11 R265, 23 R397). -/
def State.streamRoom (s : State) (k : Nat) : Bool := (s.freeStream k).isSome && decide (s.lehr.level < 2)

/-- The stream of an MSTART starts, or the entry waits for that with what it read at issue. -/
def State.startStream (s : State) (h g : Nat) (e : Entry) (m : StreamStart) : State :=
  match s.task h, s.freeStream (hCluster h) with
  | some t, some i =>
    if s.streamRoom (hCluster h) then
      (s.putStream (hCluster h) i t.ctx (s.kobjOf t) m.addr m.len (Stream.start h g m.seg 0 m.lo m.hi)).advance h g e e.mask
    else s.putEntry h g { e with st := .stall (.streamSlot m) }
  | _, _ => s.putEntry h g { e with st := .stall (.streamSlot m) }

/-- The release of an MSTART at cluster scope, then its stream. -/
def State.mstartRelease (s : State) (h g : Nat) (e : Entry) (m : StreamStart) : State :=
  if s.releaseDone (.gang h g) 3 (s.upto e) then s.startStream h g e m
  else s.putEntry h g { e with st := .stall (.mstart m (s.upto e)) }

/-- MSTART (11 R265): what it reads and checks, it reads and checks once, at issue. -/
def execMstart (w : UAB) (s : State) : Out :=
  s.uniformGang w.c fun h g e s =>
    match e.st with
    | .stall (.mstart m _) => s.mstartRelease h g e m
    | .stall (.streamSlot m) => s.startStream h g e m
    | _ =>
    let who := Who.gang h g
    let seg := (s.sreg who w.a.toNat).toNat
    if !s.inObject h seg then s.raiseUniform who e kSEGMISS 0 seg
    else
      match s.task h with
      | none => s
      | some t =>
        match s.launch t.launch with
        | none => s
        | some l =>
          s.gate who e fun s =>
            let q := s.readDwords h g (l.segEntryVa seg) 2
            q.2.bmFail h g e q.1 fun ds =>
              let se := segEntryOf ds
              if se.kind ≠ 1 then q.2.raiseUniform who e kSEGMISS 0 seg
              else if se.bad then q.2.raiseUniform who e kSEGMISS 2 seg
              else
                q.2.mstartRelease h g e
                  { seg := seg, addr := se.addr, len := se.len, lo := q.2.sreg who w.b.toNat, hi := q.2.sreg who (w.b.toNat + 1) }

/-- Whether a stream's segment has landed. -/
def State.streamLanded (s : State) (k : Nat) (x : Stream) : Bool :=
  match AList.get none (s.cluster k).mslots x.slot with
  | some y => y.landed
  | none => false

/-- STREAM_START: the segment has landed and the first word may issue. -/
def execStreamStart (k i : Nat) (s : State) : Out :=
  event (match s.stream k i with
    | none => none
    | some x => if !x.started ∧ s.streamLanded k x then some (s.modStream k i fun y => { y with started := true }) else none) s

/-! ## Matrix words at issue (16 R304, R308-R310) -/

/-- Runs a matrix word of a stream under its guard. -/
def State.streamWord (c : BitVec 3) (s : State) (f : Nat → Nat → Stream → Entry → State → State) : Out :=
  match s.cur with
  | some ⟨.stream k i, e⟩ =>
    let s := { s with cur := none }
    match s.stream k i with
    | none => .next s
    | some x => .next (if s.cbit (.stream k i) c.toNat then f k i x e s else s.nextWord (.stream k i) e)
  | some ⟨.gang _ _, _⟩ => .fault .noIssuer
  | none => .fault .noIssuer

/-- Matrix words of a stream issued and not complete. -/
def Cluster.outstanding (c : Cluster) (i : Nat) : Nat := ((c.arrayQ ++ c.postQ).filter fun x => x.stream == i).length

/-- A fifth outstanding matrix word stalls (16 R304). -/
def State.matrixSlot (s : State) (k i : Nat) (e : Entry) (f : State → State) : State :=
  if 4 ≤ (s.cluster k).outstanding i then s.stayAt (.stream k i) e (.stall .matrixSlots) else f s

/-- A PERM of a matrix word (16 Table 16-2). -/
def State.matrixFault (s : State) (k i : Nat) (e : Entry) (cause addr : Nat) : State :=
  s.raiseUniform (.stream k i) e kPERM (256 + cause) addr

/-- Queues a word for the array or the post chain; the stream moves on. -/
def State.queueMatrix (s : State) (k i : Nat) (e : Entry) (post : Bool) (w : MatrixWord) : State :=
  let (id, s) := s.fresh
  let op : MatrixOp := { id := id, stream := i, pc := e.pc, word := w, offered := 0 }
  (s.modCluster k fun c => if post then { c with postQ := c.postQ ++ [op] } else { c with arrayQ := c.arrayQ ++ [op] }).nextWord (.stream k i) e

/-- A descriptor's bytes, or cause 21 (16 R308). -/
def State.descBytes (s : State) (h : Nat) (v : Word) (n : Nat) : Option (List Byte) :=
  let off := v.toNat % 2 ^ 28
  if v.toNat / 2 ^ 28 = 3 ∧ off % 16 = 0 ∧ 16 ≤ off ∧ off + n ≤ 2048 then some ((s.localRead h (.desc off) n).map Prod.fst) else none

/-- An operand descriptor; none where it is malformed (16 R309). -/
def opDescOf (bs : List Byte) : Option OpDesc :=
  let laddr := field bs 0 4
  let lstr := field bs 4 4
  let lines := field bs 8 2
  let kb := field bs 10 2
  let var := field bs 12 1
  if 4 ≤ var ∨ field bs 13 3 ≠ 0 ∨ lines = 0 ∨ 128 < lines ∨ kb = 0 ∨ 2048 < kb ∨ laddr % 4 ≠ 0 ∨ lstr % 4 ≠ 0 ∨ 3 ≤ laddr / 2 ^ 28 then none
  else some { laddr := laddr, lstr := lstr, lines := lines, kb := kb, var := var }

/-- Mantissa planes of an operand. -/
def OpDesc.n (d : OpDesc) : Nat := tebN d.var
/-- Address of block k of line r (16 R309). -/
def OpDesc.block (d : OpDesc) (r k : Nat) : Nat := (d.laddr + r * d.lstr + k * tebBytes d.n) % 2 ^ 32

/-- The local cause of a range that fails, if it does; space 3 counts as none of the spaces. -/
def State.localFail (s : State) (h addr n : Nat) (write : Bool) : Option (Nat × Nat) :=
  match s.localTarget h addr n write with
  | .bad c => some (c, addr)
  | .desc _ => some (1, addr)
  | .scratch _ _ => none

/-- Checks every block of an operand. -/
def State.checkOp (s : State) (h : Nat) (d : OpDesc) : Option (Nat × Nat) :=
  (List.range d.lines).findSome? fun r => (List.range d.kb).findSome? fun k => s.localFail h (d.block r k) (tebBytes d.n) false

/-- Takes a free physical tile for tile t of a stream, set to +0 (16 R307). -/
def State.bindTile (s : State) (k i t : Nat) : Option State :=
  ((List.range 8).find? fun p => (AList.get Tile.free (s.cluster k).tiles p).owner.isNone).map fun p =>
    (s.modCluster k fun c => { c with tiles := AList.set Tile.free c.tiles p { owner := some i, data := [], poison := [] } }).modStream k i fun x =>
      { x with tiles := AList.set none x.tiles t (some p) }

/-- The physical tile of a stream's tile. -/
def Stream.tile (x : Stream) (t : Nat) : Option Nat := AList.get none x.tiles t

/-- Binds a tile if it is unbound, or stalls. -/
def State.needTile (s : State) (k i : Nat) (x : Stream) (e : Entry) (t : Nat) (f : State → State) : State :=
  match x.tile t with
  | some _ => f s
  | none =>
    match s.bindTile k i t with
    | some s => f s
    | none => s.stayAt (.stream k i) e (.stall .tile)

/-- MMA (16 R311). -/
def execMma (w : URM) (s : State) : Out :=
  s.streamWord w.c fun k i x e s =>
    s.matrixSlot k i e fun s =>
      let v := x.sreg w.d.toNat
      let a := x.sreg w.a.toNat
      let b := x.sreg w.b.toNat
      let t := bits v.toNat 2 0
      let pa := bits v.toNat 7 4
      let pb := bits v.toNat 11 8
      if v.getLsbD 3 ∨ 4096 ≤ v.toNat then s.matrixFault k i e 20 v.toNat
      else
        match s.descBytes x.h a 16, s.descBytes x.h b 16 with
        | none, _ => s.matrixFault k i e 21 a.toNat
        | _, none => s.matrixFault k i e 21 b.toNat
        | some ba, some bb =>
          match opDescOf ba, opDescOf bb with
          | none, _ => s.matrixFault k i e 22 a.toNat
          | _, none => s.matrixFault k i e 22 b.toNat
          | some da, some db =>
            if da.kb ≠ db.kb then s.matrixFault k i e 23 a.toNat
            else if da.n < pa then s.matrixFault k i e 24 a.toNat
            else if db.n < pb then s.matrixFault k i e 24 b.toNat
            else
              match (s.checkOp x.h da).or (s.checkOp x.h db) with
              | some (c, ad) => s.matrixFault k i e c ad
              | none =>
                if w.m ∧ (x.tile t).isNone then s.matrixFault k i e 25 t
                else s.needTile k i x e t fun s => s.queueMatrix k i e false (.mma t pa pb w.m da db)

/-- MZERO (16 R313). -/
def execMzero (w : UAcc) (s : State) : Out :=
  s.streamWord w.c fun k i x e s =>
    s.matrixSlot k i e fun s => s.needTile k i x e w.acc.toNat fun s => s.queueMatrix k i e false (.mzero w.acc.toNat)

/-! ## MPOST (16 R314-R316) -/

def cmdBias (c : Word) : Bool := c.getLsbD 0
def cmdAct (c : Word) : Bool := c.getLsbD 1
def cmdRq (c : Word) : Bool := c.getLsbD 2
def cmdRoute (c : Word) : Bool := c.getLsbD 3
def cmdFmt (c : Word) : Nat := bits c.toNat 7 4
def cmdTbl (c : Word) : Nat := bits c.toNat 15 8

/-- A command word that raises cause 20. -/
def cmdBad (c : Word) : Bool :=
  let f := cmdFmt c
  decide (bits c.toNat 31 27 ≠ 0) || decide (f = 9 ∨ f = 14 ∨ f = 15) || decide (3 < cmdTbl c) ||
    (!cmdRq c && decide (bits c.toNat 26 16 ≠ 0)) || (cmdRoute c && (cmdRq c || f != 0)) || (decide (10 ≤ f) && decide (bits c.toNat 26 24 ≠ 0))

/-- A post descriptor; none where it is malformed. -/
def postDescOf (c : Word) (bs : List Byte) : Option PostDesc :=
  let d : PostDesc :=
    { dst := field bs 0 4, dstr := field bs 4 4, row0 := field bs 8 1, rows := field bs 10 2, cols := field bs 12 2, bias := field bs 16 4,
      ridx := field bs 20 4, racc := field bs 24 1, rgang := field bs 25 1 }
  let al := if 10 ≤ cmdFmt c then 4 else fmtBits (cmdFmt c) / 8
  if field bs 9 1 ≠ 0 ∨ field bs 14 2 ≠ 0 ∨ field bs 26 6 ≠ 0 ∨ 8 ≤ d.racc ∨ d.dstr % 4 ≠ 0 ∨ 127 < d.row0 ∨ d.rows = 0 ∨ 128 < d.row0 + d.rows ∨
      d.cols = 0 ∨ 128 < d.cols ∨ d.dst % al ≠ 0 ∨ 3 ≤ d.dst / 2 ^ 28 ∨ (cmdBias c ∧ d.bias % 4 ≠ 0) then none
  else some d

/-- Bytes of an output row (16 R315). -/
def rowBytes (c : Word) (d : PostDesc) : Nat := fmtBytes (cmdFmt c) d.cols

/-- Address of an output row. -/
def PostDesc.row (d : PostDesc) (r : Nat) : Nat := (d.dst + r * d.dstr) % 2 ^ 32

/-- Every local range that an MPOST touches: the first that fails. -/
def State.checkPost (s : State) (h : Nat) (c : Word) (d : PostDesc) : Option (Nat × Nat) :=
  (if cmdBias c then s.localFail h d.bias (4 * d.cols) false else none).or
    (if cmdRoute c then none else (List.range d.rows).findSome? fun r => s.localFail h (d.row r) (rowBytes c d) true)

/-- Whether a table is loaded, or its MACT is under way. -/
def State.tableLoaded (s : State) (k i : Nat) (x : Stream) (t : Nat) : Bool :=
  (AList.get none x.tables t).isSome || (s.cluster k).postQ.any fun o => o.stream == i && (match o.word with
    | .mact u _ => u == t
    | _ => false)

/-- Whether a routing target is valid: a gang's RANK accumulator with an FP32 key. -/
def State.routeOk (s : State) (h : Nat) (d : PostDesc) : Bool :=
  match s.task h with
  | none => false
  | some t => decide (d.rgang < t.gangCount) && (match (t.gang d.rgang).accum d.racc with
    | .rank r => !r.int32
    | _ => false)

/-- MPOST (16 R314). -/
def execMpost (w : UMpost) (s : State) : Out :=
  s.streamWord w.c fun k i x e s =>
    s.matrixSlot k i e fun s =>
      let c := x.sreg w.a.toNat
      let v := x.sreg w.b.toNat
      if cmdBad c then s.matrixFault k i e 20 c.toNat
      else
        match s.descBytes x.h v 32 with
        | none => s.matrixFault k i e 21 v.toNat
        | some bs =>
          match postDescOf c bs with
          | none => s.matrixFault k i e 22 v.toNat
          | some d =>
            match s.checkPost x.h c d with
            | some (cause, ad) => s.matrixFault k i e cause ad
            | none =>
              if (x.tile w.t.toNat).isNone then s.matrixFault k i e 25 w.t.toNat
              else if cmdAct c ∧ !s.tableLoaded k i x (cmdTbl c) then s.matrixFault k i e 26 (cmdTbl c)
              else if cmdRoute c ∧ !s.routeOk x.h d then s.matrixFault k i e 27 v.toNat
              else s.queueMatrix k i e true (.mpost w.t.toNat c d)

/-! ## MACT (16 R318-R320) -/

/-- An activation image; none where it is malformed. -/
def actTableOf (bs : List Byte) : Option ActTable :=
  let lo : Word := BitVec.ofNat 32 (field bs 4 4)
  let iw : Word := BitVec.ofNat 32 (field bs 8 4)
  let finite (w : Word) : Bool := match fmtF32.value w.toNat with
    | .fin _ _ _ => true
    | _ => false
  let positive : Bool := match fmtF32.value iw.toNat with
    | .fin n m _ => !n && m != 0
    | _ => false
  if field bs 0 4 = 1 ∧ field bs 12 4 = 0 ∧ finite lo ∧ positive then
    some { lo := lo, invw := iw, segs := (List.range 256).map fun t =>
      (BitVec.ofNat 32 (field bs (16 + 8 * t) 4), BitVec.ofNat 32 (field bs (20 + 8 * t) 4)) }
  else none

/-- MACT (16 R320). -/
def execMact (w : UAB) (s : State) : Out :=
  s.streamWord w.c fun k i x e s =>
    s.matrixSlot k i e fun s =>
      let who := Who.stream k i
      let tbl := x.sreg w.b.toNat
      let va := s.spair who w.a.toNat
      if 3 < tbl.toNat then s.matrixFault k i e 20 tbl.toNat
      else if va % 16 ≠ 0 then s.raiseUniform who e kALIGN 0 va
      else
        match s.unitRead (some k) (k / 8) (s.ctxOf x.h) va 2064 with
        | (.ok bs, s) =>
          if bs.any Prod.snd then s.raiseUniform who e kPOISON (poisonSource (s.checkWalk (s.ctxOf x.h) va 1 .read).1.pa) va
          else
            match actTableOf (bs.map Prod.fst) with
            | none => s.matrixFault k i e 28 va
            | some t => s.queueMatrix k i e true (.mact tbl.toNat t)
        | (.failed c va, s) => s.raiseUniChecked who e va c .read
        | (.poison va pa, s) => s.raiseUniform who e kPOISON (poisonSource pa) va
        | (.wait pa, s) => s.waitAt who e pa

/-! ## Ending streams (11 R266, 16 R306, R320) -/

/-- A stream's store passes to its gang. -/
def WriteOp.disown (o : Owner) (h g : Nat) (w : WriteOp) : WriteOp := if w.owner = o then { w with owner := .gang h g, counted := false } else w

/-- A stream's notice passes to its gang. -/
def Notice.disown (o : Owner) (h g : Nat) (n : Notice) : Notice := if n.owner = o then { n with owner := .gang h g, counts := false } else n

/-- What a stream left in flight passes to its gang; a load that has not landed is discarded (16 R306). -/
def State.disown (s : State) (k i h g : Nat) : State :=
  { s with writes := s.writes.map (WriteOp.disown (.stream k i) h g), notices := s.notices.map (Notice.disown (.stream k i) h g),
           loads := s.loads.filter fun x => x.owner != .stream k i }

/-- A control-core slot is used: it is the most recent (11 R266). -/
def Cluster.touchSlot (j tick : Nat) (c : Cluster) : Cluster :=
  { c with mslots := AList.modify none c.mslots j (Option.map fun y => { y with recency := tick }) }

/-- Fetches no longer wait for a stream slot. -/
def State.dropStreamWait (s : State) (k i : Nat) : State :=
  { s with fetches := s.fetches.map fun f => if f.matrix && f.unit == k then { f with who := f.who.filter fun w => w != .stream i } else f }

/-- A stream ends: its slot and tiles are free, and no fetch waits for it; stores and notices it left in flight belong to its gang, uncounted; the slot of its segment
has been used until now. -/
def State.endStream (s : State) (k i : Nat) : State :=
  match s.stream k i with
  | none => s
  | some x =>
    let s := (s.disown k i x.h x.g).dropStreamWait k i
    s.modCluster k fun c =>
      { c.touchSlot x.slot s.tick with
               streams := AList.set none c.streams i none,
               tiles := AList.mapVals Tile.free (fun t => if t.owner = some i then Tile.free else t) c.tiles,
               arrayQ := c.arrayQ.filter fun o => o.stream != i, postQ := c.postQ.filter fun o => o.stream != i }

/-- MEND (16 R320). -/
def execMend (w : UC) (s : State) : Out :=
  s.streamWord w.c fun k i _ e s => s.drained (.stream k i) e fun s => s.endStream k i

/-! ## The array (16 R311, R313) -/

/-- Whether an earlier word of the same stream in another queue still uses a tile (16 R321). -/
def tileBusy (q : List MatrixOp) (o : MatrixOp) (t : Nat) : Bool :=
  q.any fun p => p.stream == o.stream && decide (p.id < o.id) && (match p.word with
    | .mma u _ _ _ _ _ => u == t
    | .mzero u => u == t
    | .mpost u _ _ => u == t
    | .mact _ _ => false)

/-- Whether the head of a queue may run. -/
def Cluster.ready (c : Cluster) (post : Bool) (o : MatrixOp) : Bool :=
  match o.word with
  | .mact _ _ => true
  | .mma t _ _ _ _ _ => !tileBusy c.postQ o t
  | .mzero t => !tileBusy c.postQ o t
  | .mpost t _ _ => post && !tileBusy c.arrayQ o t

/-- A block of an operand: its elements, and whether one of its first `p` words, those that are read, is poisoned. -/
def State.readBlock (s : State) (h : Nat) (d : OpDesc) (p r k : Nat) : TebBlock × Bool :=
  let bs := s.localRead h (s.localTarget h (d.block r k) (tebBytes d.n) false) (tebBytes d.n)
  (TebBlock.ofWords d.n ((List.range (3 + d.n)).map fun j => field (bs.map Prod.fst) (4 * j) 4), (bs.take (4 * p)).any Prod.snd)

/-- The blocks of a line. -/
def State.readBlocks (s : State) (h : Nat) (d : OpDesc) (p r : Nat) : List (TebBlock × Bool) :=
  (List.range d.kb).map fun k => s.readBlock h d p r k

/-- Changes a physical tile. -/
def State.modTile (s : State) (k p : Nat) (f : Tile → Tile) : State :=
  s.modCluster k fun c => { c with tiles := AList.modify Tile.free c.tiles p f }

/-- One element of an MMA (04 R75). -/
def mmaElement (na pa nb pb : Nat) (c : Word) (as_ bs : List (TebBlock × Bool)) : Word :=
  (as_.zip bs).foldl (fun c p => mmaStep na pa nb pb c p.1.1 p.2.1) c

/-- The tile after an MMA. -/
def Tile.mma (t : Tile) (na pa nb pb : Nat) (acc : Bool) (rows cols : List (List (TebBlock × Bool))) : Tile :=
  (List.range rows.length).foldl (fun t i => (List.range cols.length).foldl (fun t j =>
    let a := rows.getD i []
    let b := cols.getD j []
    let x := 128 * i + j
    let bad := (acc && AList.get false t.poison x) || a.any Prod.snd || b.any Prod.snd
    { t with data := AList.set 0 t.data x (mmaElement na pa nb pb (if acc then AList.get 0 t.data x else 0) a b),
             poison := AList.set false t.poison x bad }) t) t

/-- A fault of a matrix word in execution, at no word's issue. -/
def State.matrixLate (s : State) (x : Stream) (pc : Word) (cause addr : Nat) : State :=
  s.raiseLater x.h x.g { kind := kPERM, flags := 6, pc := pc, mask := 0, detail := 256 + cause, addr := addr, commit := 0, spec := 0 }

/-- The blocks of a line of which nothing is read, as an MMA with pb = 0 takes B's: every element is a zero (16 R312, log 65). -/
def OpDesc.unreadLine (d : OpDesc) : List (TebBlock × Bool) := List.replicate d.kb (TebBlock.ofWords d.n [], false)

/-- The array's work for one word; an MMA that declares no B plane reads none (16 R312). -/
def State.runArray (s : State) (k : Nat) (x : Stream) (o : MatrixOp) : State :=
  match o.word with
  | .mma t pa pb acc da db =>
    match (s.checkOp x.h da).or (s.checkOp x.h db), x.tile t with
    | some (c, ad), _ => s.matrixLate x o.pc c ad
    | none, some p =>
      let rows := (List.range da.lines).map fun r => s.readBlocks x.h da (3 + pa) r
      let cols := (List.range db.lines).map fun r => if pb = 0 then db.unreadLine else s.readBlocks x.h db (3 + pb) r
      s.modTile k p fun z => z.mma da.n pa db.n pb acc rows cols
    | none, none => s
  | .mzero t =>
    match x.tile t with
    | some p => s.modTile k p fun z => { z with data := [], poison := [] }
    | none => s
  | _ => s

/-! ## The post chain (16 R316, R319) -/

/-- pwl (16 R319). -/
def ActTable.apply (t : ActTable) (x : Word) : Word :=
  let seg : Option Nat :=
    match fmtF32.value x.toNat, fmtF32.value t.lo.toNat, fmtF32.value t.invw.toNat with
    | .nan _, _, _ => none
    | .inf n, _, _ => some (if n then 0 else 255)
    | .fin n1 m1 e1, .fin n2 m2 e2, .fin _ m3 e3 =>
      let d := dyAdd (signed n1 m1) e1 (-(signed n2 m2)) e2
      some (satInt (roundInt .rdn (decide (d.1 < 0)) (d.1.natAbs * m3) (d.2 + e3)).1 0 255).toNat
    | _, _, _ => some 0
  match seg with
  | none => 0x7FC00000
  | some i =>
    let p := t.segs.getD i (0, 0)
    if p.1.toNat % 2 ^ 31 = 0 then p.2 else (f32Fma p.1 x p.2).1

/-- Multiplies by a power of two, rounding once. -/
def scale32 (x : Word) (n : Int) : Word :=
  match fmtF32.value x.toNat with
  | .fin a m e => BitVec.ofNat 32 (fmtF32.round .rne a m (e + n)).bits
  | .inf a => BitVec.ofNat 32 (fmtF32.withSign a 0x7F800000)
  | .nan _ => 0x7FC00000

/-- The conversion of an output format (04 R76 code). -/
def postConvert (c : Word) (x : Word) : Nat :=
  let pair := match cmdFmt c with
    | 1 => 4
    | 2 => 6
    | 3 => 8
    | 4 => 10
    | 5 => 12
    | 6 => 13
    | 7 => 0
    | _ => 1
  if cmdFmt c = 0 then (if isNan32 x then 0x7FC00000 else x.toNat)
  else (cvt (BitVec.ofNat 8 (pair * 16 + bits c.toNat 25 24 * 4 + bits c.toNat 26 26 * 2)) x).1.toNat

/-- The tile element and bias of (i, j) through bias and activation: the value and its poison. -/
def State.postElement (s : State) (k : Nat) (x : Stream) (t : Nat) (c : Word) (d : PostDesc) (i j : Nat) : Word × Bool :=
  let z := match x.tile t with
    | some p => AList.get Tile.free (s.cluster k).tiles p
    | none => Tile.free
  let v := AList.get 0 z.data (128 * i + j)
  let b := s.localRead x.h (s.localTarget x.h ((d.bias + 4 * j) % 2 ^ 32) 4 false) 4
  let v := if cmdBias c then (f32Add v (BitVec.ofNat 32 (leNat (b.map Prod.fst)))).1 else v
  let v := if cmdAct c then
      (match AList.get none x.tables (cmdTbl c) with
        | some a => a.apply v
        | none => v)
    else v
  (v, AList.get false z.poison (128 * i + j) || (cmdBias c && b.any Prod.snd))

/-- Writes one output row. -/
def State.postRow (s : State) (k : Nat) (x : Stream) (t : Nat) (c : Word) (d : PostDesc) (r : Nat) : State :=
  let ex := (BitVec.ofNat 8 (bits c.toNat 23 16)).toInt
  let el (j : Nat) : Word × Bool :=
    let p := s.postElement k x t c d (d.row0 + r) j
    (if cmdRq c then scale32 p.1 ex else p.1, p.2)
  let put (s : State) (off : Nat) (bs : List Byte) (bad : Bool) : State :=
    let a := (d.row r + off) % 2 ^ 32
    s.localWriteP x.h (s.localTarget x.h a bs.length true) bs bad
  if 10 ≤ cmdFmt c then
    let n := tebN (cmdFmt c - 10)
    (List.range ((d.cols + 31) / 32)).foldl (fun s b =>
      let ps := (List.range 32).map fun q => if 32 * b + q < d.cols then el (32 * b + q) else (0, false)
      put s (b * tebBytes n) (((tebQuantise n (ps.map fun p => fmtF32.value p.1.toNat)).1.words n).flatMap fun w => leBytes 4 w) (ps.any Prod.snd)) s
  else
    let n := fmtBits (cmdFmt c) / 8
    (List.range d.cols).foldl (fun s j => let p := el j; put s (n * j) (leBytes n (postConvert c p.1)) p.2) s

/-- A routed offer enters its list as an RKPUSH candidate would (16 R316, 17 R339). -/
def Gang.routed (gg : Gang) (n : Nat) (p : Word × Word) (bad : Bool) : Gang :=
  match gg.accum n with
  | .rank r =>
    if r.int32 then gg
    else
      let gg := gg.setAcc n (.rank (if r.nan p.1 then r.addNans 1 else r.insert p))
      if bad then { gg with accPoison := AList.set false gg.accPoison n true } else gg
  | _ => gg

/-- ROUTED_OFFER: the next offer of the MPOST in a cluster's post chain. -/
def State.routedOffer (s : State) (k : Nat) : Option State :=
  match (s.cluster k).postQ with
  | [] => none
  | o :: rest =>
    match o.word, s.stream k o.stream with
    | .mpost t c d, some x =>
      if cmdRoute c ∧ (s.cluster k).ready true o ∧ o.offered < d.rows * d.cols then
        let p := s.postElement k x t c d (d.row0 + o.offered / d.cols) (o.offered % d.cols)
        let s := s.modCluster k fun z => { z with postQ := { o with offered := o.offered + 1 } :: rest }
        some (s.modGang x.h d.rgang fun gg => gg.routed d.racc (p.1, BitVec.ofNat 32 (d.ridx + o.offered % d.cols)) p.2)
      else none
    | _, _ => none

/-- ROUTED_OFFER. -/
def execRoutedOffer (k : Nat) (s : State) : Out := event (s.routedOffer k) s

/-- The post chain's work for one word. -/
def State.runPost (s : State) (k : Nat) (x : Stream) (o : MatrixOp) : State :=
  match o.word with
  | .mpost t c d =>
    match s.checkPost x.h c d with
    | some (cause, ad) => s.matrixLate x o.pc cause ad
    | none => if cmdRoute c then s else (List.range d.rows).foldl (fun s r => s.postRow k x t c d r) s
  | .mact tbl a => s.modStream k o.stream fun y => { y with tables := AList.set none y.tables tbl (some a) }
  | _ => s

/-! ## Words that a stop discards (16 R306) -/

/-- Whether every entry of a task is exited. -/
def Task.allExited (t : Task) : Bool := t.gangs.all fun q => q.2.frontier.all fun e => e.st == .exited

/-- Whether every thread of a task has exited, or it is to end. -/
def Task.finished (t : Task) : Bool := t.fate != .alive || (t.started && t.allExited)

/-- The streams of a cluster whose tasks are over. -/
def State.stoppedStreams (s : State) (k : Nat) : List (Nat × Stream) :=
  (s.cluster k).streams.filterMap fun p =>
    match p.2 with
    | some x => if (s.task x.h).any Task.finished then some (p.1, x) else none
    | none => none

/-- The words of a queue that stay when streams stop: others' and the one in execution. -/
def keepRunning (c : Cluster) (post : Bool) (stop : List Nat) (q : List MatrixOp) : List MatrixOp :=
  match q with
  | [] => []
  | o :: rest => (if stop.contains o.stream && !c.ready post o then [] else [o]) ++ rest.filter fun p => !stop.contains p.stream

/-- Discards the issued words, not in execution, of the streams whose tasks are over. -/
def State.discardStopped (s : State) (k : Nat) : State :=
  let stop := (s.stoppedStreams k).map Prod.fst
  s.modCluster k fun c => { c with arrayQ := keepRunning c false stop c.arrayQ, postQ := keepRunning c true stop c.postQ }

/-! ## The completion of words (16 R304) -/

/-- MATRIX_WORD_COMPLETE: the word at the head of the array, or of the post chain, does its work and leaves. -/
def State.matrixComplete (s : State) (k : Nat) (post : Bool) : Option State :=
  match (if post then (s.cluster k).postQ else (s.cluster k).arrayQ) with
  | [] => none
  | o :: _ =>
    match s.stream k o.stream with
    | none => none
    | some x =>
      let offers := match o.word with
        | .mpost _ c d => if cmdRoute c then d.rows * d.cols else 0
        | _ => 0
      if (s.cluster k).ready post o ∧ o.offered = offers then
        let s := if post then s.runPost k x o else s.runArray k x o
        some (s.modCluster k fun c => if post then { c with postQ := c.postQ.drop 1 } else { c with arrayQ := c.arrayQ.drop 1 })
      else none

/-- MATRIX_WORD_COMPLETE: of streams whose tasks are over, only words in execution are left to complete. -/
def execMatrixWordComplete (k : Nat) (post : Bool) (s : State) : Out := event ((s.discardStopped k).matrixComplete k post) s

/-! ## STREAM_STOP (16 R306) -/

/-- STREAM_STOP: issued words not in execution are discarded; streams with none left end. -/
def State.streamStop (s : State) (h : Nat) : Option State :=
  let k := hCluster h
  let stop := (s.stoppedStreams k).filter fun p => p.2.h == h
  if stop = [] then none
  else some (stop.foldl (fun s p => if (s.cluster k).outstanding p.1 = 0 then s.endStream k p.1 else s) (s.discardStopped k))

/-- STREAM_STOP. -/
def execStreamStop (h : Nat) (s : State) : Out := event (s.streamStop h) s

end Sys2Proof.Machine
end

