-- ==== Sys2Proof/Machine/Experts.lean ====
section
/-!
DEFINITION. Experts: the placement engine's windows, evaluation and generations, ECNT, RTLOOK, RTPIN, RTUNPIN and gradient
merges (19 R342-R354).
-/
namespace Sys2Proof.Machine

open Sys2Proof

/-! ## Context slots and the replica table (19 R342, R347) -/

/-- Context slot j of the engine. -/
def Engine.slot (x : Engine) (j : Nat) : PlaceSlot := AList.get PlaceSlot.reset x.slots j
def State.modSlot (s : State) (j : Nat) (f : PlaceSlot → PlaceSlot) : State :=
  { s with engine := { s.engine with slots := AList.modify PlaceSlot.reset s.engine.slots j f } }

/-- The enabled slot of a context. -/
def State.placeSlot (s : State) (ctx : Nat) : Option Nat :=
  (List.range 16).find? fun j => (s.engine.slot j).cen && (s.engine.slot j).ctx == ctx

/-- Table slot i. -/
def freeGen : GenSlot := { st := .free, gen := 0, refs := 0 }
def PlaceSlot.genAt (x : PlaceSlot) (i : Nat) : GenSlot := AList.get freeGen x.gens i
def PlaceSlot.setGen (x : PlaceSlot) (i : Nat) (g : GenSlot) : PlaceSlot := { x with gens := AList.set freeGen x.gens i g }
def GenSlot.live (g : GenSlot) : Bool := g.st != .free
def GenSlot.published (g : GenSlot) : Bool := g.st == .current || g.st == .draining

/-- The table slots that are live. -/
def PlaceSlot.liveSlots (x : PlaceSlot) : List Nat := (List.range 3).filter fun i => (x.genAt i).live

/-- The published table slot that holds a generation. -/
def PlaceSlot.slotOfGen (x : PlaceSlot) (g : Nat) : Option Nat :=
  (List.range 3).find? fun i => (x.genAt i).published && (x.genAt i).gen == g

/-- The table slot of a live generation, a building one too (19 R348, R354). -/
def PlaceSlot.liveSlotOf (x : PlaceSlot) (g : Nat) : Option Nat := (List.range 3).find? fun i => (x.genAt i).live && (x.genAt i).gen == g

/-- Physical address of copy record c of expert e in a table slot. -/
def PlaceSlot.recAt (x : PlaceSlot) (i e c : Nat) : Nat := x.tbl + 0x1000 + 0x40000 * i + 64 * e + 16 * c

/-- Physical address of the counter cell of expert e on a die (19 R343). -/
def PlaceSlot.cell (x : PlaceSlot) (die e : Nat) : Nat := (4 + die) * 2 ^ 47 + x.cntoff + 8 * e

/-- Whether the copy records of an expert lie where memory is (01 R12). -/
def PlaceSlot.recsIn (x : PlaceSlot) (i e : Nat) : Bool := inHome (x.recAt i e 0) 64

/-- A number held at a home. -/
def State.homeNat (s : State) (pa n : Nat) : Nat := leNat ((s.physRead pa n).map Prod.fst)

/-- A copy record (19 Table 19-3). -/
structure CopyRec where
  base : Nat
  home : Nat
  flags : Nat
  wlen : Nat
  deriving DecidableEq, Repr

def CopyRec.valid (r : CopyRec) : Bool := r.flags.testBit 0
def CopyRec.withdrawn (r : CopyRec) : Bool := r.flags.testBit 1

/-- Reads a copy record. -/
def State.copyRec (s : State) (x : PlaceSlot) (i e c : Nat) : CopyRec :=
  let a := x.recAt i e c
  { base := s.homeNat a 8, home := s.homeNat (a + 8) 1, flags := s.homeNat (a + 9) 1, wlen := s.homeNat (a + 12) 4 }

/-- The bytes of a copy record. -/
def CopyRec.bytes (r : CopyRec) : List Byte := leBytes 8 r.base ++ leBytes 1 r.home ++ leBytes 1 r.flags ++ leBytes 2 0 ++ leBytes 4 r.wlen

/-- The valid copies of an expert in a table slot, in copy order. -/
def State.copiesOf (s : State) (x : PlaceSlot) (i e : Nat) : List (Nat × CopyRec) :=
  ((List.range 4).map fun c => (c, s.copyRec x i e c)).filter fun p => p.2.valid

/-- PUB (19 Table 19-2). -/
def PlaceSlot.pub (x : PlaceSlot) : Nat := x.gen + x.slot * 2 ^ 16 + x.epoch * 2 ^ 32

/-- Writes PUB by one 64-bit store. -/
def State.writePub (s : State) (j : Nat) : State :=
  let x := s.engine.slot j
  s.physWrite x.tbl (leBytes 8 x.pub)

/-- Whether the homes that hold a slot's replica table and counter cells can be accessed (23 R397). -/
def State.slotAwake (s : State) (j : Nat) : Bool :=
  let x := s.engine.slot j
  !x.cen || (s.awake x.tbl && s.awake (x.cell 0 0))

/-- Whether those of every slot can. -/
def State.engineAwake (s : State) : Bool := (List.range 16).all s.slotAwake

/-! ## Pool blocks and references (19 R348, R349) -/

/-- Virtual address at which a pool block appears. -/
def PlaceSlot.blockVa (x : PlaceSlot) (b : PoolBlock) : Nat := x.rva + b.die * 2 ^ 36 + b.off

/-- Whether a live slot holds a replica. -/
def State.blockHeld (s : State) (x : PlaceSlot) (b : PoolBlock) : Bool :=
  x.liveSlots.any fun i =>
    let r := s.copyRec x i b.expert b.copy
    r.valid && r.base == x.blockVa b

/-- Frees the replicas that no live slot holds. -/
def State.reclaim (s : State) (j : Nat) : State :=
  s.modSlot j fun x => { x with pool := x.pool.filter fun b => s.blockHeld x b }

/-- Drops one reference on a table slot: a draining one without references becomes free. -/
def State.unref (s : State) (j i : Nat) : State :=
  let g := (s.engine.slot j).genAt i
  let n := g.refs - 1
  if g.st = .draining ∧ n = 0 then (s.modSlot j fun x => x.setGen i freeGen).reclaim j
  else s.modSlot j fun x => x.setGen i { g with refs := n }

/-- Drops a pin on a generation of a context. -/
def State.unpin (s : State) (ctx gen : Nat) : State :=
  match s.placeSlot ctx with
  | none => s
  | some j =>
    match (s.engine.slot j).slotOfGen gen with
    | none => s
    | some i => s.unref j i

/-! ## Windows (19 R343-R345) -/

/-- WINDOW_CLOSE: the engine sends a close to every die. -/
def execWindowClose (s : State) : Out :=
  event (if s.engine.en then
    some ((List.range 4).foldl (fun s d => s.modDie d fun x => { x with closing := x.closing + 1 })
      { s with engine := { s.engine with closesSent := s.engine.closesSent + 1 } })
  else none) s

/-- LAST := CUR; CUR := 0 for one cell. -/
def State.closeCell (s : State) (pa : Nat) : State := s.physWrite pa (leBytes 4 0 ++ ((s.physRead pa 4).map Prod.fst))

/-- WINDOW_CLOSE_RECEIVED: every cell of every enabled context of a die, then its sequence number. -/
def execWindowCloseReceived (die : Nat) (s : State) : Out :=
  event (if (s.die die).closing = 0 ∨ !s.engineAwake then none
  else
    let s := (List.range 16).foldl (fun s j =>
      let x := s.engine.slot j
      if x.cen then (List.range x.nexp).foldl (fun s e => s.closeCell (x.cell die e)) s else s) s
    some (s.modDie die fun d => { d with winSeq := d.winSeq + 1, closing := d.closing - 1 })) s

/-- LAST of an expert, over the four dies. -/
def State.lastSum (s : State) (x : PlaceSlot) (e : Nat) : Nat := (List.range 4).foldl (fun n d => n + s.homeNat (x.cell d e + 4) 4) 0

/-- First fit at 4 KiB grain in a die's pool. -/
def State.fitPool (s : State) (die len : Nat) : Option Nat :=
  let size := AList.get 0 s.engine.psize die
  let used := (List.range 16).flatMap fun j => (s.engine.slot j).pool.filter fun b => b.die == die
  let ends := (0 :: used.map fun b => b.off + (b.len + 4095) / 4096 * 4096).mergeSort fun a b => decide (a ≤ b)
  ends.find? fun o => decide (o + len ≤ size) && used.all fun b => !meets o len b.off b.len

/-- The die that gains a copy of a hot expert. -/
def State.hotDie (s : State) (copies : List (Nat × CopyRec)) : Option Nat :=
  ((List.range 4).filter fun d => (s.die d).online && decide ((s.die d).depth < s.engine.idle) &&
      copies.all fun p => ownerDie p.2.home != d).foldl (fun b d => match b with
    | none => some d
    | some x => if (s.die d).depth < (s.die x).depth then some d else b) none

/-- What one expert's evaluation decides: a new replica, whether its replicas retire, its cold run. -/
structure Verdict where
  add : Option PoolBlock
  retire : Bool
  run : Nat
  failed : Bool
  deriving DecidableEq, Repr

/-- Copies kept by the next generation, before retirement: a withdrawn one is not. -/
def State.keptCopies (s : State) (x : PlaceSlot) (e : Nat) : List (Nat × CopyRec) :=
  (s.copiesOf x x.slot e).filter fun p => !p.2.withdrawn

/-- Evaluates one expert of a context whose total is `total` (19 R345). -/
def State.evalExpert (s : State) (j total e : Nat) : Verdict :=
  let x := s.engine.slot j
  let last := s.lastSum x e
  let kept := s.keptCopies x e
  let w := if s.engine.w = 0 then 1 else s.engine.w
  let run := if last * 65536 < s.engine.cold * total then AList.get 0 x.cold e + 1 else 0
  let hot := decide (s.engine.hot * total < last * 65536) && decide (kept.length < 4)
  let wlen := (s.copyRec x x.slot e 0).wlen
  let free := (List.range 4).find? fun c => kept.all fun p => p.1 != c
  match (if hot then s.hotDie kept else none), free with
  | some d, some c =>
    match s.fitPool d wlen with
    | some o => { add := some { expert := e, copy := c, die := d, off := o, len := wlen }, retire := decide (w ≤ run), run := if w ≤ run then 0 else run, failed := false }
    | none => { add := none, retire := decide (w ≤ run), run := if w ≤ run then 0 else run, failed := true }
  | _, _ => { add := none, retire := decide (w ≤ run), run := if w ≤ run then 0 else run, failed := false }

/-- Writes one expert's entry of a new generation; an invalid record is zero. -/
def State.writeEntry (s : State) (j i e : Nat) (v : Verdict) : State :=
  let x := s.engine.slot j
  let kept := (s.keptCopies x e).filter fun p => p.1 == 0 || !v.retire
  let rec_ (c : Nat) : List Byte :=
    match kept.find? fun p => p.1 == c with
    | some p => p.2.bytes
    | none =>
      match v.add with
      | some b => if b.copy = c then CopyRec.bytes { base := x.blockVa b, home := b.die, flags := 1, wlen := 0 } else leBytes 16 0
      | none => leBytes 16 0
  (List.range 4).foldl (fun s c => s.physWrite (x.recAt i e c) (rec_ c)) s

/-- Whether an expert's replicas go with its verdict. -/
def State.retires (s : State) (j e : Nat) (v : Verdict) : Bool := v.retire && decide (1 < (s.copiesOf (s.engine.slot j) (s.engine.slot j).slot e).length)

/-- Evaluates one context (19 R345). -/
def State.evalSlot (s : State) (j : Nat) : State :=
  let x := s.engine.slot j
  let total := (List.range x.nexp).foldl (fun n e => n + s.lastSum x e) 0
  let building := (List.range 3).any fun i => (x.genAt i).st == .building
  match (List.range 3).find? fun i => !(x.genAt i).live with
  | none => s
  | some i =>
    if !x.cen ∨ total = 0 ∨ s.engine.freeze ∨ building then s
    else
      let r : List (Nat × Verdict) × State := (List.range x.nexp).foldl (fun (r : List (Nat × Verdict) × State) e =>
        let v := r.2.evalExpert j total e
        let s := match v.add with
          | some b => r.2.modSlot j fun x => { x with pool := x.pool ++ [b] }
          | none => r.2
        (r.1 ++ [(e, v)], s)) ([], s)
      let s := { r.2 with engine := { r.2.engine with cpyfail := (r.2.engine.cpyfail + (r.1.filter fun (p : Nat × Verdict) => p.2.failed).length) % 2 ^ 32 } }
      let s := s.modSlot j fun x => { x with cold := r.1.foldl (fun m (p : Nat × Verdict) => AList.set 0 m p.1 p.2.run) x.cold }
      if r.1.all fun p => p.2.add.isNone && !s.retires j p.1 p.2 then s
      else
        let s := r.1.foldl (fun s p => s.writeEntry j i p.1 p.2) s
        s.modSlot j fun x =>
          { x.setGen i { st := .building, gen := (x.gen + 1) % 65536, refs := 0 } with
            adds := r.1.filterMap fun p => p.2.add }

/-- PLACEMENT_EVALUATION: once the closes of a window have reached every die. -/
def execPlacementEvaluation (s : State) : Out :=
  event (if s.engine.en ∧ s.engineAwake ∧ (List.range 4).all fun d => decide (s.engine.evaluated + (s.die d).closing < s.engine.closesSent) then
    some ((List.range 16).foldl State.evalSlot { s with engine := { s.engine with evaluated := s.engine.evaluated + 1 } })
  else none) s

/-! ## Generations (19 Table 19-4, R352) -/

/-- Copies one new replica's weights from the primary; none while they cannot be read. -/
def State.copyWeights (s : State) (j i : Nat) (b : PoolBlock) : Option State :=
  let x := s.engine.slot j
  let r := s.copyRec x i b.expert 0
  match s.homeBytesVa x.ctx r.base r.wlen with
  | (.ok bs, s) => if s.awake (b.die * 2 ^ 47) then some (s.physWrite (b.die * 2 ^ 47 + AList.get 0 s.engine.pbase b.die + b.off) bs) else none
  | _ => none

/-- GENERATION_PUBLISH: every copy that the building generation adds is made and verified; PUB moves to the new generation. -/
def State.publish (s : State) (j : Nat) : Option State :=
  let x := s.engine.slot j
  if !s.slotAwake j then none
  else
  match (List.range 3).find? fun i => (x.genAt i).st == .building with
  | none => none
  | some i =>
    (x.adds.foldl (fun (o : Option State) b => match o with
      | none => none
      | some s => s.copyWeights j i b) (some s)).map fun s =>
        let old := x.slot
        let s := s.modSlot j fun x =>
          { (x.setGen i { x.genAt i with st := .current, refs := 1 }).setGen old { x.genAt old with st := .draining } with
            gen := (x.genAt i).gen, slot := i, adds := [] }
        (s.writePub j).unref j old

/-- GENERATION_PUBLISH. -/
def execGenerationPublish (j : Nat) (s : State) : Out := event (s.publish j) s

/-- GENERATION_COPY_FAIL: a copy of the building generation fails, and the generation is given up; one that makes no copy cannot fail. -/
def State.copyFail (s : State) (j : Nat) : Option State :=
  let x := s.engine.slot j
  match (List.range 3).find? fun i => (x.genAt i).st == .building with
  | none => none
  | some i =>
    if x.adds = [] ∨ !s.slotAwake j then none
    else
      let s := (s.modSlot j fun x => { x.setGen i freeGen with adds := [] }).reclaim j
      some { s with engine := { s.engine with cpyfail := (s.engine.cpyfail + 1) % 2 ^ 32 } }

/-- GENERATION_COPY_FAIL. -/
def execGenerationCopyFail (j : Nat) (s : State) : Out := event (s.copyFail j) s

/-- Whether a replica's bytes hold an uncorrectable error. -/
def State.blockPoisoned (s : State) (b : PoolBlock) : Bool :=
  let lo := b.die * 2 ^ 47 + AList.get 0 s.engine.pbase b.die + b.off
  s.memPoison.any fun p => decide (lo ≤ 4 * p.1) && decide (4 * p.1 < lo + b.len)

/-- Whether a copy record holds a replica to withdraw: its die is offline, or its weights hold an error (19 R352). -/
def State.sick (s : State) (x : PlaceSlot) (r : CopyRec) : Bool :=
  r.valid && !r.withdrawn &&
    (!(s.die (ownerDie r.home)).online || x.pool.any fun b => x.blockVa b == r.base && s.blockPoisoned b)

/-- REPLICA_WITHDRAW: a replica of a die that is offline, or whose weights hold an error (19 R352). -/
def State.withdraw (s : State) (j e c : Nat) : Option State :=
  let x := s.engine.slot j
  if c = 0 ∨ 4 ≤ c ∨ !x.cen ∨ x.nexp ≤ e ∨ !s.slotAwake j then none
  else
    match x.liveSlots.find? fun i => s.sick x (s.copyRec x i e c) with
    | none => none
    | some i =>
        let r := s.copyRec x i e c
        let s := x.liveSlots.foldl (fun s i =>
          let q := s.copyRec x i e c
          if q.valid ∧ q.base = r.base then s.physWrite (x.recAt i e c + 9) (leBytes 1 (q.flags ||| 2)) else s) s
        let s := (s.modSlot j fun x => { x with epoch := (x.epoch + 1) % 65536 }).writePub j
        some { s with engine := { s.engine with wdraw := (s.engine.wdraw + 1) % 2 ^ 32 } }

/-- REPLICA_WITHDRAW. -/
def execReplicaWithdraw (slot e c : Nat) (s : State) : Out := event (s.withdraw slot e c) s

/-- CPYFAIL_READ: the read clears. -/
def execCpyfailRead (s : State) : Out :=
  .next { s with readData := BitVec.ofNat 64 s.engine.cpyfail, engine := { s.engine with cpyfail := 0 } }

/-- WDRAW_READ: the read clears. -/
def execWdrawRead (s : State) : Out :=
  .next { s with readData := BitVec.ofNat 64 s.engine.wdraw, engine := { s.engine with wdraw := 0 } }

/-! ## ECNT, RTLOOK, RTPIN, RTUNPIN (19 R346, R350, R351) -/

/-- A word that only a context with an enabled slot may issue (cause 40). An RTPIN that has its pin comes back here while its acquire
waits for loads. -/
def expertWord (c : BitVec 3) (s : State) (k : Nat → Nat → Entry → State → State) : Out :=
  s.uniformGang c fun h g e s =>
    match e.st with
    | .stall (.acquire sc _) => s.acquireReturn h g e sc
    | _ => if (s.placeSlot (s.ctxOf h)).isNone then s.raiseUniform (.gang h g) e kPERM 40 0 else k h g e s

/-- Sends an expert command; its entry stalls until the reply, but for RTUNPIN's. -/
def State.sendExpert (s : State) (h g : Nat) (e : Entry) (op : ExpertOp) (d : Nat) (stalls : Bool) : State :=
  let (id, s) := s.fresh
  let x : ExpertCmd :=
    { id := id, owner := .gang h g, lane := lowestLane e.mask, pc := e.pc, mask := e.mask, op := op, d := d, ctx := s.ctxOf h,
      die := hDie h, reply := none }
  let s := { s with experts := s.experts ++ [x] }
  if stalls then s.putEntry h g { e with st := .stall (.reply id) } else s.advance h g e e.mask

/-- ECNT (19 R346). -/
def execEcnt (w : UDA) (s : State) : Out :=
  expertWord w.c s fun h g e s =>
    let v := (s.sreg (.gang h g) w.a.toNat).toNat
    if bits v 31 13 ≠ 0 then s.raiseUniform (.gang h g) e kPERM 42 0
    else s.gate (.gang h g) e fun s => s.sendExpert h g e (.ecnt (bits v 11 0) (v.testBit 12)) w.d.toNat true

/-- RTLOOK (19 R351). -/
def execRtlook (w : UR) (s : State) : Out :=
  expertWord w.c s fun h g e s =>
    let x := (s.sreg (.gang h g) w.a.toNat).toNat
    let y := (s.sreg (.gang h g) w.b.toNat).toNat
    if bits x 15 12 ≠ 0 ∨ bits y 31 16 ≠ 0 then s.raiseUniform (.gang h g) e kPERM 42 0
    else s.gate (.gang h g) e fun s => s.sendExpert h g e (.look (bits x 11 0) (bits x 31 16) (bits y 15 0)) w.d.toNat true

/-- The pins of a task, with those on their way. -/
def State.pinCount (s : State) (h : Nat) : Nat :=
  (match s.task h with
    | none => 0
    | some t => t.pins.length) +
  (s.experts.filter fun x => x.op == .pin && x.reply.isNone && (s.ownerGang x.owner).1 == h).length

/-- RTPIN (19 R350). -/
def execRtpin (w : UD) (s : State) : Out :=
  expertWord w.c s fun h g e s =>
    if 8 ≤ s.pinCount h then s.raiseUniform (.gang h g) e kPERM 43 0
    else s.gate (.gang h g) e fun s => s.sendExpert h g e .pin w.d.toNat true

/-- RTUNPIN (19 R350). -/
def execRtunpin (w : UA) (s : State) : Out :=
  expertWord w.c s fun h g e s =>
    let who := Who.gang h g
    let v := (s.sreg who w.a.toNat).toNat
    let holds := match s.task h with
      | none => false
      | some t => t.pins.contains v
    if 65536 ≤ v then s.raiseUniform who e kPERM 42 0
    else if !holds then s.raiseUniform who e kPERM 43 0
    else
      s.gate who e fun s => s.counted who e 4 fun s =>
        (s.modTask h fun t => { t with pins := t.pins.erase v }).sendExpert h g e (.unpin v) 0 false

def State.replyExpert (s : State) (id : Nat) (r : Word × Word × Nat) : State :=
  { s with experts := s.experts.map fun x => if x.id = id then { x with reply := some r } else x }

/-- A refusal of an expert command. -/
def refusedExpert (cause : Nat) : Word × Word × Nat := (0, 0, cause)

/-- RTLOOK at the die's lookup unit and counter bank. Where the copy records' addresses name a home that holds nothing, it is refused with
PERM cause 5 and counts nothing (01 R12, log 68). -/
def State.lookup (s : State) (x : ExpertCmd) (j e t g : Nat) : State :=
  let p := s.engine.slot j
  if p.nexp ≤ e then s.replyExpert x.id (refusedExpert 42)
  else
    match p.slotOfGen g with
    | none => s.replyExpert x.id (refusedExpert 41)
    | some i =>
      if !p.recsIn i e then s.replyExpert x.id (refusedExpert 5)
      else
        let cell := p.cell x.die e
        let cur := s.homeNat cell 4 + t
        let s := s.physWrite cell (leBytes 4 (if 0xFFFFFFFF < cur then 0xFFFFFFFF else cur))
        let v := s.copiesOf p i e
        let key := j * 4096 + e
        let rot := AList.get 0 (s.die x.die).rot key
        let red := v.any fun q => q.2.withdrawn
        let c := if red then 0 else (v.getD (rot % v.length) (0, s.copyRec p i e 0)).1
        let r := s.copyRec p i e c
        let s := s.modDie x.die fun d => { d with rot := AList.set 0 d.rot key (rot + 1) }
        s.replyExpert x.id
          (BitVec.ofNat 32 (bits r.base 31 12 * 2 ^ 12 + (if red then 128 else 0) + c * 32 + r.home % 32), BitVec.ofNat 32 (bits r.base 63 32), 0)

/-- EXPERT_COMMAND_ARRIVAL: the engine, or the die's lookup unit, performs a command. -/
def State.expertArrival (s : State) (id : Nat) : Option State :=
  match s.experts.find? fun x => x.id == id && x.reply.isNone with
  | none => none
  | some x =>
    match s.placeSlot x.ctx with
    | none => some (s.replyExpert id (refusedExpert 40))
    | some j =>
      let p := s.engine.slot j
      if !s.slotAwake j then none
      else
      match x.op with
      | .ecnt e sel =>
        some (s.replyExpert id (if p.nexp ≤ e then refusedExpert 42
          else if sel then ((s.die x.die).winSeq, 0, 0)
          else
            let n := s.lastSum p e
            (BitVec.ofNat 32 (if 0xFFFFFFFF < n then 0xFFFFFFFF else n), 0, 0)))
      | .look e t g => some (s.lookup x j e t g)
      | .pin =>
        let s := s.modSlot j fun p => p.setGen p.slot { p.genAt p.slot with refs := (p.genAt p.slot).refs + 1 }
        some ((s.modTask (s.ownerGang x.owner).1 fun t => { t with pins := t.pins ++ [p.gen] }).replyExpert id (BitVec.ofNat 32 p.gen, 0, 0))
      | .unpin g => some ((s.unpin x.ctx g).replyExpert id (0, 0, 0))

/-- EXPERT_COMMAND_ARRIVAL. -/
def execExpertCommandArrival (c : Nat) (s : State) : Out := event (s.expertArrival c) s

/-- Takes the entry of a gang that waits for a reply out of its frontier. -/
def State.takeWaiting (s : State) (h g id : Nat) : Option Entry × State :=
  ((s.gang h g).frontier.find? fun e => e.st == .stall (.reply id),
    s.modGang h g fun gg => { gg with frontier := gg.frontier.filter fun e => e.st != .stall (.reply id) })

/-- What a reply gives the entry that waited for it. -/
def State.expertReturn (s : State) (x : ExpertCmd) (r : Word × Word × Nat) : State :=
  match x.owner with
  | .gang h g =>
    match x.op with
    | .unpin _ => s.uncount x.owner 4
    | op =>
      match s.takeWaiting h g x.id with
      | (none, s) => s
      | (some e, s) =>
        if r.2.2 ≠ 0 then s.raiseUniform (.gang h g) e kPERM r.2.2 0
        else
          let s := s.setS (.gang h g) x.d r.1
          match op with
          | .look _ _ _ => (s.setS (.gang h g) (x.d + 1) r.2.1).advance h g e e.mask
          | .pin => s.acquireReturn h g e 5
          | _ => s.advance h g e e.mask
  | _ => s

/-- EXPERT_COMMAND_REPLY. -/
def State.expertReply (s : State) (id : Nat) : Option State :=
  match s.experts.find? fun x => x.id == id with
  | none => none
  | some x => x.reply.map fun r => { s with experts := s.experts.filter fun y => y.id != id }.expertReturn x r

/-- EXPERT_COMMAND_REPLY. -/
def execExpertCommandReply (c : Nat) (s : State) : Out := event (s.expertReply c) s

/-! ## Gradient merge (19 R354) -/

/-- Fields of a merge descriptor, from its eight doublewords. -/
structure MergeDesc where
  dfmt : Nat
  sfmt : Nat
  frac : Nat
  ctl : Nat
  expert : Nat
  gen : Nat
  count : Nat
  goff : Nat
  cword : Nat
  cval : Nat
  deriving DecidableEq, Repr

def mergeDescOf (q : List Nat) : MergeDesc :=
  let f (i hi lo : Nat) : Nat := bits (q.getD i 0) hi lo
  { dfmt := f 0 23 16, sfmt := f 0 31 24, frac := f 0 39 32, ctl := f 0 47 40, expert := f 0 63 48, gen := f 1 15 0, count := f 1 63 32,
    goff := q.getD 2 0, cword := q.getD 3 0, cval := f 4 31 0 }

def MergeDesc.fmtOk (f : Nat) : Bool := f == 0 || f == 2

/-- A malformed merge descriptor (cause 44). -/
def mergeBad (nexp : Nat) (q : List Nat) : Bool :=
  let d := mergeDescOf q
  bits (q.getD 0 0) 15 0 != 1 || !MergeDesc.fmtOk d.dfmt || !MergeDesc.fmtOk d.sfmt || decide (64 ≤ d.frac) || decide (4 ≤ d.ctl) ||
    decide (nexp ≤ d.expert) || bits (q.getD 1 0) 31 16 != 0 || d.count == 0 || decide (2 ^ 24 < d.count) ||
    decide (d.goff % bankSize d.dfmt ≠ 0) || decide (d.goff % bankSize d.sfmt ≠ 0) || decide (d.cword % 4 ≠ 0) ||
    (q.getD 5 0 != 0) || (q.getD 6 0 != 0) || (q.getD 7 0 != 0)

/-- RTMERGE (19 R354). -/
def execRtmerge (w : UA) (s : State) : Out :=
  expertWord w.c s fun h g e s =>
    let who := Who.gang h g
    let p := s.spair who w.a.toNat
    if p % 64 ≠ 0 then s.raiseUniform who e kALIGN 0 p
    else if 63 ≤ s.count who 4 then s.stayAt who e (.stall (.counter 4))
    else if !s.slotAwake ((s.placeSlot (s.ctxOf h)).getD 0) then
      s.stayAt who e (.stall (.asleep (s.engine.slot ((s.placeSlot (s.ctxOf h)).getD 0)).tbl))
    else
      s.gate who e fun s =>
        let q := s.readDwords h g p 8
        q.2.bmFail h g e q.1 fun ds =>
          let s := q.2
          let x := s.engine.slot ((s.placeSlot (s.ctxOf h)).getD 0)
          let d := mergeDescOf ds
          if mergeBad x.nexp ds then s.raiseUniform who e kPERM 44 p
          else
            match x.liveSlotOf d.gen with
            | none => s.raiseUniform who e kPERM 41 0
            | some i =>
              if !x.recsIn i d.expert then s.raiseUniform who e kPERM 5 0
              else
                let at_ (r : CopyRec) : Nat := (r.base + d.goff) % 2 ^ 64
                let cs := (s.copiesOf x i d.expert).filter fun p => !p.2.withdrawn
                let (id, s) := s.fresh
                let m : Merge :=
                  { id := id, owner := .gang h g, ctx := s.ctxOf h, pc := e.pc, mask := e.mask, dfmt := d.dfmt, sfmt := d.sfmt,
                    frac := d.frac, rmode := d.ctl, count := d.count, copies := cs.map fun p => at_ p.2,
                    primary := at_ (s.copyRec x i d.expert 0), desc := p, cword := d.cword, cval := d.cval,
                    fin := none }
                ({ s with merges := s.merges ++ [m] }.addCount who 4 (· + 1)).advance h g e e.mask

/-- Checks every page of a range for a unit that walks the tables itself: the first that fails. -/
def State.walkRange (s : State) (ctx va n : Nat) (a : Access) : Option (Nat × Checked) × State :=
  (pageParts va n).foldl (fun r p => match r.1 with
    | some _ => r
    | none =>
      let q := r.2.checkWalk ctx p.1 p.2 a
      (if q.1.isOk then none else some (p.1, q.1), q.2)) (none, s)

/-- The checks of a merge: its reads, then its writes. -/
def Merge.check (m : Merge) (s : State) : Option (Nat × Checked × Access) × State :=
  let rs := m.copies.map fun a => (a, m.count * bankSize m.sfmt, Access.read)
  (rs ++ [(m.primary, m.count * bankSize m.dfmt, Access.write)]).foldl (fun r p => match r.1 with
    | some _ => r
    | none =>
      let q := r.2.walkRange m.ctx p.1 p.2.1 p.2.2
      (q.1.map fun x => (x.1, x.2, p.2.2), q.2)) (none, s)

/-- The physical address behind a virtual one that the checks passed. -/
def State.paOf (s : State) (ctx va : Nat) : Nat := (s.checkWalk ctx (va % 2 ^ 64) 1 .read).1.pa

/-- Element i of a merge. -/
def Merge.elem (m : Merge) (p : State × BkSum) (i : Nat) : State × BkSum :=
  let rnd := Rnd.ofField m.rmode
  let n := bankSize m.sfmt
  let r := m.copies.foldl (fun (r : Int × BkSum) a =>
    let x := p.1.elemRead (p.1.paOf m.ctx (a + i * n)) n
    let z := { r.2 with poison := r.2.poison || x.2 }
    match fxEnterBy rnd m.frac (elemVal m.sfmt m.frac x.1) with
    | none => (r.1, { z with nans := z.nans + 1 })
    | some (q, sat) =>
      let t := fxAdd r.1 q
      (t.1, { z with cellSat := z.cellSat || sat || t.2 })) (0, p.2)
  let bad := m.copies.any fun a => (p.1.elemRead (p.1.paOf m.ctx (a + i * n)) n).2
  let v := (floatFmt m.dfmt).fit rnd false (fxVal m.frac r.1)
  p.1.elemWrite { r.2 with beyond := r.2.beyond || v.2 } (p.1.paOf m.ctx (m.primary + i * bankSize m.dfmt)) (bankSize m.dfmt) v.1 bad true false

/-- Whether the homes that a merge touches can be accessed (23 R397). -/
def State.mergeAwake (s : State) (m : Merge) : Bool :=
  ((m.primary, m.count * bankSize m.dfmt) :: m.copies.map fun a => (a, m.count * bankSize m.sfmt)).all fun r =>
    (pageParts r.1 r.2).all fun p => s.awake (s.paOf m.ctx p.1)

/-- RTMERGE_COMPLETE: the sum, then RES, CWORD and the RG count, each with a package-scope release; or a fault before any element. -/
def State.mergeComplete (s : State) (id : Nat) : Option State :=
  match s.merges.find? fun m => m.id == id with
  | none => none
  | some m =>
    let go (s : State) (f : Finish) : State :=
      match s.finish m.owner m.ctx 5 (m.desc + 36) (if m.cword = 0 then none else some (m.cword, m.cval)) f with
      | (s, none) => { s with merges := s.merges.filter fun x => x.id != id }.uncount m.owner 4
      | (s, some f) => { s with merges := s.merges.map fun x => if x.id = id then { x with fin := some f } else x }
    match m.fin with
    | some f => some (go s f)
    | none =>
      let q := m.check s
      if (s.asleepTable m.ctx).isSome then none
      else
      match q.1 with
      | some (va, c, a) =>
        match farFault c va a with
        | none => none
        | some f =>
          let s := q.2
          let o := s.ownerGang m.owner
          some (({ s with merges := s.merges.filter fun x => x.id != id }.raiseLater o.1 o.2
            { kind := f.kind, flags := 0, pc := m.pc, mask := m.mask, detail := f.detail, addr := f.addr, commit := 0, spec := 0 }).uncount
            m.owner 4)
      | none =>
        if !s.mergeAwake m then none
        else
          let r := (List.range m.count).foldl m.elem (q.2, BkSum.zero)
          let s := r.1.unitDenial m.owner r.2.denials r.2.deniedAt
          some (go s { stage := 0, word := r.2.word + m.copies.length * 2 ^ 28, upto := s.nextId })

/-- RTMERGE_COMPLETE. -/
def execRtmergeComplete (m : Nat) (s : State) : Out := event (s.mergeComplete m) s

end Sys2Proof.Machine
end

