-- ==== Sys2Proof/Machine/Rings.lean ====
section
/-!
DEFINITION. Trestle rings: their registers and states, RCLAIM, RPUB, RTAKE, RFREE (19 R355-R361).
-/
namespace Sys2Proof.Machine

open Sys2Proof

def State.ring (s : State) (die r : Nat) : Ring := AList.get Ring.reset (s.die die).rings r
def State.modRing (s : State) (die r : Nat) (f : Ring → Ring) : State :=
  s.modDie die fun d => { d with rings := AList.modify Ring.reset d.rings r f }

/-- Slots and slot bytes of a ring. -/
def Ring.slots (r : Ring) : Nat := 2 ^ r.logn
def Ring.bytes (r : Ring) : Nat := 2 ^ r.logn * 2 ^ r.logsz

/-! ## Ring states (19 Table 19-7) -/

/-- The fields that a write of +0x00 carries. -/
def Ring.withFields (r : Ring) (v : Nat) : Ring :=
  { r with logn := bits v 5 1, logsz := bits v 9 6, scope := bits v 12 10, ctx := bits v 47 32 }

/-- Whether the fields of an enable are valid (19 R357). -/
def State.ringValid (s : State) (r : Ring) : Bool :=
  decide (r.logn ≤ 16) && decide (6 ≤ r.logsz) && decide (r.logsz ≤ 12) && (r.scope == 4 || r.scope == 5) &&
    canonical (sext56 r.base) && decide (sext56 r.base % r.bytes = 0) && s.created r.ctx

/-- A ring just opened: its allowance is reserved until it is disabled (19 R357). -/
def Ring.opened (r : Ring) : Ring :=
  { r with en := true, dead := false, enerr := 0, claim := 0, pubp := 0, take := 0, freep := 0, claims := [], takes := [], reserved := r.bytes }

/-- RING_ENABLE: a write of EN = 1 to a disabled ring; what it pins is taken from the LLC's other lines. -/
def State.ringEnable (s : State) (die r : Nat) (v : Nat) : Option State :=
  if !s.booted ∨ 4 ≤ die ∨ 64 ≤ r ∨ (s.ring die r).en ∨ !v.testBit 0 then none
  else
    let x := (s.ring die r).withFields v
    if !s.ringValid x then some (s.modRing die r fun y => { y with enerr := 1 })
    else if 2 ^ 25 < (s.die die).pinned + x.bytes then some (s.modRing die r fun y => { y with enerr := 2 })
    else
      let s := s.modRing die r fun _ => x.opened
      some (s.modDie die fun d => d.fitGuest (s.llcLines die) s.tick (2 ^ 57))

/-- RING_ENABLE. -/
def execRingEnable (die r : Nat) (value : DWord) (s : State) : Out := event (s.ringEnable die r value.toNat) s

/-- RING_DISABLE: a write of EN = 0 to an open or dead ring, which sets the other fields too; it is refused, and changes nothing, while
slots of an open ring are claimed and not freed. -/
def State.ringDisable (s : State) (die r : Nat) (v : Nat) : Option State :=
  let x := s.ring die r
  if !x.en ∨ v.testBit 0 then none
  else if x.dead ∨ x.claim = x.freep then
    some (s.modRing die r fun y => { y.withFields v with en := false, dead := false, reserved := 0 })
  else none

/-- RING_DISABLE. -/
def execRingDisable (die : Nat) (r : RingValue) (s : State) : Out := event (s.ringDisable die r.ring r.value.toNat) s

/-- An open ring dies. -/
def Ring.kill (r : Ring) : Ring := { r with dead := true, claims := [], takes := [] }

/-- RING_DEAD: the resident kernel marks an open ring dead. No register says which replica a ring feeds: the mark for a ring whose
replica is withdrawn is this event's too (log 67). -/
def execRingDead (die r : Nat) (s : State) : Out :=
  event (if (s.ring die r).en ∧ !(s.ring die r).dead then some (s.modRing die r Ring.kill) else none) s

/-- A task's end kills the rings on which it holds a claim or take (19 Table 19-7). -/
def State.killRings (s : State) (h : Nat) : State :=
  let holds (r : Ring) : Bool := (r.claims ++ r.takes).any fun x => x.owner == h
  { s with dies := AList.mapVals Die.reset (fun d =>
      { d with rings := AList.mapVals Ring.reset (fun r => if holds r then r.kill else r) d.rings }) s.dies }

/-! ## Commands (19 R358-R361) -/

/-- The die and the ring that s[a] names. -/
def ringDie (v : Nat) : Nat := bits v 7 6
def ringNum (v : Nat) : Nat := bits v 5 0

/-- Sends a command. -/
def State.sendRing (s : State) (h g : Nat) (e : Entry) (op : RingOp) (ring arg : Word) (d m : Nat) (stalls : Bool) : State :=
  let (id, s) := s.fresh
  let x : RingCmd :=
    { id := id, owner := .gang h g, lane := lowestLane e.mask, pc := e.pc, mask := e.mask, op := op, ring := ring, arg := arg, d := d,
      m := m, ctx := s.ctxOf h, fromDie := hDie h, reply := none }
  let s := { s with ringCmds := s.ringCmds ++ [x] }.addCount (.gang h g) 4 (· + 1)
  if stalls then s.putEntry h g { e with st := .stall (.reply id) } else s.advance h g e e.mask

/-- SCOPE of the ring that s[a] names. -/
def State.ringScope (s : State) (v : Word) : Nat := (s.ring (ringDie v.toNat) (ringNum v.toNat)).scope

/-- A ring word at issue: reserved bits of s[a] fault, then it waits for class RG. -/
def State.ringIssue (s : State) (h g : Nat) (e : Entry) (a : BitVec 5) (k : Word → State → State) : State :=
  let who := Who.gang h g
  let v := s.sreg who a.toNat
  if 256 ≤ v.toNat then s.raiseUniform who e kRING 1 v.toNat
  else if 63 ≤ s.count who 4 then s.stayAt who e (.stall (.counter 4))
  else s.gate who e fun s => k v s

/-- RCLAIM (19 R359). -/
def execRclaim (w : URing) (s : State) : Out :=
  s.uniformGang w.c fun h g e s =>
    s.ringIssue h g e w.a fun v s => s.sendRing h g e .claim v (s.sreg (.gang h g) w.b.toNat) w.d.toNat w.m.toNat true

/-- RTAKE (19 R359): its entry comes back here while its acquire waits for loads. -/
def execRtake (w : URing) (s : State) : Out :=
  s.uniformGang w.c fun h g e s =>
    match e.st with
    | .stall (.acquire sc _) => s.acquireReturn h g e sc
    | _ => s.ringIssue h g e w.a fun v s => s.sendRing h g e .take v (s.sreg (.gang h g) w.b.toNat) w.d.toNat w.m.toNat true

/-- The release of RPUB at the ring's SCOPE, which waits for no load, then the command, of the ring and position read at issue. -/
def State.publishRing (s : State) (h g : Nat) (e : Entry) (ring arg : Word) (scope : Nat) : State :=
  if s.writesVisible (.gang h g) (hCore h) (hDie h) scope (s.upto e) then s.sendRing h g e .pub ring arg 0 0 false
  else s.putEntry h g { e with st := .stall (.publish ring arg scope (s.upto e)) }

/-- RPUB (19 R360). -/
def execRpub (w : UAB) (s : State) : Out :=
  s.uniformGang w.c fun h g e s =>
    match e.st with
    | .stall (.publish ring arg scope _) => s.publishRing h g e ring arg scope
    | _ => s.ringIssue h g e w.a fun v s => s.publishRing h g e v (s.sreg (.gang h g) w.b.toNat) (s.ringScope v)

/-- The release of RFREE at the ring's SCOPE, which waits for the gang's loads, then the command. -/
def State.freeRing (s : State) (h g : Nat) (e : Entry) (ring arg : Word) (scope : Nat) : State :=
  if s.releaseDone (.gang h g) scope (s.upto e) then s.sendRing h g e .free ring arg 0 0 false
  else s.putEntry h g { e with st := .stall (.free ring arg scope (s.upto e)) }

/-- RFREE (19 R360). -/
def execRfree (w : UAB) (s : State) : Out :=
  s.uniformGang w.c fun h g e s =>
    match e.st with
    | .stall (.free ring arg scope _) => s.freeRing h g e ring arg scope
    | _ => s.ringIssue h g e w.a fun v s => s.freeRing h g e v (s.sreg (.gang h g) w.b.toNat) (s.ringScope v)

/-- Marks the hold at a position done; the leading run of done holds leaves the list and advances the position. -/
def markDone (l : List RingHold) (pos : Word) : List RingHold := l.map fun x => if x.pos = pos ∧ !x.done then { x with done := true } else x
def leadDone (l : List RingHold) : Nat := (l.takeWhile fun x => x.done).foldl (fun n x => n + x.count) 0

/-- What a ring does with a command: its new state, and the reply: c[m], the value or status, a cause. -/
def Ring.perform (r : Ring) (op : RingOp) (arg : Word) (owner : Nat) : Ring × (Bool × Word × Nat) :=
  let n := arg.toNat
  let counts := op == .claim || op == .take
  let outstanding (l : List RingHold) : Bool := l.any fun x => x.pos == arg && !x.done
  if counts ∧ (n = 0 ∨ r.slots < n) then (r, false, 0, 4)
  else
    match op with
    | .claim =>
      if 64 ≤ r.claims.length then (r, false, 3, 0)
      else if r.slots < (r.claim + arg - r.freep).toNat then (r, false, 1, 0)
      else ({ r with claim := r.claim + arg, claims := r.claims ++ [{ pos := r.claim, count := n, owner := owner, done := false }] }, true, r.claim, 0)
    | .take =>
      if 64 ≤ r.takes.length then (r, false, 3, 0)
      else if 0 < (r.take + arg - r.pubp).toInt then (r, false, 1, 0)
      else ({ r with take := r.take + arg, takes := r.takes ++ [{ pos := r.take, count := n, owner := owner, done := false }] }, true, r.take, 0)
    | .pub =>
      if outstanding r.claims then
        let l := markDone r.claims arg
        ({ r with pubp := r.pubp + BitVec.ofNat 32 (leadDone l), claims := l.dropWhile fun x => x.done }, true, 0, 0)
      else (r, false, 0, 2)
    | .free =>
      if outstanding r.takes then
        let l := markDone r.takes arg
        ({ r with freep := r.freep + BitVec.ofNat 32 (leadDone l), takes := l.dropWhile fun x => x.done }, true, 0, 0)
      else (r, false, 0, 3)

def State.replyRing (s : State) (id : Nat) (r : Bool × Word × Nat) : State :=
  { s with ringCmds := s.ringCmds.map fun x => if x.id = id then { x with reply := some r } else x }

/-- RING_COMMAND_ARRIVAL: the ring refuses, or performs, a command. -/
def State.ringArrival (s : State) (id : Nat) : Option State :=
  match s.ringCmds.find? fun x => x.id == id && x.reply.isNone with
  | none => none
  | some x =>
    let die := ringDie x.ring.toNat
    let n := ringNum x.ring.toNat
    let r := s.ring die n
    some (if !r.en ∨ r.ctx ≠ x.ctx then s.replyRing id (false, 0, 1)
      else if r.dead then s.replyRing id (false, 2, 0)
      else if r.scope = 4 ∧ x.fromDie ≠ die then s.replyRing id (false, 0, 5)
      else
        let p := r.perform x.op x.arg (s.ownerGang x.owner).1
        (s.modRing die n fun _ => p.1).replyRing id p.2)

/-- RING_COMMAND_ARRIVAL. -/
def execRingCommandArrival (c : Nat) (s : State) : Out := event (s.ringArrival c) s

/-- What a reply does for RCLAIM's or RTAKE's entry. -/
def State.ringReturn (s : State) (x : RingCmd) (h g : Nat) (e : Entry) (r : Bool × Word × Nat) : State :=
  if r.2.2 ≠ 0 then s.raiseUniform (.gang h g) e kRING r.2.2 x.ring.toNat
  else
    let s := (s.setC (.gang h g) x.m r.1).setS (.gang h g) x.d r.2.1
    if r.1 && x.op == .take then s.acquireReturn h g e (s.ringScope x.ring)
    else s.advance h g e e.mask

/-- RING_REPLY: the RG count falls; RCLAIM and RTAKE go on, or fault; a refused RPUB or RFREE faults after its word. -/
def State.ringReply (s : State) (id : Nat) : Option State :=
  match s.ringCmds.find? fun x => x.id == id with
  | none => none
  | some x =>
    x.reply.map fun r =>
      let s := { s with ringCmds := s.ringCmds.filter fun y => y.id != id }.uncount x.owner 4
      match x.owner with
      | .gang h g =>
        if x.op = .pub ∨ x.op = .free then
          (if r.2.2 ≠ 0 then s.raiseLater h g (.uniform kRING x.pc x.mask r.2.2 x.ring.toNat) else s)
        else
          match s.takeWaiting h g id with
          | (some e, s) => s.ringReturn x h g e r
          | (none, s) => s
      | _ => s

/-- RING_REPLY. -/
def execRingReply (c : Nat) (s : State) : Out := event (s.ringReply c) s

end Sys2Proof.Machine
end

