-- ==== Sys2Proof/Machine/Ends.lean ====
section
/-!
DEFINITION. What becomes of a fault and how a task ends: the scheduler thread's disposal, handlers, resolved and refused
page faults, watchdog and kill, replies of SYSCALL, the end of a task (21 R364-R372, R404, 07 R144, 09 R192, R200).
-/
namespace Sys2Proof.Machine

open Sys2Proof

/-! ## The fault log (21 R368) -/

/-- The 64 bytes of a record (21 Table 21-1). -/
def Record.bytes (r : Record) : List Byte :=
  leBytes 2 r.kind ++ leBytes 1 r.flags.toNat ++ leBytes 1 0 ++ leBytes 4 r.pc.toNat ++ leBytes 4 r.mask.toNat ++ leBytes 4 r.detail.toNat ++
    leBytes 8 r.addr.toNat ++ leBytes 4 r.commit ++ leBytes 4 r.spec ++ leBytes 4 r.taskid.toNat ++ leBytes 1 r.gang ++ leBytes 1 0 ++
    leBytes 2 r.ctx ++ leBytes 8 r.crec ++ leBytes 8 r.cyc.toNat ++ leBytes 8 0

/-- Copies a record into its context's fault log, FLAGS bit 0 clear; the launch's FIDX takes the first. -/
def State.logFault (s : State) (ctx l : Nat) (r : Record) : State :=
  match s.context ctx with
  | none => s
  | some c =>
    let r := { r with flags := r.flags &&& 0xFE }
    let s := if c.desc.logLen = 0 then s else s.plainStore (c.desc.logBase + c.fidx.toNat % c.desc.logLen * 64) r.bytes
    (s.modContext ctx fun x => { x with fidx := x.fidx + 1 }).modLaunch l fun x =>
      if x.fidx.isNone then { x with fidx := some c.fidx } else x

/-- Whether a word has issued and its effect waits for a release: it completes when its task ends (21 R368). A LAUNCH that has copied its
packet and finds no join slot is not waited for: a slot may never come (log 84). -/
def EState.underway (st : EState) : Bool :=
  match st with
  | .stall (.release _ _ _) => true
  | .stall (.publish _ _ _ _) => true
  | .stall (.free _ _ _ _) => true
  | .stall (.call _ _ _) => true
  | .stall (.launch _ _) => true
  | .stall (.arrive _ _ _) => true
  | .stall (.notice _ _ _) => true
  | _ => false

/-- Every entry of a gang becomes exited, but for one whose issued word has yet to complete. -/
def Gang.stop (gg : Gang) : Gang :=
  let on := gg.frontier.filter fun e => e.st.underway
  { gg with frontier := on }.exitLanes (on.foldl (fun m (e : Entry) => m &&& ~~~e.mask) allLanes)

/-- A task begins to end: nothing of it issues, its transfers are gone (21 R368, 15 Table 15-4). -/
def State.stopTask (s : State) (h : Nat) (f : Fate) : State :=
  { s with transfers := s.transfers.filter fun x => x.h != h }.modTask h fun t =>
    { t with fate := f, phase := .ending, gangs := AList.mapVals Gang.absent Gang.stop t.gangs }

/-- A task ends by the fault in a gang's record. -/
def State.endByFault (s : State) (h g : Nat) : State :=
  match s.task h with
  | none => s
  | some t => (s.logFault t.ctx t.launch (t.gang g).record).stopTask h .fault

/-! ## Disposal (21 R365, R367) -/

/-- Whether the context's handler takes a kind. -/
def State.handlerTakes (s : State) (ctx kind : Nat) : Bool :=
  kind != kPAGE && kind != kWALKER && kind != kWATCHDOG && kind != kKILLED && (match s.context ctx with
    | some c => c.desc.handlerMask.getLsbD kind
    | none => false)

/-- Whether lanes, or a stream, of a gang are parked until a page is resolved: its record is then a PAGE fault of a word. A PAGE
record that parks nothing is of a transfer or merge that has already failed by it. -/
def State.pageParked (s : State) (h g : Nat) : Bool :=
  ((s.gang h g).frontier.any fun e => e.st == .parked .page) || (s.gangStreams h g).any fun x => x.st == .parked .page

/-- Disposes of a gang's fault. A PAGE record waits for its resolution, unless a transfer or merge has already failed by it. A fault
of the argument read ends the task, whatever the handler mask says (05 R93); SEGMISS a handler may take then too (08 R403). -/
def State.dispose (s : State) (h g : Nat) : State :=
  match s.task h with
  | none => s
  | some t =>
    let r := (t.gang g).record
    if t.fate ≠ .alive ∨ !r.busy ∨ (r.kind = kPAGE ∧ s.pageParked h g) then s
    else if (t.started ∨ r.kind = kSEGMISS) ∧ s.handlerTakes t.ctx r.kind then
      s.modGang h g fun gg => { gg with record := { gg.record with flags := gg.record.flags ||| 8 } }
    else s.endByFault h g

/-- FAULT_DISPOSAL: a die's scheduler thread takes its next event; while a successor kernel adopts, events stay queued
(23 Table 23-3). -/
def execFaultDisposal (die : Nat) (s : State) : Out :=
  event (match (s.die die).events with
    | [] => none
    | e :: rest =>
      if s.hand.st = .adopting then none
      else
        let s := s.modDie die fun d => { d with events := rest }
        match e with
        | .fault h g => some (s.dispose h g)
        | _ => some s) s

/-- An entry parked by a fault stands past the faulting word; past the end of a full segment there is none, and it waits for the record (03
R61). -/
def Entry.pass (e : Entry) : Entry :=
  if e.st ≠ .parked .fault then e
  else if e.pc.toNat % 8192 = 0x1FFC then { e with st := .parked .pastEnd }
  else e.at (e.pc + 4) e.mask

/-- A stream parked by a fault likewise. -/
def Stream.pass (x : Stream) : Stream :=
  if x.st ≠ .parked .fault then x
  else if x.pc.toNat % 8192 = 0x1FFC then { x with st := .parked .pastEnd }
  else { x with pc := x.pc + 4, st := .ready }

/-- Moves what is parked by a gang's fault past the faulting word. It raises nothing: the record that is then freed goes to held faults
first (21 R366). -/
def State.passFault (s : State) (h g : Nat) : State :=
  (s.modGang h g fun gg => { gg with frontier := gg.frontier.map Entry.pass }).mapStreams h g Stream.pass

/-- A gang's record that a handler holds. -/
def State.handled (s : State) (h g : Nat) : Option Record :=
  match s.task h with
  | none => none
  | some t =>
    let r := (t.gang g).record
    if t.fate = .alive ∧ r.busy ∧ r.flags.getLsbD 3 ∧ (t.gang g).verdict = none then some r else none

/-- Whether no word remains to continue at after a fault: past the end of a full segment (03 R61), or where a segment's code could
not be read (08 R403). -/
def Record.final (r : Record) : Bool := (r.kind == kILLEGAL && r.detail.toNat % 256 == 10) || (r.kind == kSEGMISS && r.detail == 3)

/-- A handler's verdict takes effect: CONTINUE (where no word remains to continue at, it acts as END) or END. -/
def State.handlerVerdict (s : State) (h g : Nat) (go : Bool) : State :=
  let s := s.modGang h g fun gg => { gg with verdict := none }
  if !go || (s.gang h g).record.final then s.endByFault h g
  else ((s.clearRecord h g).passFault h g).serveHeld h g

/-- The verdict of a handler: on a saved task it takes effect when the task is restored (21 R367). -/
def State.handlerReturns (s : State) (h g : Nat) (go : Bool) : Option State :=
  (s.handled h g).map fun _ =>
    match s.task h with
    | some t => if t.phase = .saved then s.modGang h g fun gg => { gg with verdict := some go } else s.handlerVerdict h g go
    | none => s

/-- HANDLER_CONTINUE. -/
def execHandlerContinue (h g : Nat) (s : State) : Out := event (s.handlerReturns h g true) s

/-- HANDLER_END. -/
def execHandlerEnd (h g : Nat) (s : State) : Out := event (s.handlerReturns h g false) s

/-! ## Page faults (09 R192, 08 R403, 11 R235) -/

/-- Whether a gang's record holds a PAGE fault that may be resolved. -/
def State.pageHeld (s : State) (h g : Nat) : Bool :=
  match s.task h with
  | none => false
  | some t =>
    let r := (t.gang g).record
    t.fate == .alive && r.busy && r.kind == kPAGE && s.pageParked h g && !s.posted (.fault h g)

/-- The completion record is written again. -/
def State.retryCrec (s : State) (l : Nat) : Option State :=
  match s.launch l with
  | none => none
  | some x => if x.crecWait ∧ !s.posted (.crec l) then (s.writeCrec l x).map fun s => s.reapLaunch l else none

/-- PAGE_FAULT_RESOLVED. -/
def State.pageResolved (s : State) (p : PageTarget) : Option State :=
  match p with
  | .gang h g =>
    if s.pageHeld h g then
      some (((s.modGang h g fun gg =>
        { gg with frontier := gg.frontier.map fun e => if e.st = .parked .page then { e with st := .ready } else e }).mapStreams h g
          (Stream.unpark .page)).freeRecord h g)
    else none
  | .fetch f =>
    if (s.fetches.any fun x => x.id == f && x.suspended) ∧ !s.fetchPosted f then some (s.modFetch f fun y => { y with suspended := false })
    else none
  | .crec l => s.retryCrec l

/-- PAGE_FAULT_RESOLVED. -/
def execPageFaultResolved (p : PageTarget) (s : State) : Out := event (s.pageResolved p) s

/-- PAGE_FAULT_REFUSED: the task ends, the fetch lands nothing, or the record is dropped and reported. -/
def State.pageRefused (s : State) (p : PageTarget) : Option State :=
  match p with
  | .gang h g => if s.pageHeld h g then some (s.endByFault h g) else none
  | .fetch f =>
    match s.fetches.find? fun x => x.id == f && x.suspended with
    | some x => if s.fetchPosted f then none else some (s.fetchFails x)
    | none => none
  | .crec l =>
    match s.launch l with
    | some x =>
      if x.crecWait ∧ !s.posted (.crec l) then
        some (((s.modLaunch l fun y => { y with crecWait := false }).post x.die (.crecFailed l)).reapLaunch l)
      else none
    | none => none

/-- PAGE_FAULT_REFUSED. -/
def execPageFaultRefused (p : PageTarget) (s : State) : Out := event (s.pageRefused p) s

/-! ## Watchdog and kill (21 R370, R371) -/

/-- The state code of a WATCHDOG record; none where the timer is held. -/
def EState.watch (st : EState) : Option Nat :=
  match st with
  | .ready => some 5
  | .emptyReg _ => some 1
  | .barrier _ => some 2
  | .rcb => some 2
  | .queue _ _ => some 3
  | .monitor _ => some 4
  | .migration => none
  | .parked _ => none
  | .exited => none
  | .stall k =>
    match k with
    | .joinl _ => none
    | .joined _ _ _ => none
    | .syscall _ => none
    | _ => some 6

/-- A WATCHDOG fault. -/
def watchdogInfo (flags : BitVec 8) (pc : Word) (m : LaneMask) (state : Nat) : FaultInfo :=
  { kind := kWATCHDOG, flags := flags, pc := pc, mask := m, detail := state, addr := 0, commit := 0, spec := 0 }

/-- Whether a task's entries and streams carry running timers: from its start until it is saved, or its end begins (21 R368). -/
def Task.timed (t : Task) : Bool := t.fate == .alive && (t.phase == .running || t.phase == .stopping)

/-- WATCHDOG: a timer that runs reaches the period. -/
def State.watchdog (s : State) (a : AgentRef) : Option State :=
  match a with
  | .entry h g lane =>
    match s.task h, (s.gang h g).frontier.find? fun e => e.mask.getLsbD lane with
    | some t, some e =>
      if !t.timed then none
      else
        e.st.watch.map fun n =>
          (s.modGang h g fun gg => { gg with frontier := gg.frontier.filter fun x => x != e }).raise h g (watchdogInfo 0 e.pc e.mask n) e
    | _, _ => none
  | .stream k i =>
    match s.stream k i with
    | none => none
    | some x =>
      if !x.started ∨ !((s.task x.h).any fun t => t.timed && !t.finished) then none
      else
        x.st.watch.map fun _ =>
          if (s.gang x.h x.g).record.busy then s.modStream k i fun y => { y with st := .parked .noRecord }
          else (s.writeRecord x.h x.g (s.recordOf x.h x.g (watchdogInfo 2 x.pc 0 7))).modStream k i fun y => { y with st := .parked .fault }

/-- WATCHDOG. -/
def execWatchdog (a : AgentRef) (s : State) : Out := event (s.watchdog a) s

/-- The KILLED record of a gang; no rule gives its PC and mask (log 20). -/
def State.killedRecord (s : State) (h g detail : Nat) : Record :=
  s.recordOf h g (.lane kKILLED (Config.killed (2 * s.tick)) (Config.killed (2 * s.tick + 1)) detail 0)

/-- KILLED is raised for every gang of a task. -/
def State.killRecords (s : State) (h detail : Nat) : State :=
  match s.task h with
  | none => s
  | some t => (List.range t.gangCount).foldl (fun s g => s.modGang h g fun gg => { gg with record := s.killedRecord h g detail, held := [] }) s

/-- END_TASK: system software ends a task; gang 0's record is copied to the log. -/
def State.endTask (s : State) (h : Nat) : Option State :=
  match s.task h with
  | none => none
  | some t => if t.fate = .alive then some ((s.killRecords h 2).endByFault h 0) else none

/-- END_TASK. -/
def execEndTask (h : Nat) (s : State) : Out := event (s.endTask h) s

/-- A task killed with its context: its record goes to no log. -/
def State.killTask (s : State) (h : Nat) : State := (s.killRecords h 1).stopTask h .killed

/-! ## The reply of SYSCALL (21 R372) -/

/-- SYSCALL_REPLY: s[d] takes the reply; the word then acquires, and delivers deferred store faults. -/
def State.syscallReply (s : State) (h g lane : Nat) (reply : Word) : Option State :=
  match (s.gang h g).frontier.find? fun e => e.mask.getLsbD lane with
  | none => none
  | some e =>
    match e.st with
    | .stall (.syscall d) =>
      if s.dies.any fun p => p.2.events.any fun x => match x with
          | .syscall h' g' l _ _ _ => h' == h && g' == g && l == lowestLane e.mask
          | _ => false
      then none
      else
        some ((s.setS (.gang h g) d reply).modGang h g fun gg =>
          { gg with frontier := gg.frontier.map fun x => if x = e then { x with st := .stall (.returned s.nextId) } else x })
    | _ => none

/-- SYSCALL_REPLY. -/
def execSyscallReply (h g lane : Nat) (reply : Word) (s : State) : Out := event (s.syscallReply h g lane reply) s

/-! ## The end of a task (07 R144, 11 R235, R262) -/

/-- Whether an owner is a task's gang or stream; a saved stream's stands under its task's handle. -/
def State.ownedBy (s : State) (o : Owner) (h : Nat) : Bool :=
  match o with
  | .gang u _ => u == h
  | .stream k i =>
    if 3072 ≤ k then k == h
    else
      match s.stream k i with
      | some x => x.h == h
      | none => false
  | .engine => false

/-- Every access and command that a task has issued is complete, its notices delivered. -/
def State.quiet (s : State) (h : Nat) : Bool :=
  (s.loads.all fun x => !s.ownedBy x.owner h) && (s.writes.all fun x => !s.ownedBy x.owner h) &&
    (s.atoms.all fun x => !s.ownedBy x.owner h) && (s.remotes.all fun x => !s.ownedBy x.owner h) &&
    (s.bankCmds.all fun x => !s.ownedBy x.owner h) && (s.merges.all fun x => !s.ownedBy x.owner h) &&
    (s.ringCmds.all fun x => !s.ownedBy x.owner h) && (s.experts.all fun x => !s.ownedBy x.owner h) &&
    (s.notices.all fun x => !s.ownedBy x.owner h || x.arrived)

/-- No stream of a task is left on its cluster. -/
def State.noStreams (s : State) (h : Nat) : Bool :=
  (s.cluster (hCluster h)).streams.all fun p => match p.2 with
    | some x => x.h != h
    | none => true

/-- A span barrier's credits pass to the next task of the span. -/
def State.passCredits (s : State) (h : Nat) (t : Task) (b : Nat) : State :=
  if t.isSpanBarrier b ∧ s.creditHome h b = h then
    match (s.mates h b).filter fun m => m != h with
    | [] => s
    | m :: l =>
      let next := l.foldl (fun a x => if s.spanPos x < s.spanPos a then x else a) m
      let z := t.barrier b
      s.modTask next fun u => u.modBarrier b fun y => { y with x := z.x, y := z.y, credits := z.credits }
  else s

/-- Events of a task. -/
def SchedEvent.ofTask (h : Nat) (e : SchedEvent) : Bool :=
  match e with
  | .fault u _ => u == h
  | .syscall u _ _ _ _ _ => u == h
  | _ => false

/-- Whether a fetch's waiter is a task. -/
def FetchFor.ofTask (h : Nat) (w : FetchFor) : Bool :=
  match w with
  | .cfetch u => u == h
  | .entry u => u == h
  | .restore u => u == h
  | .stream _ => false

/-- What names a task besides its slot is dropped: events, fetch waiters, monitors. -/
def State.forgetTask (s : State) (h : Nat) : State :=
  let s : State := { s with
    fetches := s.fetches.map (fun f => { f with who := f.who.filter fun w => !w.ofTask h }),
    dies := AList.mapVals Die.reset (fun d => { d with events := d.events.filter fun e => !e.ofTask h }) s.dies }
  s.modCore (hCore h) fun c => { c with monitors := c.monitors.filter fun m => m.h != h }

/-- The counts of a launch whose task has ended (11 R235). -/
def Launch.ended1 (f : Fate) (l : Launch) : Launch :=
  { l with ended := l.ended + 1, run := if f = .alive then l.run + 1 else l.run, fault := if f = .fault then l.fault + 1 else l.fault }

/-- A task is gone: tokens, pins, rings, notices, credits, its slot. Its threads leave the barriers of its span, whichever way it ended;
only EXIT is said to act as LEAVE (07 R155, log 80). -/
def State.removeTask (s : State) (h : Nat) (t : Task) : State :=
  let s := t.tokens.foldl (fun s w => s.modJoin t.ctx w fun j => { j with issuerEnded := true }) s
  let s := t.pins.foldl (fun s g => s.unpin t.ctx g) s
  let s := s.killRings h
  let s : State := { s with notices := s.notices.filter fun n => !s.ownedBy n.owner h }
  let s : State := { s with transfers := s.transfers.filter fun x => x.h != h }
  let s := (List.range t.variant.nbar).foldl (fun s b => s.passCredits h t b) s
  let mates := (s.mates h (t.variant.nbar - 1)).filter fun m => m != h && t.isSpanBarrier (t.variant.nbar - 1)
  let s := ((s.forgetTask h).setTask h none).modLaunch t.launch (Launch.ended1 t.fate)
  match mates with
  | [] => s
  | m :: _ => (List.range t.variant.nbar).foldl (fun s b => if t.isSpanBarrier b then s.barrierTest m b else s) s

/-- Delivers the deferred store faults of a task whose threads have exited (09 R200). -/
def State.deliverAtEnd (s : State) (h : Nat) (t : Task) : Option State :=
  let gs := (List.range t.gangCount).filter fun g => (t.gang g).denials != []
  if gs = [] then none
  else
    some (gs.foldl (fun s g =>
      (s.raiseLater h g (deferredInfo (s.gang h g).denials)).modGang h g fun gg => { gg with denials := [] })
      (s.modTask h fun t => { t with phase := .ending }))

/-- Whether the replica table that a task's pins hold can be accessed (23 R397). -/
def State.pinsAwake (s : State) (t : Task) : Bool := t.pins == [] || (s.placeSlot t.ctx).all s.slotAwake

/-- TASK_END. -/
def State.taskEnd (s : State) (h : Nat) : Option State :=
  match s.task h with
  | none => none
  | some t =>
    if !t.finished ∨ !t.allExited ∨ !s.quiet h ∨ !s.noStreams h ∨ !s.pinsAwake t then none
    else if t.fate ≠ .alive then some (s.removeTask h t)
    else if s.transfers.any fun x => x.h == h then none
    else
      match s.deliverAtEnd h t with
      | some s => some s
      | none => if (List.range t.gangCount).any fun g => (t.gang g).record.busy then none else some (s.removeTask h t)

/-- TASK_END. -/
def execTaskEnd (h : Nat) (s : State) : Out := event (s.taskEnd h) s

end Sys2Proof.Machine
end

