-- ==== Sys2Proof/Machine/FloatLane.lean ====
section
/-!
DEFINITION. Floating-point lane words (06 R120-R124) and CVT (04 R76, R77).
-/
namespace Sys2Proof.Machine

open Sys2Proof

/-- FADD (06 R120). -/
def execFadd (w : LR) (s : State) : Out := floatWord w false (fun x y _ => f32Add x y) s

/-- FSUB (06 R120). -/
def execFsub (w : LR) (s : State) : Out := floatWord w false (fun x y _ => f32Sub x y) s

/-- FMUL (06 R120). -/
def execFmul (w : LR) (s : State) : Out := floatWord w false (fun x y _ => f32Mul x y) s

/-- FFMA (06 R120, R121). -/
def execFfma (w : LR) (s : State) : Out := floatWord w true f32Fma s

/-- FMIN (06 R121). -/
def execFmin (w : LR) (s : State) : Out := floatWord w false (fun x y _ => f32Min x y) s

/-- FMAX (06 R121). -/
def execFmax (w : LR) (s : State) : Out := floatWord w false (fun x y _ => f32Max x y) s

/-- FABS (06 R120): acts on bits. -/
def execFabs (w : LRA) (s : State) : Out := intWord1 w (fun x => x &&& 0x7FFFFFFF) s

/-- FNEG (06 R120): acts on bits. -/
def execFneg (w : LRA) (s : State) : Out := intWord1 w (fun x => x ^^^ 0x80000000) s

/-- BADD2 (06 R122). -/
def execBadd2 (w : LR) (s : State) : Out := floatWord w false (packed2 fun x y _ => fmtBf16.add x y) s

/-- BMUL2 (06 R122). -/
def execBmul2 (w : LR) (s : State) : Out := floatWord w false (packed2 fun x y _ => fmtBf16.mul x y) s

/-- BFMA2 (06 R122). -/
def execBfma2 (w : LR) (s : State) : Out := floatWord w true (packed2 fmtBf16.fma) s

/-- HFMA2 (06 R122). -/
def execHfma2 (w : LR) (s : State) : Out := floatWord w true (packed2 fmtF16.fma) s

/-- RCP (06 R123, R124). -/
def execRcp (w : LRA) (s : State) : Out := floatWord1 w (sfu .rcp) s

/-- RSQ (06 R123, R124). -/
def execRsq (w : LRA) (s : State) : Out := floatWord1 w (sfu .rsq) s

/-- EXP2 (06 R123, R124). -/
def execExp2 (w : LRA) (s : State) : Out := floatWord1 w (sfu .exp2) s

/-- LOG2 (06 R123, R124). -/
def execLog2 (w : LRA) (s : State) : Out := floatWord1 w (sfu .log2) s

/-- SIN (06 R123, R124). -/
def execSin (w : LRA) (s : State) : Out := floatWord1 w (sfu .sin) s

/-- COS (06 R123, R124). -/
def execCos (w : LRA) (s : State) : Out := floatWord1 w (sfu .cos) s

/-- TANH (06 R123, R124). -/
def execTanh (w : LRA) (s : State) : Out := floatWord1 w (sfu .tanh) s

/-- CVT (04 R76, R77). -/
def execCvt (w : LI) (s : State) : Out :=
  s.lane (specLI w) fun c s => s.laneFloat c w.d.toNat fun i => cvt w.imm (s.val c w.a.toNat i)

end Sys2Proof.Machine
end

