-- ==== Sys2Proof/Machine/Digest.lean ====
section
/-!
DEFINITION. SHA-256, which 23 R391 and R392 name and do not define: as FIPS 180-4 gives it (log 13).
-/
namespace Sys2Proof.Machine

open Sys2Proof

/-- The 64 round constants. -/
def shaK : List Word :=
  [0x428a2f98, 0x71374491, 0xb5c0fbcf, 0xe9b5dba5, 0x3956c25b, 0x59f111f1, 0x923f82a4, 0xab1c5ed5] ++
  [0xd807aa98, 0x12835b01, 0x243185be, 0x550c7dc3, 0x72be5d74, 0x80deb1fe, 0x9bdc06a7, 0xc19bf174] ++
  [0xe49b69c1, 0xefbe4786, 0x0fc19dc6, 0x240ca1cc, 0x2de92c6f, 0x4a7484aa, 0x5cb0a9dc, 0x76f988da] ++
  [0x983e5152, 0xa831c66d, 0xb00327c8, 0xbf597fc7, 0xc6e00bf3, 0xd5a79147, 0x06ca6351, 0x14292967] ++
  [0x27b70a85, 0x2e1b2138, 0x4d2c6dfc, 0x53380d13, 0x650a7354, 0x766a0abb, 0x81c2c92e, 0x92722c85] ++
  [0xa2bfe8a1, 0xa81a664b, 0xc24b8b70, 0xc76c51a3, 0xd192e819, 0xd6990624, 0xf40e3585, 0x106aa070] ++
  [0x19a4c116, 0x1e376c08, 0x2748774c, 0x34b0bcb5, 0x391c0cb3, 0x4ed8aa4a, 0x5b9cca4f, 0x682e6ff3] ++
  [0x748f82ee, 0x78a5636f, 0x84c87814, 0x8cc70208, 0x90befffa, 0xa4506ceb, 0xbef9a3f7, 0xc67178f2]

/-- The eight words of a hash value. -/
structure ShaHash where
  a : Word
  b : Word
  c : Word
  d : Word
  e : Word
  f : Word
  g : Word
  h : Word
  deriving DecidableEq, Repr

/-- The initial hash value. -/
def shaInit : ShaHash :=
  { a := 0x6a09e667, b := 0xbb67ae85, c := 0x3c6ef372, d := 0xa54ff53a, e := 0x510e527f, f := 0x9b05688c, g := 0x1f83d9ab, h := 0x5be0cd19 }

/-- Word-wise sum of two hash values. -/
def ShaHash.add (x y : ShaHash) : ShaHash :=
  { a := x.a + y.a, b := x.b + y.b, c := x.c + y.c, d := x.d + y.d, e := x.e + y.e, f := x.f + y.f, g := x.g + y.g, h := x.h + y.h }

/-- One round. -/
def ShaHash.round (x : ShaHash) (kw : Word × Word) : ShaHash :=
  let s1 := x.e.rotateRight 6 ^^^ x.e.rotateRight 11 ^^^ x.e.rotateRight 25
  let s0 := x.a.rotateRight 2 ^^^ x.a.rotateRight 13 ^^^ x.a.rotateRight 22
  let t1 := x.h + s1 + ((x.e &&& x.f) ^^^ (~~~x.e &&& x.g)) + kw.1 + kw.2
  let t2 := s0 + ((x.a &&& x.b) ^^^ (x.a &&& x.c) ^^^ (x.b &&& x.c))
  { a := t1 + t2, b := x.a, c := x.b, d := x.c, e := x.d + t1, f := x.e, g := x.f, h := x.g }

/-- The message schedule of a block of 16 words. -/
def shaSchedule (m : List Word) : List Word :=
  (List.range 48).foldl (fun w t =>
    let x := w.getD (t + 1) 0
    let y := w.getD (t + 14) 0
    w ++ [w.getD t 0 + (x.rotateRight 7 ^^^ x.rotateRight 18 ^^^ (x >>> 3)) + w.getD (t + 9) 0 +
      (y.rotateRight 17 ^^^ y.rotateRight 19 ^^^ (y >>> 10))]) m

/-- A number of n bytes, most significant first. -/
def beBytes (n v : Nat) : List Byte := (List.range n).map fun i => BitVec.ofNat 8 (v / 256 ^ (n - 1 - i))

/-- The padded message. -/
def shaPad (data : List Byte) : List Byte :=
  data ++ [0x80] ++ List.replicate ((119 - data.length % 64) % 64) 0 ++ beBytes 8 (8 * data.length)

/-- Word j of a message, most significant byte first. -/
def shaWord (data : List Byte) (j : Nat) : Word :=
  BitVec.ofNat 32 (((data.drop (4 * j)).take 4).foldl (fun n b => 256 * n + b.toNat) 0)

/-- SHA-256 of a byte string, most significant bit first. -/
def sha256 (data : List Byte) : BitVec 256 :=
  let p := shaPad data
  let r := (List.range (p.length / 64)).foldl (fun x i =>
    x.add ((shaK.zip (shaSchedule ((List.range 16).map fun j => shaWord p (16 * i + j)))).foldl ShaHash.round x)) shaInit
  BitVec.ofNat 256 ([r.a, r.b, r.c, r.d, r.e, r.f, r.g, r.h].foldl (fun n w => 2 ^ 32 * n + w.toNat) 0)

end Sys2Proof.Machine
end

