-- ==== Sys2Proof/Machine/Preempt.lean ====
section
/-!
DEFINITION. Pre-emption and restore (21 R374-R377, 16 R306, 15 R300, 17 R340). A saved task keeps its data under a handle of
its own; the save area is the resident kernel's and is not otherwise seen.
-/
namespace Sys2Proof.Machine

open Sys2Proof

/-! ## Stop (21 R374, step 1) -/

/-- The word at a code word of a task's core. -/
def State.codeWord (s : State) (h : Nat) (pc : Word) : Word :=
  match s.task h with
  | none => 0x7FE00000
  | some t =>
    match s.slotOf (hCore h) t (pc.toNat / 8192) with
    | some (_, x) => AList.get 0x7FE00000 x.code (pc.toNat % 8192 / 4)
    | none => 0x7FE00000

/-- LAUNCH, JOINL, MSTART, BTCOPY, WAITC and the ring words, by set bit and opcode (03). -/
def abandons (w : Word) : Bool := [0x500, 0x501, 0x502, 0x510, 0x520, 0x538, 0x539, 0x53A, 0x53B].contains (w.toNat / 2 ^ 21)

/-- Stalls of such a word before its effect. -/
def Stall.before (k : Stall) : Bool :=
  match k with
  | .release _ _ _ => true
  | .publish _ _ _ _ => true
  | .free _ _ _ _ => true
  | .held => true
  | .counter _ => true
  | .waitc _ _ => true
  | .joined _ _ _ => true
  | .launch _ _ => true
  | .joinSlot _ => true
  | .mstart _ _ => true
  | .joinl _ => true
  | .streamSlot _ => true
  | _ => false

/-- An entry that abandons its word, or whose word has not issued, is ready at it. -/
def State.abandon (s : State) (h : Nat) (e : Entry) : Entry :=
  match e.st with
  | .stall k => if !k.issued || (k.before && abandons (s.codeWord h e.pc)) then { e with st := .ready } else e
  | _ => e

/-- A stream stops issuing: a word that waits is issued again later, but a load's data is awaited. -/
def Stream.halt (x : Stream) : Stream :=
  match x.st with
  | .stall (.load _) => x
  | .stall _ => { x with st := .ready }
  | _ => x

/-- The tasks that are pre-empted with a task: its span, or it alone. -/
def State.unit (s : State) (h : Nat) : List Nat :=
  match s.task h with
  | none => []
  | some t =>
    if t.ident.spanidx.isSome then
      s.tasks.filterMap fun p => match p.2 with
        | some u => if u.launch = t.launch then some p.1 else none
        | none => none
    else [h]

/-- Whether a task may be pre-empted: placed, and not begun to end. -/
def Task.preemptible (t : Task) : Bool := t.fate == .alive && !t.finished && (t.phase == .placed || t.phase == .starting || t.phase == .running)

/-- The streams of a task on its cluster. -/
def State.streamsOf (s : State) (h : Nat) : List (Nat × Stream) :=
  (s.cluster (hCluster h)).streams.filterMap fun p => match p.2 with
    | some x => if x.h = h then some (p.1, x) else none
    | none => none

/-- Takes a task's issued words that are not in execution out of the cluster's queues; each stream keeps its own, the post chain's
marked, to be saved with it (16 R306). -/
def State.keepWords (s : State) (h : Nat) : State :=
  let k := hCluster h
  let c := s.cluster k
  let stop := (s.streamsOf h).map Prod.fst
  let array := keepRunning c false stop c.arrayQ
  let post := keepRunning c true stop c.postQ
  let left (q r : List MatrixOp) (b : Bool) (i : Nat) : List (Bool × MatrixOp) :=
    (q.filter fun o => o.stream == i && !r.contains o).map fun o => (b, o)
  stop.foldl (fun s i => s.modStream k i fun x => { x with kept := left c.arrayQ array false i ++ left c.postQ post true i })
    (s.modCluster k fun c => { c with arrayQ := array, postQ := post })

/-- Stops one task. -/
def State.stop1 (s : State) (h : Nat) : State :=
  match s.task h with
  | none => s
  | some t =>
    if !t.preemptible then s
    else
      let s' := s.modTask h fun t =>
        { t with phase := .stopping,
                 gangs := AList.mapVals Gang.absent (fun gg => { gg with frontier := gg.frontier.map fun e => s.abandon h e }) t.gangs }
      ((List.range t.gangCount).foldl (fun s g => s.mapStreams h g Stream.halt) s').keepWords h

/-- PREEMPT_REQUEST: not taken for a task that is not placed or is ending; one under way is joined. -/
def State.preemptRequest (s : State) (h : Nat) : Option State :=
  match s.task h with
  | none => none
  | some t => if t.preemptible then some ((s.unit h).foldl State.stop1 s) else none

/-- PREEMPT_REQUEST. -/
def execPreemptRequest (h : Nat) (s : State) : Out := event (s.preemptRequest h) s

/-! ## Drain and save (steps 2 to 4) -/

/-- Nothing of a task is in progress: no stalled word, insertion, matrix word, access or running transfer. -/
def State.drainedTask (s : State) (h : Nat) (t : Task) : Bool :=
  let waits (st : EState) : Bool := match st with
    | .stall _ => true
    | _ => false
  s.quiet h && s.writesVisible (.gang h 0) (hCore h) (hDie h) 5 s.nextId &&
    (t.gangs.all fun p => p.2.inserter == [] && p.2.frontier.all fun e => !waits e.st) &&
    ((s.streamsOf h).all fun p => !waits p.2.st && (s.cluster (hCluster h)).outstanding p.1 == 0) &&
    (s.transfers.all fun x => x.h != h || x.st == .stopped)

/-- A saved entry: one that waits at a monitor is ready at its WAITA (10 R224). -/
def Entry.forSave (e : Entry) : Entry :=
  match e.st with
  | .monitor _ => { e with st := .ready }
  | _ => e

/-- A stream as it is saved. -/
def State.saveStream (s : State) (k : Nat) (x : Stream) : SavedStream :=
  let c := s.cluster k
  let code := match AList.get none c.mslots x.slot with
    | some y => (y.addr, y.len)
    | none => (0, 0)
  { stream := { x with kept := [] }, words := x.kept, addr := code.1, len := code.2,
    tiles := x.tiles.filterMap fun p => p.2.map fun q => (p.1, AList.get Tile.free c.tiles q) }

/-- A cluster without a stream: its slot, words and tiles are free. -/
def Cluster.removeStream (i : Nat) (c : Cluster) : Cluster :=
  { c with streams := AList.set none c.streams i none, arrayQ := c.arrayQ.filter (fun o => o.stream != i),
           postQ := c.postQ.filter (fun o => o.stream != i),
           tiles := AList.mapVals Tile.free (fun t => if t.owner = some i then Tile.free else t) c.tiles }

/-- The segments a restore must land, with their code. -/
def State.segmentsOf (s : State) (h : Nat) (t : Task) : List (Nat × Nat × Nat) :=
  t.needs.map fun seg =>
    match s.slotOf (hCore h) t seg with
    | some (_, x) => (seg, x.addr, x.len)
    | none =>
      match t.saved.find? fun p => p.1 == seg, s.launch t.launch with
      | some p, _ => p
      | none, some l => (seg, l.entryAddr, l.entryLen)
      | none, none => (seg, 0, 0)

/-- What names a task by its handle takes a new one: transfers, ring holds, notices, events. -/
def State.rekey (s : State) (old new : Nat) : State :=
  let owner (o : Owner) : Owner := match o with
    | .gang u g => if u = old then .gang new g else o
    | _ => o
  let holds (l : List RingHold) : List RingHold := l.map fun x => if x.owner = old then { x with owner := new } else x
  let ring (r : Ring) : Ring := { r with claims := holds r.claims, takes := holds r.takes }
  let ev (e : SchedEvent) : SchedEvent := match e with
    | .fault u g => if u = old then .fault new g else e
    | _ => e
  let s : State := { s with notices := s.notices.map fun n => { n with owner := owner n.owner } }
  let s : State := { s with transfers := s.transfers.map fun x => if x.h = old then { x with h := new } else x }
  { s with dies := AList.mapVals Die.reset (fun d =>
      { d with rings := AList.mapVals Ring.reset ring d.rings, events := d.events.map ev }) s.dies }

/-- Gives notices of one owner to another. -/
def State.moveNotices (s : State) (a b : Owner) : State :=
  { s with notices := s.notices.map fun n => if n.owner = a then { n with owner := b } else n }

/-- Bytes of a saved accumulator (17 R340). -/
def Acc.savedBytes (a : Acc) : Nat :=
  match a with
  | .undeclared => 0
  | .sum _ => 128
  | .rank r => 12 + 8 * r.list.length

/-- Bytes of a saved stream: its registers and counters, its bound tiles, its loaded tables (16 R306). -/
def Stream.savedBytes (x : Stream) : Nat :=
  256 + 65536 * (x.tiles.filter fun p => p.2.isSome).length + 2064 * (x.tables.filter fun p => p.2.isSome).length

/-- The saved size S of a task (21 R375, Table 21-4). -/
def State.savedBytes (s : State) (h : Nat) (t : Task) : Nat :=
  512 + 1024 * t.gangCount + t.variant.threads * t.variant.depth * 4 + t.variant.gran * 4096 +
    sumOf (List.range t.variant.nq) (fun q => 16 + 128 * (t.queue q).length) + 16 * t.variant.nbar +
    sumOf t.gangs (fun p => sumOf p.2.acc fun a => a.2.savedBytes) +
    sumOf (s.streamsOf h) (fun p => p.2.savedBytes) + 72 * (s.transfers.filter fun x => x.h == h).length

/-- The handle under which a task is saved. -/
def savedHandle (h n : Nat) : Nat := h % 3072 + 3072 * (n + 1)

/-- Saves one task and frees what it holds. -/
def State.save1 (s : State) (h : Nat) : State :=
  match s.task h with
  | none => s
  | some t =>
    let (id, s) := s.fresh
    let key := savedHandle h id
    let k := hCluster h
    let xs := s.streamsOf h
    let t' := { t with
      phase := .saved, block0 := 0, granules := t.granules, fetchRefs := [], saved := s.segmentsOf h t,
      streams := xs.map (fun p => s.saveStream k p.2),
      gangs := AList.mapVals Gang.absent (fun gg => { gg with frontier := gg.frontier.map Entry.forSave }) t.gangs }
    let s := (List.range xs.length).foldl (fun s j =>
      match xs[j]? with
      | some p => ((s.moveNotices (.stream k p.1) (.stream key j)).dropStreamWait k p.1).modCluster k (Cluster.removeStream p.1)
      | none => s) s
    let s := (s.rekey h key).forgetTask h
    (s.setTask h none).setTask key (some t')

/-- PREEMPT_SAVE: once every task of the unit that still lives is drained. -/
def State.preemptSave (s : State) (h : Nat) : Option State :=
  match s.task h with
  | none => none
  | some t =>
    if t.phase ≠ .stopping ∨ t.fate ≠ .alive then none
    else
      let us := (s.unit h).filter fun u => match s.task u with
        | some x => x.phase == .stopping && x.fate == .alive
        | none => false
      if us.all fun u => match s.task u with
        | some x => s.drainedTask u x
        | none => true
      then some (us.foldl State.save1 s) else none

/-- PREEMPT_SAVE. -/
def execPreemptSave (h : Nat) (s : State) : Out := event (s.preemptSave h) s

/-! ## Restore (21 R377) -/

/-- Instruction slots that a core could give to a saved task: empty, or idle and holding none of its segments. -/
def State.freeSlots (s : State) (c : Nat) (ctx kobj : Nat) (segs : List Nat) : Nat :=
  ((List.range 16).filter fun i => match AList.get none (s.core c).islots i with
    | none => true
    | some x => s.slotIdle c x && !(x.ctx == ctx && x.kobj == kobj && segs.contains x.seg)).length

/-- Whether a core and its cluster take a saved task. -/
def State.restorable (s : State) (c : Nat) (t : Task) : Bool :=
  let segs := t.saved.map Prod.fst
  let kobj := s.kobjOf t
  let k := clusterOf c
  let freeTiles := ((List.range 8).filter fun p => (AList.get Tile.free (s.cluster k).tiles p).owner.isNone).length
  let freeStreams := ((List.range 4).filter fun i => (s.stream k i).isNone).length
  decide (c < 192) && (s.die (dieOf c)).online && s.dieAwake (dieOf c) && !((s.die (dieOf c)).reserved.any fun p => p.2 == c) && s.hasRoom c t.variant &&
    decide ((segs.filter fun x => (s.slotFor c t.ctx kobj x).isNone).length ≤ s.freeSlots c t.ctx kobj segs) &&
    decide (t.streams.length ≤ freeStreams) && decide (sumOf t.streams (fun x => x.tiles.length) ≤ freeTiles)

/-- Puts a saved stream on a cluster: its tiles, then its words, which start first. -/
def State.restoreStream (s : State) (h key k j : Nat) (t : Task) (v : SavedStream) : State :=
  match s.freeStream k with
  | none => s
  | some i =>
    let r := v.tiles.foldl (fun (r : AList (Option Nat) × State) p =>
      match (List.range 8).find? fun q => (AList.get Tile.free (r.2.cluster k).tiles q).owner.isNone with
      | none => r
      | some q =>
        (AList.set none r.1 p.1 (some q), r.2.modCluster k fun c => { c with tiles := AList.set Tile.free c.tiles q { p.2 with owner := some i } }))
      ([], s)
    let ops (post : Bool) : List MatrixOp := (v.words.filter fun w => w.1 == post).map fun w => { w.2 with stream := i }
    let s := r.2.modCluster k fun c => { c with arrayQ := c.arrayQ ++ ops false, postQ := c.postQ ++ ops true }
    (s.putStream k i t.ctx (s.kobjOf t) v.addr v.len { v.stream with h := h, started := false, tiles := r.1 }).moveNotices
      (.stream key j) (.stream k i)

/-- The verdicts that handlers returned while a task was saved take effect (21 R367). -/
def State.applyVerdicts (s : State) (h : Nat) (gangs : AList Gang) : State :=
  gangs.foldl (fun s p => match p.2.verdict with
    | some go => s.handlerVerdict h p.1 go
    | none => s) s

/-- A gang on its new core: its hold latch is empty, its cycle counts are the core's. -/
def Gang.forRestore (gg : Gang) : Gang := { gg with latch := [], cyc := none }

/-- Restores one task on a core: not where a stream of it finds no control-core slot. -/
def State.restore1 (s : State) (key c : Nat) : Option State :=
  match s.task key with
  | none => none
  | some t =>
    match s.freeRun c t.variant.blocks, s.freeSlot c with
    | some b, some slot =>
      if t.phase ≠ .saved ∨ t.fate ≠ .alive ∨ !s.restorable c t then none
      else
        let h := handleOf c slot
        let t' := { t with
          phase := .starting, block0 := b, granules := (s.freeGranules c).take t.variant.gran, saved := [], streams := [],
          gangs := AList.mapVals Gang.absent Gang.forRestore t.gangs }
        let s := ((s.setTask key none).putTask c slot t').rekey key h
        let s := t.saved.foldl (fun s p => s.request c t.ctx (s.kobjOf t) p.1 p.2.1 p.2.2 (.restore h)) s
        let s := (List.range t.streams.length).foldl (fun s j =>
          match t.streams[j]? with
          | some v => s.restoreStream h key (clusterOf c) j t v
          | none => s) s
        if (s.streamsOf h).length = t.streams.length then some (s.applyVerdicts h t.gangs) else none
    | _, _ => none

/-- Restores the tasks of a span on a rectangle. -/
def State.restoreSpan (s : State) (d : Nat) (us : List Nat) (r : Rect) : Option State :=
  us.foldl (fun (o : Option State) u => match o with
    | none => none
    | some s => s.restore1 u (r.core d (s.spanPos u % (r.w * r.h)))) (some s)

/-- TASK_RESTORE: a span is restored as one unit, on the rectangle of the core's die that its placement would choose. -/
def State.taskRestore (s : State) (key c : Nat) : Option State :=
  match s.task key with
  | none => none
  | some t =>
    if t.ident.spanidx.isNone then s.restore1 key c
    else
      let us := (s.unit key).filter fun u => match s.task u with
        | some x => x.phase == .saved && x.fate == .alive
        | none => false
      let n := match s.launch t.launch with
        | some l => l.items.length
        | none => 0
      ((rectangles n).foldl (fun (b : Option (Rect × State)) r =>
        match s.restoreSpan (dieOf c) us r with
        | none => b
        | some s' =>
          match b with
          | none => some (r, s')
          | some x => if r.before x.1 then some (r, s') else b) none).map Prod.snd

/-- TASK_RESTORE. -/
def execTaskRestore (idx core : Nat) (s : State) : Out := event (s.taskRestore idx core) s

end Sys2Proof.Machine
end

