-- ==== Sys2Proof/Machine/Pages.lean ====
section
/-!
DEFINITION. Shootdowns, page moves, format windows (09 R190, R193, R194, R196), system software's writes, and soft errors
(21 R378, R379).
-/
namespace Sys2Proof.Machine

open Sys2Proof

/-! ## Shootdowns (09 R190) -/

/-- Issues a shootdown: its number. -/
def State.shoot (s : State) (ctx base len : Nat) (reply : Option Nat) : Nat × State :=
  let (id, s) := s.fresh
  (id, { s with shoots := s.shoots ++ [{ id := id, ctx := ctx, base := base, len := len, reply := reply }] })

/-- Whether `n` bytes at a virtual address meet a shootdown's range. -/
def Shoot.hits (x : Shoot) (ctx va n : Nat) : Bool := x.ctx == ctx && meets (sigVa va) n (sigVa x.base) x.len

/-- Whether an access of the context, already translated in the range, is not yet accepted at its home. A bank command's ranges are its
elements': once those are done, its completion words are translated anew (13 R273, R275): DEDUCED (log 90). -/
def State.shootWaits (s : State) (x : Shoot) : Bool :=
  (s.loads.any fun l => l.lanes.any fun y => !y.landed && x.hits l.ctx y.va l.bytes) ||
  (s.writes.any fun w => w.lanes.any fun y => decide (y.stage < 2) && x.hits w.ctx y.va y.data.length) ||
  (s.atoms.any fun a => a.lanes.any fun y => decide (y.stage = 0) && x.hits a.ctx y.va 16) ||
  (s.bankCmds.any fun b => b.ctx == x.ctx && b.fin.isNone)

/-- A control command's reply: a 4-byte status in host memory (23 R389). -/
def State.sendReply (s : State) (reply : Option Nat) (v : Nat) : State :=
  match reply with
  | none => s
  | some a => s.physWrite (16 * 2 ^ 47 + a) (leBytes 4 v)

/-- SHOOTDOWN_COMPLETE: every TLB entry and L1 line in the range is invalid. -/
def State.shootComplete (s : State) (sd : Nat) : Option State :=
  match s.shoots.find? fun x => x.id == sd with
  | none => none
  | some x =>
    if s.shootWaits x ∨ (x.reply.isSome ∧ s.lehr.level = 4) then none
    else
      let s : State := { s with
        clusters := AList.mapVals Cluster.reset (fun c =>
          { c with tlb := c.tlb.filter fun t => !x.hits t.ctx t.vbase (pageBytes t.leaf.toNat) }) s.clusters }
      let s : State := { s with
        cores := AList.mapVals Core.reset (fun c => { c with l1 := c.l1.filter fun l => !x.hits l.ctx (128 * l.vline) 128 }) s.cores }
      some (({ s with shoots := s.shoots.filter fun y => y.id != sd } : State).sendReply x.reply 0)

/-- SHOOTDOWN_COMPLETE. -/
def execShootdownComplete (sd : Nat) (s : State) : Out := event (s.shootComplete sd) s

/-! ## Page moves (09 Table 9-4) -/

/-- The slots of a page whose leaf stands at `slot`. -/
def pageSlots (e slot : Nat) : List Nat :=
  let n := 2 ^ (if pteSize e ≤ 8 then pteSize e else pteSize e - 9)
  (List.range n).map fun j => (slot / (8 * n)) * (8 * n) + 8 * j

def State.pageMove (s : State) (die m : Nat) : Option PageMove := (s.die die).moves.find? fun x => x.id == m
def State.modMove (s : State) (die m : Nat) (f : PageMove → PageMove) : State :=
  s.modDie die fun d => { d with moves := d.moves.map fun x => if x.id = m then f x else x }

/-- Rewrites the slots of a page in ascending order. -/
def State.mapSlots (s : State) (l : List Nat) (f : Nat → Nat) : State :=
  l.foldl (fun s a => { s with mem := Memory.writeBytes s.mem a (leBytes 8 (f (Memory.readNat s.mem a 8))) }) s

/-- Sets or clears MIG, and replaces FRAME, in a slot. -/
def setMig (e : Nat) : Nat := if pteMig e then e else e + 2 ^ 52
def clearMig (e : Nat) : Nat := if pteMig e then e - 2 ^ 52 else e
def setFrame (new e : Nat) : Nat := e - pteFrame e * 4096 + new

/-- A move's next shootdown. -/
def State.moveShoot (s : State) (die : Nat) (x : PageMove) (st : MoveState) : State :=
  let r := s.shoot x.ctx x.va x.size none
  r.2.modMove die x.id fun y => { y with sd := r.1, st := st }

/-- Whether a move's shootdown has completed. -/
def State.moveShot (s : State) (x : PageMove) : Bool := s.shoots.all fun y => y.id != x.sd

/-- The leaves under a table. -/
def leavesFrom (m : Memory) (table : Nat) (level : Nat) : List Nat :=
  (List.range 512).flatMap fun i =>
    let e := Memory.readNat m (table + 8 * i) 8
    if !pteV e then []
    else
      match level with
      | 0 => if pteT e then [] else [e]
      | n + 1 => if pteT e then leavesFrom m (pteFrame e * 4096) n else [e]

/-- The frames that contexts map, and those that moves fill, with their sizes. -/
def State.frames (s : State) : List (Nat × Nat) :=
  ((s.contexts.flatMap fun p => match p.2 with
    | some c => (c.desc.roots.flatMap fun r => leavesFrom s.mem r.2 3).map fun e => (pteFrame e * 4096, pageBytes e)
    | none => []) ++ s.dies.flatMap fun p => p.2.moves.map fun x => (x.new, x.size)).eraseDups

/-- Bytes of a home that no such frame takes (log 72). -/
def State.freeBytes (s : State) (home : Nat) : Nat :=
  populated home - sumOf (s.frames.filter fun p => homeOf p.1 == home) Prod.snd

/-- Whether a home may take a page of an evacuated die: HBM of another die that is online or, while none has room for it, the second
tier (09 R198). -/
def State.takesPage (s : State) (die n home : Nat) : Bool :=
  let hbm (h : Nat) : Bool := decide (h < 4) && h != die && (s.die h).online && decide (n ≤ s.freeBytes h)
  hbm home || (decide (8 ≤ home) && decide (home < 16) && ownerDie home != die && (s.die (ownerDie home)).online &&
    !((List.range 4).any hbm))

/-- What the resident kernel does at some addresses; where they cannot be accessed, the package first leaves its state (23 R397). -/
def State.kernelAccess (s : State) (pas : List Nat) (r : Option State) : Option State :=
  if pas.all s.awake then r
  else if s.lehr.exit.isSome then none
  else some { s with lehr := { s.lehr with exit := some (if pas.any fun pa => decide (1 ≤ homeOf pa) && decide (homeOf pa ≤ 3) then 2 else 3) } }

/-- Whether a move can read and write its slots and its two frames. -/
def State.moveAwake (s : State) (x : PageMove) : Bool := x.slots.all s.awake && s.awake x.old && s.awake x.new

/-- PAGE_MOVE_REQUEST: a page of a home of the die, to a free frame of the resident kernel's choice. -/
def State.moveRequest (s : State) (die ctx va frame : Nat) : Option State :=
  s.kernelAccess (s.asleepTable ctx).toList <| match s.walk ctx va with
  | .page _ _ => none
  | .leaf e slot =>
    let n := pageBytes e
    if 4 ≤ die ∨ ownerDie (homeOf (pteFrame e * 4096)) ≠ die ∨ 15 < homeOf (pteFrame e * 4096) ∨ pteMig e ∨ frame % n ≠ 0 ∨ !inHome frame n ∨
        ((s.die die).evacuating && !s.takesPage die n (homeOf frame)) then none
    else
      let slots := pageSlots e slot
      let (id, s) := s.fresh
      let x : PageMove :=
        { id := id, sd := 0, ctx := ctx, va := sigVa va / n * n, slots := slots, size := n, old := pteFrame e * 4096, new := frame, st := .protect }
      some (((s.mapSlots slots setMig).modDie die fun d => { d with moves := d.moves ++ [x] }).moveShoot die x .protect)

/-- PAGE_MOVE_REQUEST. -/
def execPageMoveRequest (die ctx va frame : Nat) (s : State) : Out := event (s.moveRequest die ctx va frame) s

/-- An event of a move in a state, once its shootdown is complete and its homes can be accessed. -/
def State.moveEvent (s : State) (die m : Nat) (st : MoveState) (shot : Bool) (k : PageMove → State → Option State) : Option State :=
  match s.pageMove die m with
  | none => none
  | some x => if x.st = st && (!shot || s.moveShot x) && s.moveAwake x then k x s else none

/-- MOVE_PROTECT_DONE: every write-through accepted for the page has reached the old frame. -/
def execMoveProtectDone (die m : Nat) (s : State) : Out :=
  event (s.moveEvent die m .protect true fun x s =>
    if s.writes.any fun w => w.lanes.any fun y => decide (y.stage < 2) && meets y.pa y.data.length x.old x.size then none
    else some (s.modMove die m fun y => { y with st := .copy })) s

/-- Copies 128 bytes with their poison, as reads and writes at the two homes: alias ranges are decoded (09 R193, R197). -/
def State.copyLine (s : State) (old new : Nat) : State :=
  let bs := s.homeRead old 128
  (List.range 32).foldl (fun s j => s.markPoison (new + 4 * j) 4 (bs.getD (4 * j) (0, false)).2) (s.homeWrite new (bs.map Prod.fst))

/-- Copies a page; no copy of the new frame is left in a cache, and its cells arrive with their sticky flags clear (13 R277). -/
def State.copyPage (s : State) (x : PageMove) : State :=
  let lo := x.new / 128
  let hi := (x.new + x.size) / 128
  let s := (List.range (x.size / 128)).foldl (fun s j => s.copyLine (x.old + 128 * j) (x.new + 128 * j)) s
  { s with
    sticky := s.sticky.filter fun p => decide (8 * p.1 < x.new) || decide (x.new + x.size ≤ 8 * p.1),
    cores := AList.mapVals Core.reset (fun c => { c with l1 := c.l1.filter fun l => decide (l.pline < lo) || decide (hi ≤ l.pline) }) s.cores,
    dies := AList.mapVals Die.reset (fun d => { d with guest := d.guest.filter fun l => decide (l.pline < lo) || decide (hi ≤ l.pline) }) s.dies }

/-- MOVE_COPY_DONE: the last line is copied; each slot takes the new FRAME, with MIG = 0 where the page has one slot. -/
def execMoveCopyDone (die m : Nat) (s : State) : Out :=
  event (s.moveEvent die m .copy false fun x s =>
    some (((s.copyPage x).mapSlots x.slots fun e => let e := setFrame x.new e; if x.slots.length = 1 then clearMig e else e).moveShoot die x .commit)) s

/-- MOVE_COPY_ABORT: the destination cannot be written; MIG is cleared in every slot. -/
def execMoveCopyAbort (die m : Nat) (s : State) : Out :=
  event (s.moveEvent die m .copy false fun x s =>
    some (((s.mapSlots x.slots clearMig).modDie die fun d => { d with aborts := d.aborts + 1 }).moveShoot die x .abort)) s

/-- MOVE_COMMIT_DONE: each slot's MIG is cleared in ascending order. -/
def execMoveCommitDone (die m : Nat) (s : State) : Out :=
  event (s.moveEvent die m .commit true fun x s => some ((s.mapSlots x.slots clearMig).moveShoot die x .release)) s

/-- Lanes and streams blocked on a migration issue again (09 R194). -/
def State.wakeMigration (s : State) : State :=
  let wake (gg : Gang) : Gang := { gg with frontier := gg.frontier.map fun e => if e.st = .migration then { e with st := .ready } else e }
  let s : State := { s with tasks := AList.mapVals none (fun o => o.map fun t => { t with gangs := AList.mapVals Gang.absent wake t.gangs }) s.tasks }
  { s with clusters := AList.mapVals Cluster.reset (fun c =>
      { c with streams := c.streams.map fun p => (p.1, p.2.map fun x => if x.st = .migration then { x with st := .ready } else x) }) s.clusters }

/-- MOVE_IDLE: a released or aborted move is over. -/
def State.moveIdle (s : State) (die m : Nat) : Option State :=
  match s.pageMove die m with
  | none => none
  | some x =>
    if (x.st = .release ∨ x.st = .abort) ∧ s.moveShot x then
      some (s.modDie die fun d => { d with moves := d.moves.filter fun y => y.id != m }).wakeMigration
    else none

/-- MOVE_IDLE. -/
def execMoveIdle (die m : Nat) (s : State) : Out := event (s.moveIdle die m) s

/-! ## Format windows (09 R196) -/

/-- The encoded and the alias range of a window, as offset and length. -/
def FmtWindow.encRange (w : FmtWindow) : Nat × Nat := (w.enc, w.nblk * w.blockBytes)
def FmtWindow.aliasRange (w : FmtWindow) : Nat × Nat := (w.alias_, 64 * w.nblk)

/-- Whether an enable is accepted beside the other windows of its home. -/
def FmtWindow.ok (w : FmtWindow) (die : Nat) (others : List FmtWindow) : Bool :=
  let overlap (a b : Nat × Nat) : Bool := meets a.1 a.2 b.1 b.2
  let inside (a : Nat × Nat) : Bool := decide (a.1 + a.2 ≤ populated die)
  (w.fmt == 12 || w.fmt == 14 || w.fmt == 15) && w.nblk != 0 && w.nblk % 64 == 0 && inside w.encRange && inside w.aliasRange &&
    !overlap w.encRange w.aliasRange &&
    others.all fun v => !v.en || [v.encRange, v.aliasRange].all fun r => !overlap w.encRange r && !overlap w.aliasRange r

/-- FORMAT_WINDOW_ENABLE: a write of EN = 1 to a window whose EN is 0; a refused one leaves EN at 0. -/
def State.windowEnable (s : State) (die win v : Nat) : Option State :=
  let w := AList.get FmtWindow.reset (s.die die).windows win
  if !s.booted ∨ 4 ≤ die ∨ 8 ≤ win ∨ w.en ∨ !v.testBit 0 then none
  else
    let w := { w with fmt := bits v 7 4 }
    let others := ((List.range 8).filter fun i => i != win).map fun i => AList.get FmtWindow.reset (s.die die).windows i
    some (s.modDie die fun d => { d with windows := AList.set FmtWindow.reset d.windows win { w with en := w.ok die others } })

/-- FORMAT_WINDOW_ENABLE. -/
def execFormatWindowEnable (die win : Nat) (value : DWord) (s : State) : Out := event (s.windowEnable die win value.toNat) s

/-! ## System software and soft errors -/

/-- SYSTEM_SOFTWARE_MEMORY_WRITE: bytes written at their home, outside any task. -/
def execSystemSoftwareMemoryWrite (pa : Nat) (data : List Byte) (s : State) : Out := event (s.kernelAccess [pa] (some (s.physWrite pa data))) s

/-- CORRECTED_ERROR: counted per die, and nothing else (21 R378). -/
def execCorrectedError (die : Nat) (s : State) : Out := .next (s.modDie die fun d => { d with corrected := d.corrected + 1 })

/-- Poisons a word of an instruction slot. -/
def ISlot.spoil (w : Nat) (o : Option ISlot) : Option ISlot := o.map fun x => { x with poison := AList.set false x.poison w true }

/-- Poisons a word of a cached line. -/
def spoilLine (w : Nat) (l : List PByte) : List PByte :=
  (List.range l.length).map fun i => let b := l.getD i (0, false); (b.1, b.2 || i / 4 == w)

/-- UNCORRECTABLE_ERROR: the data it affects is poisoned where it is held; a translation is walked again (21 R379, log 57). -/
def State.spoil (s : State) (p : PoisonTarget) : State :=
  match p with
  | .memory w => { s with memPoison := AList.set false s.memPoison w true }
  | .l1 c ctx v w =>
    s.modCore c fun x => { x with l1 := x.l1.map fun l => if l.ctx = ctx ∧ l.vline = v then { l with data := spoilLine w l.data } else l }
  | .guest d p w => s.modDie d fun x => { x with guest := x.guest.map fun l => if l.pline = p then { l with data := spoilLine w l.data } else l }
  | .tlb k ctx va => s.modCluster k fun c => { c with tlb := c.tlb.filter fun t => !(t.ctx == ctx && t.vbase == va) }
  | .scratchpad h w => s.modTask h fun t => { t with scratchPoison := AList.set false t.scratchPoison w true }
  | .register h g lane e => s.modGang h g fun gg => gg.modThread lane fun t => { t with poison := AList.set false t.poison e true }
  | .queue h q n lane =>
    s.modTask h fun t => t.setQueue q ((t.queue q).modify n fun x => { x with poison := x.poison ||| laneBit lane })
  | .spill h w => s.modTask h fun t => { t with spillPoison := AList.set false t.spillPoison w true }
  | .tile k i e => s.modTile k i fun t => { t with poison := AList.set false t.poison e true }
  | .accum h g n => s.modGang h g fun gg => { gg with accPoison := AList.set false gg.accPoison n true }
  | .code c i w => s.modCore c fun x => { x with islots := AList.set none x.islots i (ISlot.spoil w (AList.get none x.islots i)) }
  | .streamCode k i w => s.modCluster k fun x => { x with mslots := AList.set none x.mslots i (ISlot.spoil w (AList.get none x.mslots i)) }

/-- UNCORRECTABLE_ERROR. -/
def execUncorrectableError (p : PoisonTarget) (s : State) : Out := .next (s.spoil p)

end Sys2Proof.Machine
end

