-- ==== Sys2Proof/Machine/Host.lean ====
section
/-!
DEFINITION. The host and the resident kernel: command queues and control commands, contexts, device registers, boot and
quotes, hand-over, links, reduction payloads, Lehr states (23 R384-R401, 03 R49, R50, 11 R264, 09 R198).
-/
namespace Sys2Proof.Machine

open Sys2Proof

/-! ## Host command queues (23 R385-R389) -/

def State.hostQ (s : State) (die q : Nat) : HostQueue := AList.get HostQueue.reset (s.die die).hostQs q
def State.modHostQ (s : State) (die q : Nat) (f : HostQueue → HostQueue) : State :=
  s.modDie die fun d => { d with hostQs := AList.modify HostQueue.reset d.hostQs q f }

/-- Whether an enable with these fields is accepted (23 R386). -/
def State.queueValid (s : State) (x : HostQueue) : Bool :=
  x.logn != 0 && decide (x.logn ≤ 12) && decide (x.base % (128 * 2 ^ x.logn) = 0) && (x.ctx == 0 || s.created x.ctx)

/-- QUEUE_ENABLE: a write of EN = 1, with the LOGN and CTX it carries. -/
def State.queueEnable (s : State) (die q v : Nat) : Option State :=
  let x := s.hostQ die q
  if !s.booted ∨ 4 ≤ die ∨ 16 ≤ q ∨ x.en ∨ !v.testBit 0 then none
  else
    let y := { x with logn := bits v 6 2, ctx := bits v 31 16 }
    some (s.modHostQ die q fun _ =>
      if s.queueValid y then { y with en := true, badcfg := false, err := false, head := 0, tail := 0 } else { x with badcfg := true })

/-- QUEUE_ENABLE. -/
def execQueueEnable (die q : Nat) (value : DWord) (s : State) : Out := event (s.queueEnable die q value.toNat) s

/-- QUEUE_DISABLE: a write of EN = 0. -/
def execQueueDisable (die q : Nat) (s : State) : Out :=
  event (if s.booted && (s.hostQ die q).en then some (s.modHostQ die q fun x => { x with en := false }) else none) s

/-- A write to TAIL (23 R387, R388). -/
def HostQueue.doorbell (x : HostQueue) (tail : Word) : HostQueue :=
  if x.en && !x.err && decide (2 ^ x.logn < (tail - x.head).toNat) then { x with tail := tail, err := true } else { x with tail := tail }

/-- DOORBELL. -/
def execDoorbell (die q : Nat) (tail : Word) (s : State) : Out :=
  event (if s.booted ∧ die < 4 ∧ q < 16 then some (s.modHostQ die q fun x => x.doorbell tail) else none) s

/-- A control command's fields, as its operation lays them out (23 Table 23-2). -/
def controlOf (op : Nat) (bs : List Byte) : ControlCmd :=
  let z : ControlCmd :=
    { ctx := 0, vbase := 0, length := 0, die := 0, nonce := [], address := 0, imageLen := 0, tolerance := 0, reply := some (field bs 8 8) }
  match op with
  | 1 => { z with ctx := field bs 16 2, vbase := field bs 24 8, length := field bs 32 8 }
  | 2 => { z with die := field bs 16 1 }
  | 3 => { z with ctx := field bs 16 2 }
  | 4 => { z with nonce := (bs.drop 16).take 32, address := field bs 48 8 }
  | 5 => { z with address := field bs 16 8, imageLen := field bs 24 4 }
  | _ => { z with tolerance := field bs 16 4 }

/-- Takes a control command: skipped with 0xFFFF_FFFF on a queue or with an operation that is not legal, or with a misaligned
address; `lost` names the words that are poisoned: with one of its own it is skipped likewise, with one of REPLY without a reply. DESIGN
CHOICE (log 69). -/
def State.takeControl (s : State) (queue ctx : Nat) (bs : List Byte) (lost : List Nat) : State :=
  let op := field bs 2 2
  let c := controlOf op bs
  let aligned := (op != 4 || decide (c.address % 8 = 0)) && (op != 5 || decide (c.address % 4096 = 0))
  if field bs 8 8 % 4 ≠ 0 ∨ lost.contains 2 ∨ lost.contains 3 then s
  else if ctx ≠ 0 ∨ op = 0 ∨ 6 < op ∨ !aligned ∨ lost ≠ [] then s.sendReply c.reply 0xFFFFFFFF
  else { s with cmds := s.cmds ++ [{ queue := queue, op := op, cmd := c, begun := false }] }

/-- QUEUE_ENTRY_TAKE: the entry at HEAD is read with a system-scope acquire of the die and submitted or dispatched; HEAD advances. A launch
of a system queue has no completion record (23 R389); one with a poisoned word is refused as its words show (11 R234). -/
def State.entryTake (s : State) (die q : Nat) : Option State :=
  let x := s.hostQ die q
  if !x.en ∨ x.err ∨ x.head = x.tail ∨ !s.accepting ∨ s.lehr.level = 4 then none
  else
    let r := s.physRead (16 * 2 ^ 47 + x.base + 128 * (x.head.toNat % 2 ^ x.logn)) 128
    let bs := r.map Prod.fst
    let lost := lostWords r
    let s := (s.modDie die fun d => { d with guest := dropClean d.guest }).modHostQ die q fun y => { y with head := y.head + 1 }
    if !lost.contains 0 && field bs 0 2 == 0x8001 then some (s.takeControl (die * 16 + q) x.ctx bs lost)
    else
      let p := packetRead r
      some (s.submit x.ctx die none (if x.ctx = 0 then { p with crec := 0 } else p) (x.ctx == 0)).2

/-- QUEUE_ENTRY_TAKE. -/
def execQueueEntryTake (die q : Nat) (s : State) : Out := event (s.entryTake die q) s

/-! ## Control commands (23 Table 23-2) -/

/-- The first command of the oldest order of its queue that is this one; none while the package stands by (23 R397). -/
def State.findCmd (s : State) (op : Nat) (c : ControlCmd) : Option HostCmd :=
  if s.lehr.level = 4 then none
  else s.cmds.find? fun x => x.op == op && x.cmd == c && ((s.cmds.find? fun y => y.queue == x.queue) == some x)

/-- Performs a command: system software's own, or one taken from a queue, in the order of the queue. -/
def State.command (s : State) (op : Nat) (c : ControlCmd) (k : State → Option State) : Option State :=
  match c.reply with
  | none => k s
  | some _ => (s.findCmd op c).bind fun x => k { s with cmds := s.cmds.erase x }

/-- SHOOTDOWN. -/
def execShootdown (c : ControlCmd) (s : State) : Out :=
  event (s.command 1 c fun s =>
    some (if s.created c.ctx then (s.shoot c.ctx c.vbase c.length c.reply).2 else s.sendReply c.reply 4)) s

/-- The pages homed on a die. -/
def State.pagesOn (s : State) (die : Nat) : List (Nat × Nat) :=
  s.frames.filter fun p => decide (homeOf p.1 < 16) && ownerDie (homeOf p.1) == die

/-- Whether the other dies' HBM and second tier can hold the pages of a die (09 R198, log 72). -/
def State.canEvacuate (s : State) (die : Nat) : Bool :=
  let homes := ((List.range 4) ++ (List.range 8).map (8 + ·)).filter fun h => ownerDie h != die && (s.die (ownerDie h)).online
  decide (sumOf (s.pagesOn die) Prod.snd ≤ sumOf homes s.freeBytes)

/-- Whether a command is the next of its queue to be done, or system software's own. -/
def State.dueCmd (s : State) (op : Nat) (c : ControlCmd) : Bool := c.reply.isNone || (s.findCmd op c).isSome

/-- TAKE_DIE_OFFLINE (09 R198): refused where the die's pages find no room; else the die is evacuated by page moves, and goes offline at
this event's return, when no page is left on it and every move of one is over. A number above 3 names no die, and R198 gives no reply for
it: DESIGN CHOICE, 1 (log 54). -/
def State.takeDieOffline (s : State) (c : ControlCmd) : Option State :=
  let busy := s.pagesOn c.die != [] || (s.die c.die).moves != []
  if c.die < 4 ∧ busy ∧ ((s.die c.die).evacuating ∨ s.canEvacuate c.die) then
    if s.dueCmd 2 c ∧ !(s.die c.die).evacuating then some (s.modDie c.die fun d => { d with evacuating := true }) else none
  else
    s.command 2 c fun s =>
      some (if 4 ≤ c.die ∨ busy then s.sendReply c.reply 1
        else (s.modDie c.die fun d => { d with online := false, evacuating := false }).sendReply c.reply 0)

/-- TAKE_DIE_OFFLINE. -/
def execTakeDieOffline (c : ControlCmd) (s : State) : Out := event (s.takeDieOffline c) s

/-- The tasks and queued tasks of a context. -/
def State.tasksOf (s : State) (ctx : Nat) : List Nat :=
  s.tasks.filterMap fun p => match p.2 with
    | some t => if t.ctx = ctx ∧ t.fate = .alive then some p.1 else none
    | none => none

/-- Removes a context's tasks from a die's home queues, with what is counted and reserved for them, and its launches from its merge
windows. -/
def Die.dropCtx (d : Die) (mine : Nat → Bool) : Die :=
  { d with homeQ := AList.mapVals [] (fun l => l.filter fun q => !mine q.launch) d.homeQ,
           bypass := d.bypass.filter fun p => !mine p.1.launch, reserved := d.reserved.filter fun p => !mine p.1.launch,
           mergeWindows := d.mergeWindows.filter fun w => !w.children.any mine }

/-- A killed launch: its walk is stopped, unless it is over, and its queued tasks have ended (11 Table 11-8). -/
def Launch.kill (queued : Nat) (l : Launch) : Launch :=
  if l.phase = .complete then l
  else { l with killed := true, phase := if l.phase = .done then .done else .stopped, ended := l.ended + queued }

/-- Tears a context down (11 R264, 21 R371). Its TLB entries stay until a shootdown; the spec does not say (log 74). -/
def State.tearDown (s : State) (ctx : Nat) : State :=
  let mine (n : Nat) : Bool := match s.launch n with
    | some l => l.ctx == ctx
    | none => false
  let queued := s.dies.flatMap fun p => (p.2.homeQ.flatMap fun v => v.2).filter fun q => mine q.launch
  let weight (n : Nat) (q : QTask) : Nat :=
    if q.launch ≠ n then 0 else if q.isSpan then (match s.launch n with
      | some l => l.created
      | none => 0) else 1
  let s := (s.tasksOf ctx).foldl State.killTask s
  let s : State := { s with dies := AList.mapVals Die.reset (fun d => d.dropCtx mine) s.dies }
  let s := s.launches.foldl (fun s p =>
    if mine p.1 then s.modLaunch p.1 (Launch.kill (sumOf queued (weight p.1))) else s) s
  s.modContext ctx fun c => { c with torn := true }

/-- TEAR_DOWN_CONTEXT: every task and launch is killed; the reply to a queue's command follows once the killed tasks have ended. -/
def State.tearDownCmd (s : State) (c : ControlCmd) : Option State :=
  let gone (s : State) : Bool := s.tasks.all fun p => p.2.all fun t => t.ctx != c.ctx
  match s.findCmd 3 c with
  | some x =>
    if c.reply.isNone then s.command 3 c fun s => some (if s.created c.ctx then s.tearDown c.ctx else s)
    else if x.begun then (if gone s then some (({ s with cmds := s.cmds.erase x } : State).sendReply c.reply 0) else none)
    else if s.created c.ctx then
      let s := s.tearDown c.ctx
      some (if gone s then ({ s with cmds := s.cmds.erase x } : State).sendReply c.reply 0
        else { s with cmds := s.cmds.map fun y => if y = x then { x with begun := true } else y })
    else some (({ s with cmds := s.cmds.erase x } : State).sendReply c.reply 4)
  | none => s.command 3 c fun s => some (if s.created c.ctx then s.tearDown c.ctx else s)

/-- TEAR_DOWN_CONTEXT. -/
def execTearDownContext (c : ControlCmd) (s : State) : Out := event (s.tearDownCmd c) s

/-- The bytes of a digest, most significant first. -/
def digestBytes (x : BitVec 256) : List Byte := beBytes 32 x.toNat

/-- The measurement-log digest: over its entries, oldest first. -/
def Boot.logDigest (b : Boot) : BitVec 256 := sha256 (b.log.reverse.flatMap digestBytes)

/-- The signature of a quote (23 R392), 384 bytes. -/
def State.quoteBytes (s : State) (nonce : List Byte) : List Byte :=
  let sig := Config.sign (digestBytes (sha256 (nonce ++ digestBytes s.boot.logDigest ++ leBytes 2 s.hand.gen.toNat)))
  (List.range 384).map fun i => sig.getD i 0

/-- QUOTE: answered by the kernel that runs (23 R395). -/
def execQuote (c : ControlCmd) (s : State) : Out :=
  event (s.command 4 c fun s =>
    if s.hand.st = .adopting ∨ !s.booted then none
    else some ((s.physWrite (16 * 2 ^ 47 + c.address) (s.quoteBytes c.nonce)).sendReply c.reply 0)) s

/-- Whether the resident-kernel ABI has no version in common (23 R401). -/
def State.abiRefused (s : State) : Bool := s.versions.any fun p => p.1 == .kernelAbi && p.2.isNone

/-- STAGE_SUCCESSOR_KERNEL (23 R393): the image is copied into the 256 MiB reserved region, which holds what fits of it, and verified
there; a longer one is refused as its signature is (log 69). -/
def execStageSuccessorKernel (c : ControlCmd) (s : State) : Out :=
  event (s.command 5 c fun s =>
    if s.hand.st ≠ .running then none
    else
      let image := (s.physRead (16 * 2 ^ 47 + c.address) (min c.imageLen (2 ^ 28))).map Prod.fst
      let s : State := { s with hand := { s.hand with region := image } }
      if 2 ^ 28 < c.imageLen || !Config.imageValid image then some (s.sendReply c.reply 2)
      else if s.abiRefused || !Config.imageInterfaces image then some (s.sendReply c.reply 3)
      else some (({ s with hand := { s.hand with st := .staged, image := some (sha256 image) } } : State).sendReply c.reply 0)) s

/-! ## Lehr states (23 R397, R398) -/

/-- Exit latency of a state in microseconds. -/
def lehrLatency (n : Nat) : Nat :=
  match n with
  | 0 => 0
  | 1 => 2
  | 2 => 20
  | 3 => 200
  | _ => 5000

/-- The deepest state that a tolerance allows. -/
def lehrAllowed (tol : Nat) : Nat := ((List.range 5).filter fun n => decide (lehrLatency n ≤ tol)).getLastD 0

/-- Whether a state's condition holds: no work is there that it would have to leave for. -/
def State.lehrHolds (s : State) (n : Nat) : Bool :=
  let idle := s.clusters.all fun p => p.2.streams.all fun q => q.2.isNone
  let resident (p : Nat → Bool) : Bool := s.tasks.any fun q => q.2.isSome && decide (q.1 < 3072) && p (hDie q.1)
  match n with
  | 0 => true
  | 1 => true
  | 2 => idle
  | 3 => idle && !resident fun d => d != 0
  | _ => idle && !resident fun _ => true

/-- LATENCY_TOLERANCE: it takes effect at once; a deeper state is left. -/
def execLatencyTolerance (c : ControlCmd) (s : State) : Out :=
  event (s.command 6 c fun s =>
    let l := s.lehr
    let n := lehrAllowed c.tolerance
    some (({ s with lehr := { l with tolerance := c.tolerance, level := if n < l.level then n else l.level,
                                     exit := if n < l.level then none else l.exit } } : State).sendReply c.reply 0)) s

/-- LEHR_ENTRY: the deepest state that the tolerance and the conditions allow. -/
def execLehrEntry (s : State) : Out :=
  event (
    let n := ((List.range 5).filter fun n => decide (lehrLatency n ≤ s.lehr.tolerance) && s.lehrHolds n).getLastD 0
    if s.lehr.exit.isNone ∧ s.lehr.level < n then some { s with lehr := { s.lehr with level := n } } else none) s

/-- Whether an unfinished access names a home with a property: a load, store or atomic. -/
def State.accesses (s : State) (p : Nat → Bool) : Bool :=
  (s.loads.any fun x => x.lanes.any fun l => !l.landed && p l.pa) ||
  (s.writes.any fun x => x.lanes.any fun l => decide (l.stage < 2) && p l.pa) ||
  (s.atoms.any fun x => x.lanes.any fun l => decide (l.stage = 0) && p l.pa)

/-- Whether a launch is still to be accepted or walked. -/
def LPhase.walks (p : LPhase) : Bool :=
  match p with
  | .accept | .acceptSuspended | .merging | .walking | .suspended => true
  | .stopped | .done | .complete => false

/-- Whether a launch is still to write its completion record. -/
def Launch.toRecord (l : Launch) : Bool := l.phase != .complete || l.crecWait

/-- Whether a word waits to read at a home that cannot be accessed, or to copy a launch packet. -/
def State.waitsAwake (s : State) (st : EState) : Bool :=
  match st with
  | .stall (.asleep pa) => !s.awake pa
  | .stall (.launch _ _) => true
  | _ => false

/-- Whether a unit is to access memory: a launch unit, a segment fetch, a task's start, a bank command, a merge, the copies of a building
generation. -/
def State.unitReads (s : State) : Bool :=
  (s.launches.any fun q => q.2.any Launch.toRecord) || s.fetches != [] || s.bankCmds != [] || s.merges != [] ||
    (s.tasks.any fun q => q.2.any fun t => t.phase == .starting) || s.engine.slots.any fun x => x.2.adds != []

/-- Whether the placement engine is to access its counters or tables, or a migration engine the frames and slots of a page. -/
def State.engineWork (s : State) : Bool :=
  s.experts != [] || (s.engine.en && decide (s.engine.evaluated < s.engine.closesSent)) ||
    s.dies.any fun p => p.2.moves != [] || p.2.evacuating || p.2.closing != 0

/-- The states that the work at hand needs, each with that work (23 R397): a doorbell, a command, a launch, a task to place or restore, an
access to a self-refreshing home by a word, a unit or an engine, a transfer, an MSTART. -/
def State.lehrNeeds (s : State) : List (Nat × Bool) :=
  let queued (p : Nat → Bool) : Bool := s.dies.any fun d => p d.1 && d.2.headTask.isSome
  let slot (st : EState) : Bool := match st with
    | .stall (.streamSlot _) => true
    | _ => false
  let task (p : Task → Bool) : Bool := s.tasks.any fun q => q.2.any p
  let entry (p : EState → Bool) : Bool := task fun t => t.gangs.any fun g => g.2.frontier.any fun e => p e.st
  let stream (p : EState → Bool) : Bool := s.clusters.any fun c => c.2.streams.any fun q => q.2.any fun x => p x.st
  [(3, s.cmds != []), (3, s.shoots.any fun x => x.reply.isSome), (3, s.engineWork), (2, s.engineWork && !s.engineAwake),
   (2, s.dies.any fun p => p.2.evacuating || p.2.moves.any fun x => !s.moveAwake x),
   (3, s.dies.any fun d => d.2.hostQs.any fun q => q.2.en && !q.2.err && q.2.head != q.2.tail),
   (3, s.launches.any fun q => q.2.any fun l => l.phase.walks),
   (3, queued fun d => d == 0), (2, queued fun d => d != 0), (2, task fun t => t.phase == .saved),
   (3, s.accesses fun _ => true), (2, s.accesses fun pa => !s.awake pa), (2, s.transfers != []),
   (2, entry s.waitsAwake), (2, stream s.waitsAwake), (2, s.unitReads), (1, entry slot)]

/-- LEHR_EXIT: work at hand needs a lower state. -/
def execLehrExit (need : Nat) (s : State) : Out :=
  event (if need < s.lehr.level ∧ s.lehr.exit.isNone ∧ (s.lehrNeeds.contains (need, true)) then
    some { s with lehr := { s.lehr with exit := some need } }
  else none) s

/-- LEHR_EXIT_COMPLETE. -/
def execLehrExitComplete (s : State) : Out :=
  event (s.lehr.exit.map fun n => { s with lehr := { s.lehr with level := n, exit := none } }) s

/-! ## Device registers (00 R6, 23 R384) -/

/-- Truth as a bit of a register. -/
def regBit (b : Bool) (i : Nat) : Nat := if b then 2 ^ i else 0

/-- The value of the 8-byte register word of the placement engine at an offset from 0x0002_0000 (19 Table 19-1). -/
def Engine.reg (x : Engine) (o : Nat) : Nat :=
  if o = 0 then regBit x.en 0 + regBit x.freeze 1
  else if o = 8 then x.win
  else if o = 0x10 then x.hot + x.cold * 2 ^ 16 + x.idle * 2 ^ 32 + x.w * 2 ^ 48
  else if o = 0x18 then x.cpyfail + x.wdraw * 2 ^ 32
  else if o < 0x220 then
    let p := x.slot ((o - 0x20) / 0x20)
    match (o - 0x20) % 0x20 / 8 with
    | 0 => regBit p.cen 0 + p.ctx * 2 ^ 16 + p.nexp * 2 ^ 32
    | 1 => p.tbl
    | 2 => p.gen + p.slot * 2 ^ 16 + p.cntoff * 2 ^ 32
    | _ => p.rva
  else if o < 0x260 then
    (if o % 0x10 = 0 then AList.get 0 x.pbase ((o - 0x220) / 0x10) else AList.get 0 x.psize ((o - 0x220) / 0x10))
  else 0

/-- The value of the 8-byte register word at an offset of a die's home 31; FSLOT of a ring that is not open reads 0, as at reset
(log 66). -/
def State.regValue (s : State) (die o : Nat) : Nat :=
  if 0x10000 ≤ o ∧ o < 0x10100 then
    let w := AList.get FmtWindow.reset (s.die die).windows ((o - 0x10000) / 0x20)
    match (o - 0x10000) % 0x20 / 8 with
    | 0 => regBit w.en 0 + w.fmt * 16
    | 1 => w.enc
    | 2 => w.alias_
    | _ => w.nblk
  else if 0x20000 ≤ o ∧ o < 0x20260 then (if die = 0 then s.engine.reg (o - 0x20000) else 0)
  else if 0x30000 ≤ o ∧ o < 0x31000 then
    let r := s.ring die ((o - 0x30000) / 0x40)
    match (o - 0x30000) % 0x40 / 8 with
    | 0 => regBit r.en 0 + r.logn * 2 + r.logsz * 2 ^ 6 + r.scope * 2 ^ 10 + regBit r.dead 13 + r.enerr * 2 ^ 14 + r.ctx * 2 ^ 32
    | 1 => r.base
    | 2 => r.claim.toNat
    | 3 => r.pubp.toNat
    | 4 => r.take.toNat
    | 5 => r.freep.toNat
    | 6 => if r.en then (BitVec.ofNat 32 r.slots - (r.claim - r.freep)).toNat else 0
    | _ => 0
  else if 0x40000 ≤ o ∧ o < 0x40400 then
    let q := s.hostQ die ((o - 0x40000) / 0x40)
    match (o - 0x40000) % 0x40 / 8 with
    | 0 => regBit q.en 0 + regBit q.err 1 + q.logn * 4 + regBit q.badcfg 7 + q.ctx * 2 ^ 16
    | 1 => q.base
    | 2 => q.tail.toNat
    | 3 => q.head.toNat
    | _ => 0
  else
    match Config.guardReg o with
    | none => 0
    | some (i, end_) => let g := AList.get (0, 0) s.guards i; if end_ then g.2 else g.1

/-- Generation 0, current in slot 0 as its context slot is enabled (19 R347, R348). -/
def PlaceSlot.enabled (p : PlaceSlot) : PlaceSlot :=
  { p with gen := 0, slot := 0, epoch := 0, cold := [], pool := [], adds := [], gens := [(0, { st := .current, gen := 0, refs := 1 })] }

/-- A write to the placement engine's registers (19 R342). -/
def Engine.write (x : Engine) (o v : Nat) : Engine :=
  let locked := (List.range 16).any fun j => (x.slot j).cen
  if o = 0 then { x with en := v.testBit 0, freeze := v.testBit 1 }
  else if o = 8 then (if 10 ≤ bits v 15 0 ∧ bits v 15 0 ≤ 10000 then { x with win := bits v 15 0 } else x)
  else if o = 0x10 then { x with hot := bits v 15 0, cold := bits v 31 16, idle := bits v 47 32, w := bits v 55 48 }
  else if o < 0x20 then x
  else if o < 0x220 then
    let j := (o - 0x20) / 0x20
    let p := x.slot j
    let put (p : PlaceSlot) : Engine := { x with slots := AList.set PlaceSlot.reset x.slots j p }
    match (o - 0x20) % 0x20 / 8 with
    | 0 =>
      let q := { p with cen := v.testBit 0, ctx := bits v 31 16, nexp := bits v 47 32 }
      put (if q.cen && !p.cen then q.enabled else q)
    | 1 => if locked then x else put { p with tbl := bits v 51 12 * 4096 }
    | 2 => if locked then x else put { p with cntoff := bits v 56 32 }
    | _ => if locked then x else put { p with rva := bits v 55 0 }
  else if o < 0x260 ∧ !locked then
    let n := (o - 0x220) / 0x10
    if o % 0x10 = 0 then { x with pbase := AList.set 0 x.pbase n (bits v 46 21 * 2 ^ 21) }
    else if bits v 36 21 * 2 ^ 21 ≤ 2 ^ 36 then { x with psize := AList.set 0 x.psize n (bits v 36 21 * 2 ^ 21) }
    else x
  else x

/-- A context slot that a register write enables starts with rot(e) at 0 on every die (19 R351). -/
def State.startRot (s : State) (o v : Nat) : State :=
  let j := (o - 0x20) / 0x20
  if 0x20 ≤ o ∧ o < 0x220 ∧ o % 0x20 = 0 ∧ v.testBit 0 ∧ !(s.engine.slot j).cen then
    { s with dies := AList.mapVals Die.reset (fun d => { d with rot := d.rot.filter fun p => p.1 / 4096 != j }) s.dies }
  else s

/-- A write to a format window's registers; a window's EN := 1 is FORMAT_WINDOW_ENABLE's. -/
def FmtWindow.write (w : FmtWindow) (i v : Nat) : FmtWindow :=
  match i with
  | 0 => if v.testBit 0 then w else if w.en then { w with en := false } else { w with fmt := bits v 7 4 }
  | 1 => if w.en then w else { w with enc := bits v 46 2 * 4 }
  | 2 => if w.en then w else { w with alias_ := bits v 46 12 * 4096 }
  | _ => if w.en then w else { w with nblk := bits v 31 0 }

/-- A write to a ring's registers; a change of EN is RING_ENABLE's or RING_DISABLE's. -/
def Ring.write (r : Ring) (i v : Nat) : Ring :=
  match i with
  | 0 => if v.testBit 0 = r.en then r.withFields v else r
  | 1 => { r with base := bits v 55 0 }
  | _ => r

/-- A write to a host queue's registers; EN and TAIL have events of their own. -/
def HostQueue.write (q : HostQueue) (i v : Nat) : HostQueue :=
  match i with
  | 0 => if q.en || v.testBit 0 then q else { q with logn := bits v 6 2, ctx := bits v 31 16 }
  | 1 => if q.en then q else { q with base := bits v 51 7 * 128 }
  | _ => q

/-- Sets the register word at an offset of a die's home 31; a guard range is set alike in every place that holds a copy (09 R199, log 25). -/
def State.regStore (s : State) (die o v : Nat) : State :=
  if 0x10000 ≤ o ∧ o < 0x10100 then
    s.modDie die fun d => { d with windows := AList.modify FmtWindow.reset d.windows ((o - 0x10000) / 0x20) fun w => w.write ((o - 0x10000) % 0x20 / 8) v }
  else if 0x20000 ≤ o ∧ o < 0x20260 then
    (if die = 0 then { s.startRot (o - 0x20000) v with engine := s.engine.write (o - 0x20000) v } else s)
  else if 0x30000 ≤ o ∧ o < 0x31000 then s.modRing die ((o - 0x30000) / 0x40) fun r => r.write ((o - 0x30000) % 0x40 / 8) v
  else if 0x40000 ≤ o ∧ o < 0x40400 then s.modHostQ die ((o - 0x40000) / 0x40) fun q => q.write ((o - 0x40000) % 0x40 / 8) v
  else
    match Config.guardReg o with
    | none => s
    | some (i, end_) =>
      if i < 272 then
        { s with guards := AList.modify (0, 0) s.guards i fun g => if end_ then (g.1, bits v 47 0) else (bits v 47 0, g.2) }
      else s

/-- What a read of a device register returns: 4 or 8 bytes, naturally aligned; any other reads as all ones (09 R181, 23 R384). -/
def State.registerRead (s : State) (die off size : Nat) : Nat :=
  if (size ≠ 4 ∧ size ≠ 8) ∨ off % size ≠ 0 then 2 ^ (8 * size) - 1
  else s.regValue die (off / 8 * 8) / 2 ^ (8 * (off % 8)) % 2 ^ (8 * size)

/-- The die and the register offset that an offset in BAR0 reaches (23 R384). -/
def barDie (a : Nat) : Nat := a / 2 ^ 26
def barOff (a : Nat) : Nat := a % 2 ^ 26

/-- The physical address of a device register (01 Table 1-1, 09 Table 9-1). -/
def regPa (die off : Nat) : Nat := 31 * 2 ^ 47 + die * 2 ^ 45 + off

/-- What the host, or the management port, reads at an offset of BAR0: nothing but the boot mailbox answers before the resident kernel has
enabled the path (23 R384, R391). -/
def State.barRead (s : State) (a size : Nat) : Option Nat := if s.booted ∧ a < 2 ^ 28 then some (s.registerRead (barDie a) (barOff a) size) else none

/-- REGISTER_WRITE: 4 or 8 bytes, naturally aligned; any other is dropped. A 4-byte write leaves the other half. -/
def State.registerWrite (s : State) (die off size v : Nat) : Option State :=
  if !s.booted ∨ 4 ≤ die ∨ (size ≠ 4 ∧ size ≠ 8) ∨ off % size ≠ 0 then none
  else
    let o := off / 8 * 8
    let old := s.regValue die o
    some (s.regStore die o (if size = 8 then v % 2 ^ 64
      else if off % 8 = 0 then old / 2 ^ 32 * 2 ^ 32 + v % 2 ^ 32
      else v % 2 ^ 32 * 2 ^ 32 + old % 2 ^ 32))

/-- REGISTER_WRITE. -/
def execRegisterWrite (die off size : Nat) (value : DWord) (s : State) : Out := event (s.registerWrite die off size value.toNat) s

/-! ## Contexts (03 R49, R50) -/

/-- Whether a context has no task, resident or saved. -/
def State.noTasks (s : State) (ctx : Nat) : Bool :=
  s.tasks.all fun p => match p.2 with
    | some t => t.ctx != ctx
    | none => true

/-- Whether every launch of a context satisfies a test. -/
def State.launchesOf (s : State) (ctx : Nat) (p : Launch → Bool) : Bool :=
  s.launches.all fun q => match q.2 with
    | some l => l.ctx != ctx || p l
    | none => true

/-- CONTEXT_INSTALL: refused for a map other than 2 and 3; a number in use is not installed again. -/
def execContextInstall (num : Nat) (desc : ContextDesc) (s : State) : Out :=
  event (if (desc.map = 2 ∨ desc.map = 3) ∧ 0 < num ∧ num < 65536 ∧ !s.created num ∧ s.noTasks num ∧ s.launchesOf num fun _ => false then
    some { s with contexts := AList.set none s.contexts num (some { desc := desc, fidx := 0, joins := [], nextSeq := 0, torn := false }) }
  else none) s

/-- A launch that leaves a context's map free to change: not accepted, or completed. A walk stopped before its tensor record was read
was never accepted. -/
def Launch.idleMap (l : Launch) : Bool :=
  match l.phase with
  | .walking => false
  | .suspended => false
  | .stopped => l.packet.kind == 0 && l.tensor.isNone
  | .done => l.refusal != 0
  | _ => true

/-- CONTEXT_MAP_CHANGE (03 R50). -/
def execContextMapChange (num map : Nat) (s : State) : Out :=
  event (if (map = 2 ∨ map = 3) ∧ s.created num ∧ s.noTasks num ∧ s.launchesOf num Launch.idleMap then
    some (s.modContext num fun c => { c with desc := { c.desc with map := map } })
  else none) s

/-! ## Boot (23 R391) -/

/-- POWER_ON: the boot ROM starts on the strapped die and opens the mailbox. -/
def execPowerOn (die : BitVec 2) (s : State) : Out :=
  event (if s.boot.phase = .off then
    some { s with boot := { s.boot with phase := .rom, strap := die.toNat, die := die.toNat, tried := [die.toNat], mailbox := true } }
  else none) s

/-- BOOT_READY_TIMEOUT: a die whose boot ROM, or recovery, has not reported ready makes way for the lowest die that has not tried. -/
def execBootReadyTimeout (s : State) : Out :=
  event (if s.boot.phase ≠ .rom ∧ s.boot.phase ≠ .recovery then none
  else
    ((List.range 4).find? fun d => !s.boot.tried.contains d).map fun d =>
      { s with boot := { s.boot with phase := .rom, die := d, tried := s.boot.tried ++ [d], mailbox := true } }) s

/-- FIRST_STAGE_IMAGE: hashed, verified, measured and started, or the die stays in recovery and reports on the management port. -/
def execFirstStageImage (image : List Byte) (s : State) : Out :=
  event (if s.boot.phase ≠ .rom then none
  else if Config.imageValid image then
    some { s with boot := { s.boot with phase := .running, mailbox := false, log := sha256 image :: s.boot.log } }
  else some { s with boot := { s.boot with phase := .recovery, reports := s.boot.reports ++ [s.boot.die] } }) s

/-! ## Links (23 R400, R401, 01 R15) -/

/-- The two dies that a Viaduct edge joins (01 R13), in the rule's order. -/
def edgeDies (e : Nat) : Nat × Nat :=
  match e with
  | 0 => (0, 1)
  | 1 => (2, 3)
  | 2 => (0, 2)
  | _ => (1, 3)

/-- The edge between two dies. -/
def edgeOf (a b : Nat) : Option Nat := (List.range 4).find? fun e => edgeDies e == (a, b) || edgeDies e == (b, a)

/-- The edges that traffic between two dies crosses (01 R14, R15): its own edge or, while that is down, the other three; a diagonal pair
takes the horizontal step first or, while that edge is down, the vertical one. Where a further edge of that path is down, R15 gives no
other: DESIGN CHOICE, the path stays (log 83). -/
def route (down : List Nat) (a b : Nat) : List Nat :=
  if a = b then []
  else
    match edgeOf a b with
    | some e => if down.contains e then (List.range 4).filter fun x => x != e else [e]
    | none =>
      let via (m : Nat) : List Nat := (edgeOf a m).toList ++ (edgeOf m b).toList
      let horizontal := if a % 2 = 0 then a + 1 else a - 1
      let vertical := (a + 2) % 4
      if (edgeOf a horizontal).any down.contains then via vertical else via horizontal

/-- The die from which a shootdown goes to every die: that of the move that issued it, else the resident kernel's. -/
def State.shootDie (s : State) (x : Shoot) : Nat := ((s.dies.find? fun p => p.2.moves.any fun m => m.sd == x.id).map Prod.fst).getD s.boot.die

/-- The dies that the units' copies and messages go between: fetches of code, shootdowns, window closes of the placement engine on die 0,
copies of moved pages and of new replicas. -/
def State.unitJourneys (s : State) : List (Nat × Nat) :=
  (s.fetches.flatMap fun f => if f.suspended then [] else (pageParts f.addr f.len).map fun p =>
    (if f.matrix then f.unit / 8 else dieOf f.unit, dieOfPa (s.walkPa f.ctx p.1))) ++
  (s.shoots.flatMap fun x => (List.range 4).map fun d => (s.shootDie x, d)) ++
  (((List.range 4).filter fun d => decide (0 < (s.die d).closing)).map fun d => (0, d)) ++
  (s.dies.flatMap fun p => (p.2.moves.filter fun x => x.st == .copy).map fun x => (dieOfPa x.old, dieOfPa x.new)) ++
  (s.engine.slots.flatMap fun p => p.2.adds.flatMap fun b =>
    let r := s.copyRec p.2 p.2.slot b.expert 0
    (pageParts r.base r.wlen).map fun q => (dieOfPa (s.walkPa p.2.ctx q.1), b.die))

/-- The dies between which requests and replies are on their way: of loads, stores, atomics, chunks of transfers, ring commands, bank
commands, merges, commands to the placement engine, which stands on die 0, and the units' own. -/
def State.journeys (s : State) : List (Nat × Nat) :=
  (s.loads.flatMap fun x => (x.lanes.filter fun l => !l.landed).map fun l => (x.owner.place.2, dieOfPa l.pa)) ++
  (s.writes.flatMap fun x => if x.acked then [] else x.lanes.map fun l => (x.die, dieOfPa l.pa)) ++
  (s.atoms.flatMap fun x => (x.lanes.filter fun l => decide (l.stage < 2)).map fun l => (x.die, dieOfPa l.pa)) ++
  (s.transfers.flatMap fun x => x.flight.flatMap fun f => (x.pieces f.chunk).flatMap fun p =>
    p.far.toList.map fun va => (hDie x.h, dieOfPa (s.paOf (s.ctxOf x.h) va))) ++
  (s.ringCmds.map fun x => (x.fromDie, ringDie x.ring.toNat)) ++
  (s.bankCmds.flatMap fun x => (x.owner.place.2, dieOfPa x.dst) :: ((if x.kind = .commit then [] else [x.srcA]) ++
      (if x.hasB then [x.srcB] else []) ++ [x.res]).map fun pa => (dieOfPa x.dst, dieOfPa pa)) ++
  (s.merges.flatMap fun x =>
    let unit := dieOfPa (s.paOf x.ctx x.primary)
    (x.owner.place.2, unit) :: x.copies.flatMap fun a => (pageParts a (x.count * bankSize x.sfmt)).map fun p => (unit, dieOfPa (s.paOf x.ctx p.1))) ++
  (s.experts.flatMap fun x => match x.op with
    | .look _ _ _ => []
    | _ => [(x.die, 0)]) ++ s.unitJourneys

/-- Whether a request or a reply on its way crosses an edge. -/
def State.crosses (s : State) (e : Nat) : Bool :=
  s.journeys.any fun p => (route s.edgesDown p.1 p.2).contains e || (route s.edgesDown p.2 p.1).contains e

/-- Marks an edge down, once: packets in flight on it are retransmitted on the new path (01 R15). -/
def State.markDown (s : State) (e : Nat) : State :=
  if s.edgesDown.contains e then s
  else { s with edgesDown := s.edgesDown ++ [e], retransmits := if s.crosses e then s.retransmits ++ [.viaduct e] else s.retransmits }

/-- The links there are: four Viaduct edges, sixteen fabric ports (01 R13, R16). -/
def linkExists (l : LinkRef) : Bool :=
  match l with
  | .viaduct e => decide (e < 4)
  | .fabric p => decide (p < 16)
  | .kernelAbi => true

/-- VERSION_NEGOTIATION: the resident kernel, once it runs, takes the highest version in both ranges; without one a Viaduct edge is marked
down, a port stays down, a successor is refused. -/
def execVersionNegotiation (l : LinkRef) (lo1 hi1 lo2 hi2 : Nat) (s : State) : Out :=
  let hi := if hi1 < hi2 then hi1 else hi2
  let lo := if lo1 < lo2 then lo2 else lo1
  let v := if lo ≤ hi then some hi else none
  event (if linkExists l && s.booted then
    let s := { s with versions := (s.versions.filter fun p => p.1 != l) ++ [(l, v)] }
    some (match l, v with
      | .viaduct e, none => s.markDown e
      | _, _ => s)
  else none) s

/-- EDGE_DOWN: the resident kernel marks a failed edge down. -/
def execEdgeDown (edge : Nat) (s : State) : Out :=
  event (if 4 ≤ edge ∨ !s.booted ∨ s.edgesDown.contains edge then none else some (s.markDown edge)) s

/-- Whether data cross a link: one of the four edges or sixteen ports, under power (01 R13, R16, 23 R391). -/
def State.linkRuns (s : State) (l : LinkRef) : Bool := linkExists l && l != .kernelAbi && s.boot.phase != .off

/-- LINK_CRC_FAILURE: a retransmission, never a poisoning. -/
def execLinkCrcFailure (l : LinkRef) (s : State) : Out :=
  event (if s.linkRuns l then some { s with retransmits := s.retransmits ++ [l] } else none) s

/-- A well-formed reduction payload of a port's negotiated version (23 Table 23-4). -/
def payloadOk (version : Nat) (p : List Byte) : Bool :=
  let n := field p 12 2
  decide (32 ≤ p.length) && field p 0 2 == version && field p 2 1 == 1 && decide (field p 3 1 < 128) && decide (1 ≤ n) && decide (n ≤ 1024) &&
    decide (field p 14 2 < 16) && field p 24 8 == 0 && p.length == 32 + 8 * n

/-- The die that drives a fabric port (23 R396, log 70). -/
def portDie (port : Nat) : Nat := port / 4

/-- Whether a payload keeps to the one f of its collective (23 R396, log 70). -/
def State.sameFrac (s : State) (p : List Byte) : Bool :=
  (s.fabricOut ++ s.fabricIn).all fun q => field q.2 4 4 != field p 4 4 || field q.2 3 1 % 64 == field p 3 1 % 64

/-- REDUCTION_PAYLOAD: a port that is up, of a die that is online, sends or receives one. -/
def State.reduction (s : State) (port : Nat) (sent : Bool) (p : List Byte) : Option State :=
  match s.versions.find? fun v => v.1 == .fabric port with
  | some (_, some v) =>
    if 16 ≤ port ∨ !(s.die (portDie port)).online ∨ !payloadOk v p ∨ !s.sameFrac p ∨ (sent && field p 14 2 != port) then none
    else if sent then some { s with fabricOut := s.fabricOut ++ [(port, p)] }
    else some { s with fabricIn := s.fabricIn ++ [(port, p)] }
  | _ => none

/-- REDUCTION_PAYLOAD. -/
def execReductionPayload (port : Nat) (sent : Bool) (payload : List Byte) (s : State) : Out := event (s.reduction port sent payload) s

/-! ## Pontil hand-over (23 Table 23-3) -/

def State.setHand (s : State) (st : HandState) : State := { s with hand := { s.hand with st := st } }

/-- OLD_KERNEL_READY: acceptance pauses; after a revert the old kernel runs on. -/
def execOldKernelReady (s : State) : Out :=
  event (match s.hand.st with
    | .staged => some (s.setHand .paused)
    | .reverted => some (s.setHand .running)
    | _ => none) s

/-- OLD_KERNEL_JUMP: quotes taken before it have been answered (23 R395). -/
def execOldKernelJump (s : State) : Out :=
  event (if s.hand.st = .paused ∧ s.cmds.all fun c => c.op != 4 then
    some { s with hand := { s.hand with st := .adopting, tableAt := none } }
  else none) s

/-- The entries of the preserved-state table at a physical address (23 R394). -/
def State.preserved (s : State) (table : Nat) : List Preserved :=
  let rd (a n : Nat) : Nat := s.homeNat (table + a) n
  (List.range (rd 2 2)).map fun i =>
    let a := 64 + 32 * i
    { type := rd a 2, version := rd (a + 2) 2, addr := rd (a + 8) 8, len := rd (a + 16) 8 }

/-- Whether a successor adopts a preserved-state table: it supports the versions of the table, of the ABI and of every structure, whose
TYPEs it knows (23 R394). -/
def State.tableOk (s : State) (table : Nat) : Bool :=
  Config.tableVersion (s.homeNat table 2) && Config.abiVersion (s.homeNat (table + 4) 4) &&
    (s.preserved table).all fun p => decide (1 ≤ p.type) && decide (p.type ≤ 5) && Config.structVersion p.type p.version

/-- SUCCESSOR_ADOPT: the successor takes the structures that the table lists; acceptance resumes, the generation rises, the log takes the
successor's digest. A table that it does not adopt it leaves as it stands. -/
def execSuccessorAdopt (table : Nat) (s : State) : Out :=
  event (if s.hand.st ≠ .adopting then none
  else if s.tableOk table then
    some { s with hand := { s.hand with st := .accepting, gen := s.hand.gen + 1, table := s.preserved table, tableAt := some table },
                  boot := { s.boot with log := s.hand.image.toList ++ s.boot.log } }
  else some { s with hand := { s.hand with tableAt := some table } }) s

/-- SUCCESSOR_CHECK_IN. -/
def execSuccessorCheckIn (s : State) : Out :=
  event (if s.hand.st = .accepting then some { s with hand := { s.hand with st := .running, image := none } } else none) s

/-- HANDOVER_TIMEOUT: the old kernel takes over again, whether the successor adopted the table or not (23 R394), and adopts the table as
it then stands in memory (log 86). -/
def execHandoverTimeout (s : State) : Out :=
  event (if s.hand.st = .accepting ∨ s.hand.st = .adopting then
    some { s with hand := { s.hand with st := .reverted, gen := s.hand.gen + 1, image := none,
                                        table := s.preserved (s.hand.tableAt.getD (Config.tableAddress s.hand.gen.toNat)) },
                  boot := { s.boot with log := Config.revertRecord s.hand.gen.toNat :: s.boot.log } }
  else none) s

end Sys2Proof.Machine
end

