-- ==== Sys2Proof/Machine/Integer.lean ====
section
/-!
DEFINITION. Integer lane words, compares, predicate logic and immediates (06 R112-R119).
-/
namespace Sys2Proof.Machine

open Sys2Proof

/-- IADD (06 R113). -/
def execIadd (w : LR) (s : State) : Out := intWord w false (fun x y _ => x + y) s

/-- ISUB (06 R113). -/
def execIsub (w : LR) (s : State) : Out := intWord w false (fun x y _ => x - y) s

/-- IMUL (06 R113). -/
def execImul (w : LR) (s : State) : Out := intWord w false (fun x y _ => x * y) s

/-- IMULHI (06 R113). -/
def execImulhi (w : LR) (s : State) : Out := intWord w false (fun x y _ => intMulHi x y) s

/-- IMULHU (06 R113). -/
def execImulhu (w : LR) (s : State) : Out := intWord w false (fun x y _ => intMulHu x y) s

/-- IMAD (06 R113): also reads d. -/
def execImad (w : LR) (s : State) : Out := intWord w true (fun x y z => x * y + z) s

/-- IMIN (06 R113). -/
def execImin (w : LR) (s : State) : Out := intWord w false (fun x y _ => intMin x y) s

/-- IMAX (06 R113). -/
def execImax (w : LR) (s : State) : Out := intWord w false (fun x y _ => intMax x y) s

/-- IMINU (06 R113). -/
def execIminu (w : LR) (s : State) : Out := intWord w false (fun x y _ => intMinu x y) s

/-- IMAXU (06 R113). -/
def execImaxu (w : LR) (s : State) : Out := intWord w false (fun x y _ => intMaxu x y) s

/-- AND (06 R113). -/
def execAnd (w : LR) (s : State) : Out := intWord w false (fun x y _ => x &&& y) s

/-- OR (06 R113). -/
def execOr (w : LR) (s : State) : Out := intWord w false (fun x y _ => x ||| y) s

/-- XOR (06 R113). -/
def execXor (w : LR) (s : State) : Out := intWord w false (fun x y _ => x ^^^ y) s

/-- ANDN (06 R113). -/
def execAndn (w : LR) (s : State) : Out := intWord w false (fun x y _ => x &&& ~~~y) s

/-- SHL (06 R113). -/
def execShl (w : LR) (s : State) : Out := intWord w false (fun x y _ => intShl x y) s

/-- SHR (06 R113). -/
def execShr (w : LR) (s : State) : Out := intWord w false (fun x y _ => intShr x y) s

/-- SAR (06 R113). -/
def execSar (w : LR) (s : State) : Out := intWord w false (fun x y _ => intSar x y) s

/-- POPC (06 R113). -/
def execPopc (w : LRA) (s : State) : Out := intWord1 w intPopc s

/-- CLZ (06 R113). -/
def execClz (w : LRA) (s : State) : Out := intWord1 w intClz s

/-- BREV (06 R113). -/
def execBrev (w : LRA) (s : State) : Out := intWord1 w intBrev s

/-- IADDSAT (06 R113). -/
def execIaddsat (w : LR) (s : State) : Out := intWord w false (fun x y _ => intAddSat x y) s

/-- ICMP.EQ (06 R115). -/
def execIcmpEq (w : LC) (s : State) : Out := cmpWord w (fun x y => (icmp .eq x y, 0)) s

/-- ICMP.NE (06 R115). -/
def execIcmpNe (w : LC) (s : State) : Out := cmpWord w (fun x y => (icmp .ne x y, 0)) s

/-- ICMP.LT (06 R115). -/
def execIcmpLt (w : LC) (s : State) : Out := cmpWord w (fun x y => (icmp .lt x y, 0)) s

/-- ICMP.LE (06 R115). -/
def execIcmpLe (w : LC) (s : State) : Out := cmpWord w (fun x y => (icmp .le x y, 0)) s

/-- ICMP.GT (06 R115). -/
def execIcmpGt (w : LC) (s : State) : Out := cmpWord w (fun x y => (icmp .gt x y, 0)) s

/-- ICMP.GE (06 R115). -/
def execIcmpGe (w : LC) (s : State) : Out := cmpWord w (fun x y => (icmp .ge x y, 0)) s

/-- ICMP.LTU (06 R115). -/
def execIcmpLtu (w : LC) (s : State) : Out := cmpWord w (fun x y => (icmp .ltu x y, 0)) s

/-- ICMP.LEU (06 R115). -/
def execIcmpLeu (w : LC) (s : State) : Out := cmpWord w (fun x y => (icmp .leu x y, 0)) s

/-- ICMP.GTU (06 R115). -/
def execIcmpGtu (w : LC) (s : State) : Out := cmpWord w (fun x y => (icmp .gtu x y, 0)) s

/-- ICMP.GEU (06 R115). -/
def execIcmpGeu (w : LC) (s : State) : Out := cmpWord w (fun x y => (icmp .geu x y, 0)) s

/-- FCMP.EQ (06 R115). -/
def execFcmpEq (w : LC) (s : State) : Out := cmpWord w (fcmp .eq) s

/-- FCMP.NE (06 R115). -/
def execFcmpNe (w : LC) (s : State) : Out := cmpWord w (fcmp .ne) s

/-- FCMP.LT (06 R115). -/
def execFcmpLt (w : LC) (s : State) : Out := cmpWord w (fcmp .lt) s

/-- FCMP.LE (06 R115). -/
def execFcmpLe (w : LC) (s : State) : Out := cmpWord w (fcmp .le) s

/-- FCMP.GT (06 R115). -/
def execFcmpGt (w : LC) (s : State) : Out := cmpWord w (fcmp .gt) s

/-- FCMP.GE (06 R115). -/
def execFcmpGe (w : LC) (s : State) : Out := cmpWord w (fcmp .ge) s

/-- FCMP.ORD (06 R115). -/
def execFcmpOrd (w : LC) (s : State) : Out := cmpWord w (fcmp .ord) s

/-- FCMP.UNO (06 R115). -/
def execFcmpUno (w : LC) (s : State) : Out := cmpWord w (fcmp .uno) s

/-- PAND (06 R116). -/
def execPand (w : LCP) (s : State) : Out := predWord w.pd w.comb w.g (fun t => t.pred w.a.toNat && t.pred w.b.toNat) s

/-- POR (06 R116). -/
def execPor (w : LCP) (s : State) : Out := predWord w.pd w.comb w.g (fun t => t.pred w.a.toNat || t.pred w.b.toNat) s

/-- PXOR (06 R116). -/
def execPxor (w : LCP) (s : State) : Out := predWord w.pd w.comb w.g (fun t => t.pred w.a.toNat ^^ t.pred w.b.toNat) s

/-- PNOT (06 R116). -/
def execPnot (w : LCN) (s : State) : Out := predWord w.pd w.comb w.g (fun t => !t.pred w.a.toNat) s

/-- IADDI (06 R118). -/
def execIaddi (w : LI) (s : State) : Out := immWord w (fun x y => x + y) s

/-- ANDI (06 R118). -/
def execAndi (w : LI) (s : State) : Out := immWord w (fun x y => x &&& y) s

/-- ORI (06 R118). -/
def execOri (w : LI) (s : State) : Out := immWord w (fun x y => x ||| y) s

/-- XORI (06 R118). -/
def execXori (w : LI) (s : State) : Out := immWord w (fun x y => x ^^^ y) s

/-- IMULI (06 R118). -/
def execImuli (w : LI) (s : State) : Out := immWord w (fun x y => x * y) s

/-- SHLI (06 R118). -/
def execShli (w : LI5) (s : State) : Out := shiftWord w intShl s

/-- SHRI (06 R118). -/
def execShri (w : LI5) (s : State) : Out := shiftWord w intShr s

/-- SARI (06 R118). -/
def execSari (w : LI5) (s : State) : Out := shiftWord w intSar s

/-- MOVI (06 R119): no guard. -/
def execMovi (w : LW) (s : State) : Out :=
  s.lane { dsts := [w.d.toNat] } fun c s => s.laneResult c w.d.toNat fun _ => w.imm.signExtend 32

/-- MOVHI (06 R119): keeps the low half of d. -/
def execMovhi (w : LW) (s : State) : Out :=
  s.lane { third := [w.d.toNat], dsts := [w.d.toNat] } fun c s =>
    s.laneResult c w.d.toNat fun i => w.imm ++ (s.val c w.d.toNat i).extractLsb' 0 16

end Sys2Proof.Machine
end

