-- ==== Sys2Proof/Machine/Moves.lean ====
section
/-!
DEFINITION. Moves, selection, lane exchange and special registers (05 R94-R100).
-/
namespace Sys2Proof.Machine

open Sys2Proof

/-- The special register numbered `n` as an entry reads it for a lane (05 Table 5-3). -/
def State.specialReg (s : State) (h g : Nat) (pri : BitVec 3) (n lane : Nat) : Word :=
  match s.task h with
  | none => 0
  | some t =>
    let gg := t.gang g
    let count := Config.cycle (hCore h) s.tick
    let nat (x : Nat) : Word := BitVec.ofNat 32 x
    match n with
    | 0x00 => nat lane
    | 0x01 => nat g
    | 0x02 => nat (t.variant.threads / 32)
    | 0x03 => t.ident.taskid
    | 0x04 => t.ident.tile.getD 0 0
    | 0x05 => t.ident.tile.getD 1 0
    | 0x06 => t.ident.tile.getD 2 0
    | 0x07 => t.ident.tile.getD 3 0
    | 0x08 => t.ident.extx
    | 0x09 => t.ident.exty
    | 0x0A => nat t.ident.home
    | 0x0B => nat (coreX (hCore h))
    | 0x0C => nat (coreY (hCore h))
    | 0x0D => nat (hDie h)
    | 0x0E => nat (clusterIn (hCore h))
    | 0x0F =>
      match t.ident.spanidx with
      | some i => nat i
      | none => BitVec.allOnes 32
    | 0x10 => nat (t.sh.getD 0 0)
    | 0x11 => nat (t.sh.getD 1 0)
    | 0x12 => nat (t.sh.getD 2 0)
    | 0x13 => nat (t.sh.getD 3 0)
    | 0x14 => nat (t.variant.bkt.getD 0 (0, 0)).2
    | 0x15 => nat (t.variant.bkt.getD 1 (0, 0)).2
    | 0x16 => nat (t.variant.bkt.getD 2 (0, 0)).2
    | 0x17 => nat (t.variant.bkt.getD 3 (0, 0)).2
    | 0x18 => loWord count
    | 0x19 =>
      match gg.cyc with
      | some c => hiWord c
      | none => hiWord count
    | 0x1A => nat t.ctx
    | 0x1B => pri.setWidth 32
    | 0x1C => nat gg.denials.length
    | _ => (gg.thread lane).fpflags.setWidth 32

/-- What reading a special register changes: CYCLO captures the count, CYCHI clears the capture (05 R95). -/
def State.readEffect (s : State) (h g : Nat) (n : Nat) : State :=
  if n = 0x18 then s.modGang h g fun gg => { gg with cyc := some (Config.cycle (hCore h) s.tick) }
  else if n = 0x19 then s.modGang h g fun gg => { gg with cyc := none }
  else s

/-- SEL (05 R97): runs unguarded; g selects. -/
def execSel (w : LR) (s : State) : Out :=
  s.lane (specLR w false false) fun c s =>
    s.laneResult c w.d.toNat fun i =>
      if ((s.gang c.h c.g).thread i).pred w.g.toNat then s.val c w.a.toNat i else s.val c w.b.toNat i

/-- BALLOT (05 R98). -/
def execBallot (w : LBal) (s : State) : Out :=
  s.lane { guard := w.g.toNat, dsts := dstOf w.d, push := pushOf w.d } fun c s =>
    let m := maskOf fun j => c.act.getLsbD j && ((s.gang c.h c.g).thread j).pred w.a.toNat
    s.laneResult c w.d.toNat fun _ => m

/-- The lane that SHFL or SHFLX reads (05 R99). -/
def shflLane (x : Bool) (i : Nat) (v : Word) : Nat := if x then i ^^^ (v.toNat % 32) else v.toNat % 32

/-- What a SHFL that has its sources writes: every read precedes every write (05 R99). -/
def State.shflFinish (s : State) (w : LR) (c : LaneCtx) (src : Nat → Nat) : State :=
  s.laneResult c w.d.toNat fun i => s.val c w.a.toNat (src i)

/-- SHFL and SHFLX (05 R99, R100): source a is read in the lanes that b names. EMPTYREAD names the active lanes whose own b or whose
source lane's a is empty (log 64). -/
def State.shfl (s : State) (w : LR) (x : Bool) (h g : Nat) (e : Entry) : State :=
  match s.task h with
  | none => s
  | some t =>
    let gg := t.gang g
    let D := t.variant.depth
    let act := gg.active e.mask w.g.toNat
    let a := w.a.toNat
    let b := w.b.toNat
    let pop : Option Nat := if isPort a then some a else if isPort b then some b else none
    let popQ := pop.map fun p => (p, gg.queueOf e p)
    let pushQ := (pushOf w.d).map fun p => (p, gg.queueOf e p)
    match popQ, pushQ with
    | some (p, none), _ => s.raiseUnbound h g e p
    | _, some (p, none) => s.raiseUnbound h g e p
    | _, _ =>
      let pops := match popQ with
        | some (_, some q) => if e.held.isSome then [] else [q]
        | _ => []
      let pushes := match pushQ with
        | some (_, some q) => [q]
        | _ => []
      let regB (i : Nat) : Word := (gg.thread i).reg D b
      let bFull := act &&& ~~~(if isPort b then 0 else gg.notFull D act b)
      let lanesA (src : Nat → Word) (m : LaneMask) : LaneMask :=
        (lanesOf m).foldl (fun r i => r ||| laneBit (shflLane x i (src i))) 0
      let waitA (m : LaneMask) : List (Nat × Nat) :=
        if isPort a then [] else gg.physOf D (if w.ea then gg.interlocked D m a else gg.notFull D m a) a
      let waitB := if isPort b then [] else gg.physOf D (if w.eb then gg.interlocked D act b else gg.notFull D act b) b
      let waitD := (dstOf w.d).flatMap fun k => gg.physOf D (gg.notFull D act k) k
      let need := waitB ++ waitD ++ (if isPort b then [] else waitA (lanesA regB bFull))
      let keep := (pop.toList.zip (match popQ with
        | some (_, some q) => [q]
        | _ => [])) ++ ((pushOf w.d).toList.zip pushes)
      if need ≠ [] then s.putEntry h g { e with st := gg.waiting need }
      else if !t.queuesReady pops pushes then s.putEntry h g { e with st := .queue pops pushes, qkeep := keep }
      else
        let r := if e.held.isSome then (e.held, s) else s.popQueue h pops.head?
        let popped := r.1
        let s := r.2
        let word (i : Nat) : Word := match popped with
          | some q => AList.get 0 q.words i
          | none => 0
        let src (i : Nat) : Nat := shflLane x i (if isPort b then word i else regB i)
        let mA := (lanesOf act).foldl (fun r i => r ||| laneBit (src i)) 0
        let needA := if isPort b then waitA mA else []
        if needA ≠ [] then s.putEntry h g { e with st := gg.waiting needA, held := popped, qkeep := keep }
        else
          let e := { e with held := none }
          let empty := (if !isPort b && w.eb then gg.notFull D act b else 0) |||
            (if !isPort a && w.ea then maskOf fun i => act.getLsbD i && (gg.thread (src i)).regState D a != .full else 0)
          if empty ≠ 0 then s.raiseEmpty h g e act empty
          else
            let pq := match popped with
              | some q => q.poison
              | none => 0
            let mr := (if isPort b then 0 else gg.poisoned D act b) |||
              maskOf fun i => act.getLsbD i && !isPort a && (gg.thread (src i)).regPoison D a
            let mq := if isPort b then pq &&& act else if isPort a then maskOf fun i => act.getLsbD i && pq.getLsbD (src i) else 0
            let bad := mr ||| mq
            let s := s.raisePoison h g e bad mr
            let s := s.modGang h g fun gg => gg.hold (if w.h then some a else none) mA
            s.shflFinish w
              { h := h, g := g, e := { e with mask := e.mask &&& ~~~bad }, act := act &&& ~~~bad, low := lowestLane act, popped := popped,
                pushQ := pushes.head? } src

/-- SHFL. -/
def execShfl (w : LR) (s : State) : Out := s.issuing fun h g e s => s.shfl w false h g e

/-- SHFLX. -/
def execShflx (w : LR) (s : State) : Out := s.issuing fun h g e s => s.shfl w true h g e

/-- MOV (05 R96). -/
def execMov (w : LRA) (s : State) : Out := intWord1 w (fun x => x) s

/-- MOVS (05 R96): the s register as of the issue (R91). -/
def execMovs (w : LMovs) (s : State) : Out :=
  s.lane { guard := w.g.toNat, dsts := dstOf w.d, push := pushOf w.d } fun c s =>
    s.laneResult c w.d.toNat fun _ => s.sreg (.gang c.h c.g) w.a.toNat

/-- MOVSR (05 R94, R96): a read of FPFLAGS clears them in the active lanes (04 R78). -/
def execMovsr (w : LMovsr) (s : State) : Out :=
  s.lane { guard := w.g.toNat, dsts := dstOf w.d, push := pushOf w.d } fun c s =>
    let n := w.imm.toNat
    let t := s.laneWrite c w.d.toNat fun i => s.specialReg c.h c.g c.e.pri n i
    let t := if c.act = 0 then t else t.readEffect c.h c.g n
    let t := if n = 0x1D then
        t.modGang c.h c.g fun gg => gg.modLanes (lanesOf c.act) fun _ th => { th with fpflags := 0 }
      else t
    t.laneDone c

/-- MOVP (05 R96). -/
def execMovp (w : LMovp) (s : State) : Out :=
  s.lane { guard := w.g.toNat, dsts := dstOf w.d, push := pushOf w.d } fun c s =>
    s.laneResult c w.d.toNat fun i =>
      let t := (s.gang c.h c.g).thread i
      (t.preds ||| 1).setWidth 32

/-- PMOV (05 R96): bit 0 is ignored. -/
def execPmov (w : LPmov) (s : State) : Out :=
  s.lane { guard := w.g.toNat, srcs := [(w.a.toNat, w.ea)], hold := if w.h then some w.a.toNat else none } fun c s =>
    let v := s.val c w.a.toNat
    (s.modGang c.h c.g fun gg =>
      gg.modLanes (lanesOf c.act) fun i t =>
        { t with preds := (t.preds &&& 1) ||| ((v i).truncate 8 &&& 0xFE) }).laneDone c

end Sys2Proof.Machine
end

