-- ==== Sys2Proof/Machine/Uniform.lean ====
section
/-!
DEFINITION. Uniform arithmetic, compares, special registers (06 R125-R129, 07 R147), queue words (05 R105, R106),
SYSCALL and UTRAP (21 R372, R373).
-/
namespace Sys2Proof.Machine

open Sys2Proof

/-- Writes s[d] and goes on. -/
def State.uniResult (s : State) (w : Who) (e : Entry) (d : Nat) (v : Word) : State := (s.setS w d v).nextWord w e

/-- A uniform operation of two s registers. -/
def uniOp (d a b : BitVec 5) (c : BitVec 3) (f : Word → Word → Word) (s : State) : Out :=
  s.uniform c fun w e s => s.uniResult w e d.toNat (f (s.sreg w a.toNat) (s.sreg w b.toNat))

/-- A uniform compare. -/
def uniCmp (w : UCab) (cond : ICond) (s : State) : Out :=
  s.uniform w.c fun who e s =>
    (s.setC who w.cd.toNat (icmp cond (s.sreg who w.a.toNat) (s.sreg who w.b.toNat))).nextWord who e

/-- UADD (06 R126). -/
def execUadd (w : UR) (s : State) : Out := uniOp w.d w.a w.b w.c (fun x y => x + y) s

/-- USUB (06 R126). -/
def execUsub (w : UR) (s : State) : Out := uniOp w.d w.a w.b w.c (fun x y => x - y) s

/-- UMUL (06 R126). -/
def execUmul (w : UR) (s : State) : Out := uniOp w.d w.a w.b w.c (fun x y => x * y) s

/-- UAND (06 R126). -/
def execUand (w : UR) (s : State) : Out := uniOp w.d w.a w.b w.c (fun x y => x &&& y) s

/-- UOR (06 R126). -/
def execUor (w : UR) (s : State) : Out := uniOp w.d w.a w.b w.c (fun x y => x ||| y) s

/-- UXOR (06 R126). -/
def execUxor (w : UR) (s : State) : Out := uniOp w.d w.a w.b w.c (fun x y => x ^^^ y) s

/-- USHL (06 R126). -/
def execUshl (w : UR) (s : State) : Out := uniOp w.d w.a w.b w.c (fun x y => intShl x y) s

/-- USHR (06 R126): m bit 0 arithmetic. -/
def execUshr (w : URM) (s : State) : Out := uniOp w.d w.a w.b w.c (fun x y => if w.m then intSar x y else intShr x y) s

/-- UMIN (06 R126): m bit 0 unsigned. -/
def execUmin (w : URM) (s : State) : Out := uniOp w.d w.a w.b w.c (fun x y => if w.m then intMinu x y else intMin x y) s

/-- UMAX (06 R126): m bit 0 unsigned. -/
def execUmax (w : URM) (s : State) : Out := uniOp w.d w.a w.b w.c (fun x y => if w.m then intMaxu x y else intMax x y) s

/-- USEL (06 R127): c selects, so the word is never guarded. -/
def execUsel (w : UR) (s : State) : Out :=
  s.issuingAny fun who e s =>
    s.uniResult who e w.d.toNat (if s.cbit who w.c.toNat then s.sreg who w.a.toNat else s.sreg who w.b.toNat)

/-- UADDI (06 R128). -/
def execUaddi (w : UI) (s : State) : Out :=
  s.uniform w.c fun who e s => s.uniResult who e w.d.toNat (s.sreg who w.a.toNat + w.imm.signExtend 32)

/-- USHLI (06 R128). -/
def execUshli (w : UI5) (s : State) : Out :=
  s.uniform w.c fun who e s => s.uniResult who e w.d.toNat (intShl (s.sreg who w.a.toNat) (w.imm.setWidth 32))

/-- UANDI (06 R128). -/
def execUandi (w : UI) (s : State) : Out :=
  s.uniform w.c fun who e s => s.uniResult who e w.d.toNat (s.sreg who w.a.toNat &&& w.imm.signExtend 32)

/-- UMOVI (06 R128): unguarded. -/
def execUmovi (w : UW) (s : State) : Out :=
  s.issuingAny fun who e s => s.uniResult who e w.d.toNat (w.imm.signExtend 32)

/-- UMOVHI (06 R128): unguarded; keeps the low half. -/
def execUmovhi (w : UW) (s : State) : Out :=
  s.issuingAny fun who e s => s.uniResult who e w.d.toNat (w.imm ++ (s.sreg who w.d.toNat).extractLsb' 0 16)

/-- UCMP.EQ (07 R147). -/
def execUcmpEq (w : UCab) (s : State) : Out := uniCmp w .eq s

/-- UCMP.NE (07 R147). -/
def execUcmpNe (w : UCab) (s : State) : Out := uniCmp w .ne s

/-- UCMP.LT (07 R147). -/
def execUcmpLt (w : UCab) (s : State) : Out := uniCmp w .lt s

/-- UCMP.LE (07 R147). -/
def execUcmpLe (w : UCab) (s : State) : Out := uniCmp w .le s

/-- UCMP.GT (07 R147). -/
def execUcmpGt (w : UCab) (s : State) : Out := uniCmp w .gt s

/-- UCMP.GE (07 R147). -/
def execUcmpGe (w : UCab) (s : State) : Out := uniCmp w .ge s

/-- UCMP.LTU (07 R147). -/
def execUcmpLtu (w : UCab) (s : State) : Out := uniCmp w .ltu s

/-- UCMP.LEU (07 R147). -/
def execUcmpLeu (w : UCab) (s : State) : Out := uniCmp w .leu s

/-- UCMP.GTU (07 R147). -/
def execUcmpGtu (w : UCab) (s : State) : Out := uniCmp w .gtu s

/-- UCMP.GEU (07 R147). -/
def execUcmpGeu (w : UCab) (s : State) : Out := uniCmp w .geu s

/-- The OR of the sticky flags of a gang's threads (06 R129). -/
def Gang.flagsOr (gg : Gang) : Word := (gg.threads.foldl (fun (f : BitVec 5) (p : Nat × Thread) => f ||| p.2.fpflags) 0).setWidth 32

/-- UMOVSR (06 R129): LANEID reads 0, FPFLAGS the OR over the gang, and no flag is cleared. -/
def execUmovsr (w : UMovsr) (s : State) : Out :=
  s.uniform w.c fun who e s =>
    let (h, g) := s.gangOf who
    let n := w.imm.toNat
    let v := if n = 0x1D then (s.gang h g).flagsOr else s.specialReg h g e.pri n 0
    (s.readEffect h g n).uniResult who e w.d.toNat v

/-- UMOV (06 Table 6-9). -/
def execUmov (w : UDA) (s : State) : Out :=
  s.uniform w.c fun who e s => s.uniResult who e w.d.toNat (s.sreg who w.a.toNat)

/-- The queues a task declares. -/
def State.queueCount (s : State) (h : Nat) : Nat :=
  match s.task h with
  | none => 0
  | some t => t.variant.nq

/-- QBIND (05 R105). -/
def execQbind (w : UQbind) (s : State) : Out :=
  s.uniformGang w.c fun h g e s =>
    let v := s.sreg (.gang h g) w.a.toNat
    let q := w.q.toNat
    if v.toNat < s.queueCount h then
      (s.modGang h g fun gg => { gg with ports := AList.set none gg.ports q (some v.toNat) }).advance h g e e.mask
    else if v = BitVec.allOnes 32 then
      (s.modGang h g fun gg => { gg with ports := AList.set none gg.ports q none }).advance h g e e.mask
    else s.raiseUniform (.gang h g) e kQUEUE (2 + 256 * q) v.toNat

/-- QSTAT (05 R106). -/
def execQstat (w : UDA) (s : State) : Out :=
  s.uniformGang w.c fun h g e s =>
    let v := s.sreg (.gang h g) w.a.toNat
    if v.toNat < s.queueCount h then
      match s.task h with
      | none => s
      | some t =>
        let n := (t.queue v.toNat).length
        s.uniResult (.gang h g) e w.d.toNat
          (BitVec.ofNat 32 (n + (if n = 0 then 32 else 0) + (if n = 16 then 64 else 0)))
    else s.raiseUniform (.gang h g) e kQUEUE 2 v.toNat

/-- The package release of a SYSCALL, then its request to the scheduler thread, of the argument and registers read at issue. -/
def State.syscall (s : State) (h g : Nat) (e : Entry) (d svc : Nat) (arg : Word) (regs : AList Word) : State :=
  if s.releaseDone (.gang h g) 5 (s.upto e) then
    (s.post (hDie h) (.syscall h g (lowestLane e.mask) svc arg regs)).putEntry h g { e with st := .stall (.syscall d) }
  else s.putEntry h g { e with st := .stall (.call arg regs (s.upto e)) }

/-- A SYSCALL that has its reply: the acquire, once the gang's loads have landed, then deferred store faults; while the record is busy
they park it without one (21 R366). -/
def State.syscallReturn (s : State) (h g : Nat) (e : Entry) (upto : Nat) : State :=
  if !s.loadsLanded (.gang h g) upto then s.putEntry h g e
  else
    let s := s.discard (hCore h) (hDie h) 5
    if (s.gang h g).record.busy && (s.gang h g).denials != [] then s.putEntry h g { e with st := .parked .returned }
    else s.deliver h g e true

/-- SYSCALL (21 R372): a package release, the request to the scheduler thread, the wait for the reply, an acquire. -/
def execSyscall (w : UI) (s : State) : Out :=
  s.uniformGang w.c fun h g e s =>
    match e.st with
    | .stall (.returned upto) => s.syscallReturn h g e upto
    | .stall (.call arg regs _) => s.syscall h g e w.d.toNat w.imm.toNat arg regs
    | _ =>
      let gg := s.gang h g
      s.syscall h g e w.d.toNat w.imm.toNat (gg.sreg w.a.toNat) gg.s

/-- UTRAP (21 R373). -/
def execUtrap (w : UImm) (s : State) : Out :=
  s.uniform w.c fun who e s => s.raiseUniform who e kTRAP (w.imm.toNat + 512) 0

end Sys2Proof.Machine
end

