-- ==== Sys2Proof/Machine/Dispatch.lean ====
section
/-!
DEFINITION. exec: one arm per constructor of Instr, each one direct call of that instruction's meaning.
-/
namespace Sys2Proof.Machine

open Sys2Proof

def exec (i : Instr) (s : State) : Host.Outcome State Fault Refusal :=
  match i with
  | .iadd w => Sys2Proof.Machine.execIadd w s
  | .isub w => Sys2Proof.Machine.execIsub w s
  | .imul w => Sys2Proof.Machine.execImul w s
  | .imulhi w => Sys2Proof.Machine.execImulhi w s
  | .imulhu w => Sys2Proof.Machine.execImulhu w s
  | .imad w => Sys2Proof.Machine.execImad w s
  | .imin w => Sys2Proof.Machine.execImin w s
  | .imax w => Sys2Proof.Machine.execImax w s
  | .iminu w => Sys2Proof.Machine.execIminu w s
  | .imaxu w => Sys2Proof.Machine.execImaxu w s
  | .and w => Sys2Proof.Machine.execAnd w s
  | .or w => Sys2Proof.Machine.execOr w s
  | .xor w => Sys2Proof.Machine.execXor w s
  | .andn w => Sys2Proof.Machine.execAndn w s
  | .shl w => Sys2Proof.Machine.execShl w s
  | .shr w => Sys2Proof.Machine.execShr w s
  | .sar w => Sys2Proof.Machine.execSar w s
  | .popc w => Sys2Proof.Machine.execPopc w s
  | .clz w => Sys2Proof.Machine.execClz w s
  | .brev w => Sys2Proof.Machine.execBrev w s
  | .iaddsat w => Sys2Proof.Machine.execIaddsat w s
  | .icmpEq w => Sys2Proof.Machine.execIcmpEq w s
  | .icmpNe w => Sys2Proof.Machine.execIcmpNe w s
  | .icmpLt w => Sys2Proof.Machine.execIcmpLt w s
  | .icmpLe w => Sys2Proof.Machine.execIcmpLe w s
  | .icmpGt w => Sys2Proof.Machine.execIcmpGt w s
  | .icmpGe w => Sys2Proof.Machine.execIcmpGe w s
  | .icmpLtu w => Sys2Proof.Machine.execIcmpLtu w s
  | .icmpLeu w => Sys2Proof.Machine.execIcmpLeu w s
  | .icmpGtu w => Sys2Proof.Machine.execIcmpGtu w s
  | .icmpGeu w => Sys2Proof.Machine.execIcmpGeu w s
  | .fcmpEq w => Sys2Proof.Machine.execFcmpEq w s
  | .fcmpNe w => Sys2Proof.Machine.execFcmpNe w s
  | .fcmpLt w => Sys2Proof.Machine.execFcmpLt w s
  | .fcmpLe w => Sys2Proof.Machine.execFcmpLe w s
  | .fcmpGt w => Sys2Proof.Machine.execFcmpGt w s
  | .fcmpGe w => Sys2Proof.Machine.execFcmpGe w s
  | .fcmpOrd w => Sys2Proof.Machine.execFcmpOrd w s
  | .fcmpUno w => Sys2Proof.Machine.execFcmpUno w s
  | .pand w => Sys2Proof.Machine.execPand w s
  | .por w => Sys2Proof.Machine.execPor w s
  | .pxor w => Sys2Proof.Machine.execPxor w s
  | .pnot w => Sys2Proof.Machine.execPnot w s
  | .sel w => Sys2Proof.Machine.execSel w s
  | .ballot w => Sys2Proof.Machine.execBallot w s
  | .shfl w => Sys2Proof.Machine.execShfl w s
  | .shflx w => Sys2Proof.Machine.execShflx w s
  | .iaddi w => Sys2Proof.Machine.execIaddi w s
  | .andi w => Sys2Proof.Machine.execAndi w s
  | .ori w => Sys2Proof.Machine.execOri w s
  | .xori w => Sys2Proof.Machine.execXori w s
  | .shli w => Sys2Proof.Machine.execShli w s
  | .shri w => Sys2Proof.Machine.execShri w s
  | .sari w => Sys2Proof.Machine.execSari w s
  | .imuli w => Sys2Proof.Machine.execImuli w s
  | .movi w => Sys2Proof.Machine.execMovi w s
  | .movhi w => Sys2Proof.Machine.execMovhi w s
  | .mov w => Sys2Proof.Machine.execMov w s
  | .movs w => Sys2Proof.Machine.execMovs w s
  | .movsr w => Sys2Proof.Machine.execMovsr w s
  | .movp w => Sys2Proof.Machine.execMovp w s
  | .pmov w => Sys2Proof.Machine.execPmov w s
  | .fadd w => Sys2Proof.Machine.execFadd w s
  | .fsub w => Sys2Proof.Machine.execFsub w s
  | .fmul w => Sys2Proof.Machine.execFmul w s
  | .ffma w => Sys2Proof.Machine.execFfma w s
  | .fmin w => Sys2Proof.Machine.execFmin w s
  | .fmax w => Sys2Proof.Machine.execFmax w s
  | .fabs w => Sys2Proof.Machine.execFabs w s
  | .fneg w => Sys2Proof.Machine.execFneg w s
  | .badd2 w => Sys2Proof.Machine.execBadd2 w s
  | .bmul2 w => Sys2Proof.Machine.execBmul2 w s
  | .bfma2 w => Sys2Proof.Machine.execBfma2 w s
  | .hfma2 w => Sys2Proof.Machine.execHfma2 w s
  | .rcp w => Sys2Proof.Machine.execRcp w s
  | .rsq w => Sys2Proof.Machine.execRsq w s
  | .exp2 w => Sys2Proof.Machine.execExp2 w s
  | .log2 w => Sys2Proof.Machine.execLog2 w s
  | .sin w => Sys2Proof.Machine.execSin w s
  | .cos w => Sys2Proof.Machine.execCos w s
  | .tanh w => Sys2Proof.Machine.execTanh w s
  | .cvt w => Sys2Proof.Machine.execCvt w s
  | .ld8 w => Sys2Proof.Machine.execLd8 w s
  | .ld8s w => Sys2Proof.Machine.execLd8s w s
  | .ld16 w => Sys2Proof.Machine.execLd16 w s
  | .ld16s w => Sys2Proof.Machine.execLd16s w s
  | .ld32 w => Sys2Proof.Machine.execLd32 w s
  | .ld64 w => Sys2Proof.Machine.execLd64 w s
  | .ld128 w => Sys2Proof.Machine.execLd128 w s
  | .st8 w => Sys2Proof.Machine.execSt8 w s
  | .st16 w => Sys2Proof.Machine.execSt16 w s
  | .st32 w => Sys2Proof.Machine.execSt32 w s
  | .st64 w => Sys2Proof.Machine.execSt64 w s
  | .st128 w => Sys2Proof.Machine.execSt128 w s
  | .ldaq32 w => Sys2Proof.Machine.execLdaq32 w s
  | .ldaq64 w => Sys2Proof.Machine.execLdaq64 w s
  | .strl32 w => Sys2Proof.Machine.execStrl32 w s
  | .strl64 w => Sys2Proof.Machine.execStrl64 w s
  | .pref w => Sys2Proof.Machine.execPref w s
  | .atomAdd w => Sys2Proof.Machine.execAtomAdd w s
  | .atomAdd64 w => Sys2Proof.Machine.execAtomAdd64 w s
  | .atomFadd w => Sys2Proof.Machine.execAtomFadd w s
  | .atomImin w => Sys2Proof.Machine.execAtomImin w s
  | .atomImax w => Sys2Proof.Machine.execAtomImax w s
  | .atomIminu w => Sys2Proof.Machine.execAtomIminu w s
  | .atomImaxu w => Sys2Proof.Machine.execAtomImaxu w s
  | .atomAnd w => Sys2Proof.Machine.execAtomAnd w s
  | .atomOr w => Sys2Proof.Machine.execAtomOr w s
  | .atomXor w => Sys2Proof.Machine.execAtomXor w s
  | .atomXchg w => Sys2Proof.Machine.execAtomXchg w s
  | .atomIncb w => Sys2Proof.Machine.execAtomIncb w s
  | .atomCas32 w => Sys2Proof.Machine.execAtomCas32 w s
  | .atomCas64 w => Sys2Proof.Machine.execAtomCas64 w s
  | .atomCas128 w => Sys2Proof.Machine.execAtomCas128 w s
  | .atomAddMap2 w => Sys2Proof.Machine.execAtomAddMap2 w s
  | .atomAdd64Map2 w => Sys2Proof.Machine.execAtomAdd64Map2 w s
  | .atomFaddMap2 w => Sys2Proof.Machine.execAtomFaddMap2 w s
  | .atomIminMap2 w => Sys2Proof.Machine.execAtomIminMap2 w s
  | .atomImaxMap2 w => Sys2Proof.Machine.execAtomImaxMap2 w s
  | .atomIminuMap2 w => Sys2Proof.Machine.execAtomIminuMap2 w s
  | .atomImaxuMap2 w => Sys2Proof.Machine.execAtomImaxuMap2 w s
  | .atomAndMap2 w => Sys2Proof.Machine.execAtomAndMap2 w s
  | .atomOrMap2 w => Sys2Proof.Machine.execAtomOrMap2 w s
  | .atomXorMap2 w => Sys2Proof.Machine.execAtomXorMap2 w s
  | .atomXchgMap2 w => Sys2Proof.Machine.execAtomXchgMap2 w s
  | .atomIncbMap2 w => Sys2Proof.Machine.execAtomIncbMap2 w s
  | .atomCas32Map2 w => Sys2Proof.Machine.execAtomCas32Map2 w s
  | .atomCas64Map2 w => Sys2Proof.Machine.execAtomCas64Map2 w s
  | .atomCas128Map2 w => Sys2Proof.Machine.execAtomCas128Map2 w s
  | .fence w => Sys2Proof.Machine.execFence w s
  | .fenceAcq w => Sys2Proof.Machine.execFenceAcq w s
  | .fenceRel w => Sys2Proof.Machine.execFenceRel w s
  | .waita w => Sys2Proof.Machine.execWaita w s
  | .lld8 w => Sys2Proof.Machine.execLld8 w s
  | .lld16 w => Sys2Proof.Machine.execLld16 w s
  | .lld32 w => Sys2Proof.Machine.execLld32 w s
  | .lld64 w => Sys2Proof.Machine.execLld64 w s
  | .lld128 w => Sys2Proof.Machine.execLld128 w s
  | .lst8 w => Sys2Proof.Machine.execLst8 w s
  | .lst16 w => Sys2Proof.Machine.execLst16 w s
  | .lst32 w => Sys2Proof.Machine.execLst32 w s
  | .lst64 w => Sys2Proof.Machine.execLst64 w s
  | .lst128 w => Sys2Proof.Machine.execLst128 w s
  | .tld8 w => Sys2Proof.Machine.execTld8 w s
  | .tld16 w => Sys2Proof.Machine.execTld16 w s
  | .tld32 w => Sys2Proof.Machine.execTld32 w s
  | .plnw w => Sys2Proof.Machine.execPlnw w s
  | .plnr w => Sys2Proof.Machine.execPlnr w s
  | .tebq w => Sys2Proof.Machine.execTebq w s
  | .tebl w => Sys2Proof.Machine.execTebl w s
  | .latomAdd w => Sys2Proof.Machine.execLatomAdd w s
  | .latomImin w => Sys2Proof.Machine.execLatomImin w s
  | .latomImax w => Sys2Proof.Machine.execLatomImax w s
  | .latomAnd w => Sys2Proof.Machine.execLatomAnd w s
  | .latomOr w => Sys2Proof.Machine.execLatomOr w s
  | .latomXor w => Sys2Proof.Machine.execLatomXor w s
  | .latomXchg w => Sys2Proof.Machine.execLatomXchg w s
  | .latomCas w => Sys2Proof.Machine.execLatomCas w s
  | .bra w => Sys2Proof.Machine.execBra w s
  | .call w => Sys2Proof.Machine.execCall w s
  | .callr w => Sys2Proof.Machine.execCallr w s
  | .ret w => Sys2Proof.Machine.execRet w s
  | .jmpr w => Sys2Proof.Machine.execJmpr w s
  | .rcb w => Sys2Proof.Machine.execRcb w s
  | .exit w => Sys2Proof.Machine.execExit w s
  | .setpri w => Sys2Proof.Machine.execSetpri w s
  | .yield w => Sys2Proof.Machine.execYield w s
  | .trap w => Sys2Proof.Machine.execTrap w s
  | .brk w => Sys2Proof.Machine.execBrk w s
  | .join w => Sys2Proof.Machine.execJoin w s
  | .leave w => Sys2Proof.Machine.execLeave w s
  | .bara w => Sys2Proof.Machine.execBara w s
  | .barw w => Sys2Proof.Machine.execBarw w s
  | .bars w => Sys2Proof.Machine.execBars w s
  | .rkpush w => Sys2Proof.Machine.execRkpush w s
  | .acadd w => Sys2Proof.Machine.execAcadd w s
  | .rktest w => Sys2Proof.Machine.execRktest w s
  | .bmrank w => Sys2Proof.Machine.execBmrank w s
  | .bmsel w => Sys2Proof.Machine.execBmsel w s
  | .uadd w => Sys2Proof.Machine.execUadd w s
  | .usub w => Sys2Proof.Machine.execUsub w s
  | .umul w => Sys2Proof.Machine.execUmul w s
  | .uand w => Sys2Proof.Machine.execUand w s
  | .uor w => Sys2Proof.Machine.execUor w s
  | .uxor w => Sys2Proof.Machine.execUxor w s
  | .ushl w => Sys2Proof.Machine.execUshl w s
  | .ushr w => Sys2Proof.Machine.execUshr w s
  | .umin w => Sys2Proof.Machine.execUmin w s
  | .umax w => Sys2Proof.Machine.execUmax w s
  | .usel w => Sys2Proof.Machine.execUsel w s
  | .uaddi w => Sys2Proof.Machine.execUaddi w s
  | .ushli w => Sys2Proof.Machine.execUshli w s
  | .uandi w => Sys2Proof.Machine.execUandi w s
  | .umovi w => Sys2Proof.Machine.execUmovi w s
  | .umovhi w => Sys2Proof.Machine.execUmovhi w s
  | .ucmpEq w => Sys2Proof.Machine.execUcmpEq w s
  | .ucmpNe w => Sys2Proof.Machine.execUcmpNe w s
  | .ucmpLt w => Sys2Proof.Machine.execUcmpLt w s
  | .ucmpLe w => Sys2Proof.Machine.execUcmpLe w s
  | .ucmpGt w => Sys2Proof.Machine.execUcmpGt w s
  | .ucmpGe w => Sys2Proof.Machine.execUcmpGe w s
  | .ucmpLtu w => Sys2Proof.Machine.execUcmpLtu w s
  | .ucmpLeu w => Sys2Proof.Machine.execUcmpLeu w s
  | .ucmpGtu w => Sys2Proof.Machine.execUcmpGtu w s
  | .ucmpGeu w => Sys2Proof.Machine.execUcmpGeu w s
  | .umovsr w => Sys2Proof.Machine.execUmovsr w s
  | .umov w => Sys2Proof.Machine.execUmov w s
  | .uld32 w => Sys2Proof.Machine.execUld32 w s
  | .uld64 w => Sys2Proof.Machine.execUld64 w s
  | .ust32 w => Sys2Proof.Machine.execUst32 w s
  | .ust64 w => Sys2Proof.Machine.execUst64 w s
  | .ubra w => Sys2Proof.Machine.execUbra w s
  | .jmpf w => Sys2Proof.Machine.execJmpf w s
  | .cfetch w => Sys2Proof.Machine.execCfetch w s
  | .csegq w => Sys2Proof.Machine.execCsegq w s
  | .launch w => Sys2Proof.Machine.execLaunch w s
  | .joinl w => Sys2Proof.Machine.execJoinl w s
  | .mstart w => Sys2Proof.Machine.execMstart w s
  | .btcopy w => Sys2Proof.Machine.execBtcopy w s
  | .bttest w => Sys2Proof.Machine.execBttest w s
  | .waitc w => Sys2Proof.Machine.execWaitc w s
  | .qbind w => Sys2Proof.Machine.execQbind w s
  | .qstat w => Sys2Proof.Machine.execQstat w s
  | .rclaim w => Sys2Proof.Machine.execRclaim w s
  | .rpub w => Sys2Proof.Machine.execRpub w s
  | .rtake w => Sys2Proof.Machine.execRtake w s
  | .rfree w => Sys2Proof.Machine.execRfree w s
  | .barrem w => Sys2Proof.Machine.execBarrem w s
  | .bkopAdd w => Sys2Proof.Machine.execBkopAdd w s
  | .bkopMul w => Sys2Proof.Machine.execBkopMul w s
  | .bkopMax w => Sys2Proof.Machine.execBkopMax w s
  | .bkopMin w => Sys2Proof.Machine.execBkopMin w s
  | .bkopAxpy w => Sys2Proof.Machine.execBkopAxpy w s
  | .bkopCvt w => Sys2Proof.Machine.execBkopCvt w s
  | .bkred w => Sys2Proof.Machine.execBkred w s
  | .bkrank w => Sys2Proof.Machine.execBkrank w s
  | .bkrankCommit w => Sys2Proof.Machine.execBkrankCommit w s
  | .bkread w => Sys2Proof.Machine.execBkread w s
  | .acdeclSum w => Sys2Proof.Machine.execAcdeclSum w s
  | .acdeclRank w => Sys2Proof.Machine.execAcdeclRank w s
  | .acclr w => Sys2Proof.Machine.execAcclr w s
  | .acst w => Sys2Proof.Machine.execAcst w s
  | .acmrg w => Sys2Proof.Machine.execAcmrg w s
  | .acraise w => Sys2Proof.Machine.execAcraise w s
  | .accmp w => Sys2Proof.Machine.execAccmp w s
  | .acrd w => Sys2Proof.Machine.execAcrd w s
  | .mma w => Sys2Proof.Machine.execMma w s
  | .mzero w => Sys2Proof.Machine.execMzero w s
  | .mpost w => Sys2Proof.Machine.execMpost w s
  | .mact w => Sys2Proof.Machine.execMact w s
  | .mend w => Sys2Proof.Machine.execMend w s
  | .ecnt w => Sys2Proof.Machine.execEcnt w s
  | .rtlook w => Sys2Proof.Machine.execRtlook w s
  | .rtpin w => Sys2Proof.Machine.execRtpin w s
  | .rtunpin w => Sys2Proof.Machine.execRtunpin w s
  | .rtmerge w => Sys2Proof.Machine.execRtmerge w s
  | .syscall w => Sys2Proof.Machine.execSyscall w s
  | .utrap w => Sys2Proof.Machine.execUtrap w s
  | .loadDataLands op lane => Sys2Proof.Machine.execLoadDataLands op lane s
  | .storeAtHome op lane => Sys2Proof.Machine.execStoreAtHome op lane s
  | .storeAckReturns op => Sys2Proof.Machine.execStoreAckReturns op s
  | .atomicExecutes op lane => Sys2Proof.Machine.execAtomicExecutes op lane s
  | .atomicReply op lane => Sys2Proof.Machine.execAtomicReply op lane s
  | .remoteScratchpadAccess op lane => Sys2Proof.Machine.execRemoteScratchpadAccess op lane s
  | .monitorWake h g lane => Sys2Proof.Machine.execMonitorWake h g lane s
  | .monitorRetryTimer h g lane => Sys2Proof.Machine.execMonitorRetryTimer h g lane s
  | .pageFaultResolved t => Sys2Proof.Machine.execPageFaultResolved t s
  | .pageFaultRefused t => Sys2Proof.Machine.execPageFaultRefused t s
  | .pageMoveRequest die ctx va frame => Sys2Proof.Machine.execPageMoveRequest die ctx va frame s
  | .moveProtectDone die m => Sys2Proof.Machine.execMoveProtectDone die m s
  | .moveCopyDone die m => Sys2Proof.Machine.execMoveCopyDone die m s
  | .moveCopyAbort die m => Sys2Proof.Machine.execMoveCopyAbort die m s
  | .moveCommitDone die m => Sys2Proof.Machine.execMoveCommitDone die m s
  | .moveIdle die m => Sys2Proof.Machine.execMoveIdle die m s
  | .shootdownComplete sd => Sys2Proof.Machine.execShootdownComplete sd s
  | .formatWindowEnable die win value => Sys2Proof.Machine.execFormatWindowEnable die win value s
  | .launchAcceptance l => Sys2Proof.Machine.execLaunchAcceptance l s
  | .walkerAcceptRecord l => Sys2Proof.Machine.execWalkerAcceptRecord l s
  | .walkerCommitTile l => Sys2Proof.Machine.execWalkerCommitTile l s
  | .walkerResume l => Sys2Proof.Machine.execWalkerResume l s
  | .walkerRefused l => Sys2Proof.Machine.execWalkerRefused l s
  | .dispatchTask die => Sys2Proof.Machine.execDispatchTask die s
  | .spanPlacement die => Sys2Proof.Machine.execSpanPlacement die s
  | .taskStart h => Sys2Proof.Machine.execTaskStart h s
  | .mergeWindowClose die => Sys2Proof.Machine.execMergeWindowClose die s
  | .taskEnd h => Sys2Proof.Machine.execTaskEnd h s
  | .launchComplete l => Sys2Proof.Machine.execLaunchComplete l s
  | .segmentFetchLands f => Sys2Proof.Machine.execSegmentFetchLands f s
  | .transferStart t => Sys2Proof.Machine.execTransferStart t s
  | .chunkComplete t chunk => Sys2Proof.Machine.execChunkComplete t chunk s
  | .transferComplete t => Sys2Proof.Machine.execTransferComplete t s
  | .transferPageFault t => Sys2Proof.Machine.execTransferPageFault t s
  | .transferRestart t => Sys2Proof.Machine.execTransferRestart t s
  | .transferFailed t => Sys2Proof.Machine.execTransferFailed t s
  | .transferDrainTimeout t => Sys2Proof.Machine.execTransferDrainTimeout t s
  | .bankCommandComplete b => Sys2Proof.Machine.execBankCommandComplete b s
  | .streamStart k n => Sys2Proof.Machine.execStreamStart k n s
  | .matrixWordComplete k post => Sys2Proof.Machine.execMatrixWordComplete k post s
  | .streamStop h => Sys2Proof.Machine.execStreamStop h s
  | .routedOffer k => Sys2Proof.Machine.execRoutedOffer k s
  | .inserterInsertion h g => Sys2Proof.Machine.execInserterInsertion h g s
  | .windowClose => Sys2Proof.Machine.execWindowClose s
  | .windowCloseReceived die => Sys2Proof.Machine.execWindowCloseReceived die s
  | .placementEvaluation => Sys2Proof.Machine.execPlacementEvaluation s
  | .generationPublish j => Sys2Proof.Machine.execGenerationPublish j s
  | .generationCopyFail j => Sys2Proof.Machine.execGenerationCopyFail j s
  | .replicaWithdraw j e c => Sys2Proof.Machine.execReplicaWithdraw j e c s
  | .rtmergeComplete m => Sys2Proof.Machine.execRtmergeComplete m s
  | .cpyfailRead => Sys2Proof.Machine.execCpyfailRead s
  | .wdrawRead => Sys2Proof.Machine.execWdrawRead s
  | .ringEnable die r value => Sys2Proof.Machine.execRingEnable die r value s
  | .ringDisable die r => Sys2Proof.Machine.execRingDisable die r s
  | .ringCommandArrival c => Sys2Proof.Machine.execRingCommandArrival c s
  | .ringReply c => Sys2Proof.Machine.execRingReply c s
  | .ringDead die r => Sys2Proof.Machine.execRingDead die r s
  | .barremNoticeArrival n => Sys2Proof.Machine.execBarremNoticeArrival n s
  | .noticeAcknowledged n => Sys2Proof.Machine.execNoticeAcknowledged n s
  | .faultDisposal die => Sys2Proof.Machine.execFaultDisposal die s
  | .handlerContinue h g => Sys2Proof.Machine.execHandlerContinue h g s
  | .handlerEnd h g => Sys2Proof.Machine.execHandlerEnd h g s
  | .watchdog a => Sys2Proof.Machine.execWatchdog a s
  | .endTask h => Sys2Proof.Machine.execEndTask h s
  | .syscallReply h g lane reply => Sys2Proof.Machine.execSyscallReply h g lane reply s
  | .preemptRequest h => Sys2Proof.Machine.execPreemptRequest h s
  | .preemptSave h => Sys2Proof.Machine.execPreemptSave h s
  | .taskRestore idx core => Sys2Proof.Machine.execTaskRestore idx core s
  | .correctedError die => Sys2Proof.Machine.execCorrectedError die s
  | .uncorrectableError t => Sys2Proof.Machine.execUncorrectableError t s
  | .queueEnable die q value => Sys2Proof.Machine.execQueueEnable die q value s
  | .queueDisable die q => Sys2Proof.Machine.execQueueDisable die q s
  | .doorbell die q tail => Sys2Proof.Machine.execDoorbell die q tail s
  | .queueEntryTake die q => Sys2Proof.Machine.execQueueEntryTake die q s
  | .shootdown cmd => Sys2Proof.Machine.execShootdown cmd s
  | .takeDieOffline cmd => Sys2Proof.Machine.execTakeDieOffline cmd s
  | .tearDownContext cmd => Sys2Proof.Machine.execTearDownContext cmd s
  | .quote cmd => Sys2Proof.Machine.execQuote cmd s
  | .stageSuccessorKernel cmd => Sys2Proof.Machine.execStageSuccessorKernel cmd s
  | .latencyTolerance cmd => Sys2Proof.Machine.execLatencyTolerance cmd s
  | .registerWrite die off size value => Sys2Proof.Machine.execRegisterWrite die off size value s
  | .powerOn bootDie => Sys2Proof.Machine.execPowerOn bootDie s
  | .bootReadyTimeout => Sys2Proof.Machine.execBootReadyTimeout s
  | .firstStageImage image => Sys2Proof.Machine.execFirstStageImage image s
  | .versionNegotiation l lo1 hi1 lo2 hi2 => Sys2Proof.Machine.execVersionNegotiation l lo1 hi1 lo2 hi2 s
  | .edgeDown edge => Sys2Proof.Machine.execEdgeDown edge s
  | .linkCrcFailure l => Sys2Proof.Machine.execLinkCrcFailure l s
  | .oldKernelReady => Sys2Proof.Machine.execOldKernelReady s
  | .oldKernelJump => Sys2Proof.Machine.execOldKernelJump s
  | .successorAdopt table => Sys2Proof.Machine.execSuccessorAdopt table s
  | .successorCheckIn => Sys2Proof.Machine.execSuccessorCheckIn s
  | .handoverTimeout => Sys2Proof.Machine.execHandoverTimeout s
  | .reductionPayload port sent payload => Sys2Proof.Machine.execReductionPayload port sent payload s
  | .lehrEntry => Sys2Proof.Machine.execLehrEntry s
  | .lehrExit need => Sys2Proof.Machine.execLehrExit need s
  | .lehrExitComplete => Sys2Proof.Machine.execLehrExitComplete s
  | .contextInstall num desc => Sys2Proof.Machine.execContextInstall num desc s
  | .contextMapChange num map => Sys2Proof.Machine.execContextMapChange num map s
  | .expertCommandArrival c => Sys2Proof.Machine.execExpertCommandArrival c s
  | .expertCommandReply c => Sys2Proof.Machine.execExpertCommandReply c s
  | .writeAtDiePoint op lane => Sys2Proof.Machine.execWriteAtDiePoint op lane s
  | .remoteScratchpadReply op lane => Sys2Proof.Machine.execRemoteScratchpadReply op lane s
  | .systemSoftwareMemoryWrite pa data => Sys2Proof.Machine.execSystemSoftwareMemoryWrite pa data s

end Sys2Proof.Machine
end

