-- ==== Sys2Proof/Machine/Issue.lean ====
section
/-!
DEFINITION. Issue (03 R56-R61, 06 R108, 07 R133-R139, 16 R304): which entry of a gang offers a word, when a stalled word
goes on, the fetch of a word from a landed segment, and its decoding under the context's map.
-/
namespace Sys2Proof.Machine

open Sys2Proof

/-! ## Choosing the entry (07 R135, R136) -/

/-- Whether an entry is ready, or blocked on what has come about: registers no longer empty, queues that can proceed (Table 7-1). One that
waits for a unit or a latency is ready: its word has not issued (R136). -/
def Task.offers (t : Task) (g : Nat) (e : Entry) : Bool :=
  match e.st with
  | .ready => true
  | .emptyReg need => need.all fun p => AList.get .full ((t.gang g).thread p.1).rstate p.2 != .empty
  | .queue pops pushes => t.queuesReady pops pushes
  | .stall k => !k.issued
  | _ => false

/-- The stall of an entry whose word is under way. -/
def Entry.stalled (e : Entry) : Option Stall :=
  match e.st with
  | .stall k => some k
  | _ => none

/-- Whether what a stalled word waits for has come about; false where an event of its own completes it. -/
def State.resumable (s : State) (w : Who) (k : Stall) : Bool :=
  match k with
  | .release scope n _ => s.releaseDone w scope n
  | .publish _ _ scope n => s.writesVisible w.owner (coreOf w) w.die scope n
  | .free _ _ scope n => s.releaseDone w scope n
  | .call _ _ n => s.releaseDone w 5 n
  | .returned n => s.loadsLanded w.owner n
  | .acquire _ n => s.loadsLanded w.owner n
  | .full scope n => s.fenceReady w 0 scope n
  | .arrive _ scope n => s.arrivalDone w scope n
  | .notice _ scope n => s.arrivalDone w scope n
  | .held => true
  | .asleep pa => s.awake pa
  | .counter cls => decide (s.count w cls < 63)
  | .waitc cls n => decide (s.count w cls ≤ n)
  | .launch _ n => s.releaseDone w 5 n
  | .mstart _ n => s.releaseDone w 3 n
  | .joinSlot _ =>
    match s.context (s.ctxOf (s.gangOf w).1) with
    | some c => (c.freeJoin s.tick).isSome
    | none => false
  | .joined _ _ n => s.loadsLanded w.owner n
  | .streamSlot _ => s.streamRoom (hCluster (s.gangOf w).1)
  | .inserter => (s.gang (s.gangOf w).1 (s.gangOf w).2).inserter == []
  | .matrixSlots =>
    match w with
    | .stream k i => decide ((s.cluster k).outstanding i < 4)
    | .gang _ _ => true
  | .tile =>
    match w with
    | .stream k _ => (List.range 8).any fun p => (AList.get Tile.free (s.cluster k).tiles p).owner.isNone
    | .gang _ _ => true
  | .streamDrain => s.streamDrained w
  | .interlock need => need.all fun p => AList.get .full ((s.gang (s.gangOf w).1 (s.gangOf w).2).thread p.1).rstate p.2 != .interlocked
  | .load _ => false
  | .joinl _ => false
  | .syscall _ => false
  | .reply _ => false

/-- Whether `a` comes before `b`: higher priority, then lower PC. -/
def Entry.precedes (a b : Entry) : Bool := decide (b.pri.toNat < a.pri.toNat) || (a.pri == b.pri && decide (a.pc.toNat < b.pc.toNat))

/-- The better of two candidates; between equals, one whose word is under way, then the earlier. -/
def Entry.better (b : Option Entry) (e : Entry) : Option Entry :=
  match b with
  | none => some e
  | some x => if e.precedes x || (!x.precedes e && e.stalled.isSome && x.stalled.isNone) then some e else some x

/-- Whether an entry stands in a SYSCALL, from its release to its return: other entries of its gang keep issuing (21 R372). -/
def Entry.called (e : Entry) : Bool :=
  match e.st with
  | .stall (.call _ _ _) => true
  | .stall (.syscall _) => true
  | .stall (.returned _) => true
  | _ => false

/-- The entry a gang would offer: a stalled one lets no lower entry issue (R136), but for one that stands in a SYSCALL. -/
def Task.candidate (t : Task) (g : Nat) : Option Entry :=
  ((t.gang g).frontier.filter fun e => t.offers g e || (e.stalled.isSome && !e.called)).foldl Entry.better none

/-- Whether a ready entry merges into the chosen one: it stands at its word, at its priority (R135). -/
def Task.merges (t : Task) (g : Nat) (e x : Entry) : Bool := t.offers g x && x.pc == e.pc && x.pri == e.pri

/-- Two popped entries in one: the lanes of a mask take the second's. -/
def QEntry.join (q : QEntry) (m : LaneMask) (r : QEntry) : QEntry :=
  { words := (lanesOf m).foldl (fun a i => AList.set 0 a i (AList.get 0 r.words i)) q.words,
    poison := (q.poison &&& ~~~m) ||| (r.poison &&& m) }

/-- A ready entry merges into the chosen one: the merged word acts on the queues that the chosen entry keeps, else on those the other
keeps; of the entries that each has popped, every lane reads its own (05 R100, R105, log 23). -/
def Entry.absorb (e x : Entry) : Entry :=
  { e with
    mask := e.mask ||| x.mask,
    qkeep := if e.qkeep = [] then x.qkeep else e.qkeep,
    held := match e.held, x.held with
      | some q, some r => some (q.join x.mask r)
      | none, h => h
      | h, none => h }

/-- Whether a task's words issue. -/
def Task.issues (t : Task) : Bool := t.phase == .running && t.fate == .alive

/-- The entry that a gang offers, and the frontier without it. -/
def State.offer (s : State) (h g : Nat) : Option (Entry × State) :=
  match s.task h with
  | none => none
  | some t =>
    if !t.issues then none
    else
      match t.candidate g with
      | none => none
      | some e =>
        if e.stalled.any fun k => !s.resumable (.gang h g) k then none
        else if e.st.issued then some (e, s.modGang h g fun gg => { gg with frontier := gg.frontier.erase e })
        else
          some ((((t.gang g).frontier.erase e).filter (t.merges g e)).foldl Entry.absorb e,
            s.modGang h g fun gg => { gg with frontier := (gg.frontier.erase e).filter fun x => !t.merges g e x })

/-- A stalled entry whose word has issued, and the frontier without it: such a word completes while its task stops or ends too (21
R368, R374). -/
def State.resume (s : State) (h g n : Nat) : Option (Entry × State) :=
  match s.task h with
  | none => none
  | some t =>
    match (t.gang g).frontier[n]? with
    | none => none
    | some e =>
      match e.stalled with
      | none => none
      | some k =>
        if k.issued && (t.phase == .running || t.phase == .stopping || t.phase == .ending) && s.resumable (.gang h g) k then
          some (e, s.modGang h g fun gg => { gg with frontier := gg.frontier.eraseIdx n })
        else none

/-- The word that a stream could issue, as an entry with an empty mask; none once every thread of its task has exited (16 R306). It has no
frontier entry: PRI reads 0 in it (log 82). -/
def State.streamReady (s : State) (k i : Nat) : Option Entry :=
  match s.stream k i with
  | none => none
  | some x =>
    match s.task x.h with
    | none => none
    | some t =>
      let ok := match x.st with
        | .ready => true
        | .stall w => s.resumable (.stream k i) w
        | _ => false
      if x.started && !x.stopping && t.issues && !t.finished && ok then
        some { pc := x.pc, pri := 0, mask := 0, st := x.st, qkeep := [], held := none }
      else none

/-- The stream of a cluster whose word is next, round-robin, streams that cannot issue being skipped (16 R304). -/
def State.streamChosen (s : State) (k : Nat) : Option Nat :=
  ((List.range 4).map fun j => ((s.cluster k).nextStream + j) % 4).find? fun i => (s.streamReady k i).isSome

/-- The word that a stream issues now. -/
def State.streamOffer (s : State) (k i : Nat) : Option Entry := if s.streamChosen k = some i then s.streamReady k i else none

/-! ## Fetch and decode (03 R56-R60, 08 R174, 11 R266) -/

/-- The landed slot that holds the segment of a gang's or stream's word. -/
def State.codeSlot (s : State) (w : Who) (pc : Word) : Option ISlot :=
  match w with
  | .gang h _ =>
    match s.task h with
    | none => none
    | some t => (s.slotOf (hCore h) t (pc.toNat / 8192)).map Prod.snd
  | .stream k i =>
    match s.stream k i with
    | none => none
    | some x => AList.get none (s.cluster k).mslots x.slot

/-- The word at an offset of a slot: beyond the segment's end, the filler (R60). -/
def ISlot.word (x : ISlot) (off : Nat) : Word := AList.get 0x7FE00000 x.code (off / 4)

/-- POISON of a poisoned instruction word (21 R380): the address is the word's in its segment's image. -/
def State.poisonedWord (s : State) (w : Who) (e : Entry) (x : ISlot) (off : Nat) (word : Word) : State :=
  let va := x.addr + off
  match w with
  | .gang h g =>
    s.raise h g (if word.getLsbD 31 then .uniform kPOISON e.pc e.mask 6 va else .lane kPOISON e.pc e.mask 6 va) e
  | .stream k i => s.raiseStream k i (word.getLsbD 31) e.pc kPOISON 6 va

/-- What an issuer's word is: its instruction, or the ILLEGAL cause (R57: the lowest that applies). -/
noncomputable def decodeFor (map : Nat) (stream : Bool) (off : Nat) (word : Word) : Except Nat Instr :=
  match decodeWord map word with
  | .error r => .error r.cause
  | .ok i => if i.placeBad stream then .error 8 else if i.targetBad off then .error 9 else .ok i

/-- The state in which an issuer's word executes: the issuer out of the frontier, its slot referenced (08 R174, 11 R266), the operand
latch one instruction on (05 R85), the order of issue updated (06 R108, 16 R304). -/
def State.prepare (s : State) (w : Who) (e : Entry) : State :=
  let s : State := { s with cur := some ⟨w, e⟩ }
  match w with
  | .gang h g =>
    (s.touch h (e.pc.toNat / 8192)).modGang h g fun gg =>
      { gg with lastIssue := s.tick,
                latch := (gg.latch.filter fun l => decide (0 < l.left)).map fun l => { l with left := l.left - 1 } }
  | .stream k i =>
    (s.modStream k i fun x => { x with lastIssue := s.tick }).modCluster k fun c =>
      { (match AList.get none c.streams i with
          | some x => c.touchSlot x.slot s.tick
          | none => c) with nextStream := (i + 1) % 4 }

/-- Whether an entry of a gang stands in a word that has issued and will yet write uniform registers: a uniform load, a ring or expert
word, a LAUNCH or a JOINL. One that stands in a SYSCALL holds no other back (21 R372). -/
def State.awaitsUniform (s : State) (w : Who) : Bool :=
  match w with
  | .stream _ _ => false
  | .gang h g => (s.gang h g).frontier.any fun e => match e.st with
      | .stall (.load n) => s.loads.any fun o => o.id == n && o.uniform
      | .stall (.reply _) => true
      | .stall (.launch _ _) => true
      | .stall (.joinSlot _) => true
      | .stall (.joinl _) => true
      | .stall (.joined _ _ _) => true
      | _ => false

/-- Whether a word that has not issued waits for an earlier uniform word of its gang: uniform words take effect in the order of issue, and a
lane word reads uniform registers as they then stand (05 R91, log 85). -/
def State.awaits (s : State) (w : Who) (e : Entry) (word : Word) (i : Instr) : Bool :=
  !e.st.issued && (word.getLsbD 31 || i.readsPair) && s.awaitsUniform w

/-- Issues an entry's word: fetch, decode, execute. While no landed slot holds the word nothing issues (08 R174). -/
noncomputable def State.issue (s : State) (w : Who) (e : Entry) : Out :=
  match s.codeSlot w e.pc with
  | none => .next (s.stayAt w e e.st)
  | some x =>
    if !x.landed then .next (s.stayAt w e e.st)
    else
      let off := e.pc.toNat % 8192
      let word := x.word off
      if AList.get false x.poison (off / 4) then .next (s.poisonedWord w e x off word)
      else
        match decodeFor (s.mapOf (s.gangOf w).1) w.isStream off word with
        | .error c => .next (s.illegal w e (word.getLsbD 31) c word.toNat)
        | .ok i => if s.awaits w e word i then .next (s.stayAt w e (.stall .held)) else exec i (s.prepare w e)

/-! ## What moves next (log 1) -/

/-- In a task that is to end, lanes whose word has completed exit (21 R368). -/
def State.reap (s : State) (h g : Nat) : State :=
  match s.task h with
  | none => s
  | some t => if t.fate == .alive then s else s.modGang h g Gang.stop

/-- What a turn does. -/
noncomputable def State.runTurn (s : State) (t : Turn) : Out :=
  match t with
  | .gang h g =>
    match s.offer h g with
    | none => .next s
    | some (e, s) => s.issue (.gang h g) e
  | .resume h g n =>
    match s.resume h g n with
    | none => .next s
    | some (e, s) =>
      match s.issue (.gang h g) e with
      | .next s => .next (s.reap h g)
      | r => r
  | .stream k i =>
    match s.streamOffer k i with
    | none => .next s
    | some e => s.issue (.stream k i) e
  | .event e => if e.isWord then .next s else exec e s

/-- The turns that issue a word now, or complete one of a SYSCALL, with the tick of the last issue (06 R108, 16 R304). -/
def State.offering (s : State) : List (Nat × Turn) :=
  (s.tasks.flatMap fun p => match p.2 with
    | none => []
    | some t => (List.range t.gangCount).flatMap fun g =>
        (if (s.offer p.1 g).isSome then [((t.gang g).lastIssue, Turn.gang p.1 g)] else []) ++
          (List.range (t.gang g).frontier.length).filterMap fun n =>
            if ((t.gang g).frontier[n]?.any Entry.called) && (s.resume p.1 g n).isSome then some ((t.gang g).lastIssue, Turn.resume p.1 g n)
            else none) ++
  (s.clusters.flatMap fun p => p.2.streams.filterMap fun q => match q.2 with
    | none => none
    | some x => if (s.streamOffer p.1 q.1).isSome then some (x.lastIssue, .stream p.1 q.1) else none)

/-- With no turn given, the gang or stream that issued least recently. -/
def State.defaultTurn (s : State) : Option Turn :=
  (s.offering.foldl (fun (b : Option (Nat × Turn)) p => match b with
    | none => some p
    | some x => if p.1 < x.1 then some p else some x) none).map Prod.snd

/-- The state a step starts from: one turn used, one tick on. -/
def State.tickOn (s : State) : State := { s with turns := s.turns.tail, tick := s.tick + 1, cur := none }

/-- The turn of a step. -/
def State.turn (s : State) : Option Turn :=
  match s.turns with
  | t :: _ => some t
  | [] => s.defaultTurn

end Sys2Proof.Machine
end

