-- ==== Sys2Proof/Machine/Step.lean ====
section
/-!
DEFINITION. One step of the package, and the state that holds one given word where the next step fetches.
-/
namespace Sys2Proof.Machine

open Sys2Proof

/-- One step: the next turn, if any. -/
noncomputable def step (s : State) : Out :=
  match s.turn with
  | some t => s.tickOn.runTurn t
  | none => .next s.tickOn

/-! ## Placing a word (log 8) -/

/-- The context in which a placed word runs: the decode map, and nothing mapped. -/
def wordContext (map : Nat) : Context :=
  { desc := { map := map, handlerMask := 0, watchdog := 1000, roots := [], spillLimit := 0, logBase := 0, logLen := 0 },
    fidx := 0, joins := [], nextSeq := 0, torn := false }

/-- A variant of one gang. -/
def wordVariant : Variant :=
  { bkt := [], threads := 32, depth := 256, gran := 1, spill := 1280, nq := 1, nbar := 1, prod := 0, fmask := 0, entry := 0, fmap := 0,
    fstage := [], fbmap := [] }

/-- A launch packet with nothing in it. -/
def wordPacket : Packet :=
  { version := 1, kind := 0, steal := 0, spanbar := 0, lpri := 0, kobj := 0, work := 0, nitems := 1, args := 0, crec := 0, sh := [],
    follow := [], reserved := false, lost := [] }

/-- A launch of one task, which runs. -/
def wordLaunch (map : Nat) : Launch :=
  { ctx := 1, die := 0, token := none, packet := wordPacket, phase := .done, map := map, nseg := 1, segtab := 0,
    variant := some wordVariant, entryAddr := 0, entryLen := 8192, tensor := none, followers := [], recs := [], items := [],
    nread := 1, spec := 1, committed := 1, created := 1, ended := 0, run := 0, skip := 0, fault := 0, fidx := none, refusal := 0,
    wcause := 0, killed := false, system := false, crecWait := false, release := none }

/-- A running task of one gang on core 0. -/
def wordTask : Task :=
  { ctx := 1, launch := 0, ident := { taskid := 0, tile := [], extx := 0, exty := 0, home := 0, spanidx := none, args := 0 },
    variant := wordVariant, sh := [], phase := .running, fate := .alive, started := true, block0 := 0, granules := [0],
    gangs := [(0, Gang.start 0)], scratch := [], scratchPoison := [], mdesc := [], queues := [],
    barriers := AList.set Barrier.fresh [] 0 { Barrier.fresh with members := [(0, allLanes)] }, spanbar := 0, spill := [],
    spillPoison := [], fetchRefs := [], pins := [], tokens := [], saved := [], streams := [] }

/-- A landed segment 0 with one word at its start. -/
def wordSlot (w : Word) : ISlot :=
  { ctx := 1, kobj := 0, seg := 0, landed := true, addr := 0, len := 8192, code := AList.set 0x7FE00000 [] 0 w, poison := [], recency := 0 }

/-- A started stream of the task's gang. -/
def wordStream : Stream := { Stream.start 0 0 0 0 0 0 with started := true }

/-- Whether a word is one that only a matrix stream may issue (0x180-0x184 with the set bit, 03 R55). -/
def isMatrixWord (w : Word) : Bool := decide (0x580 ≤ w.toNat / 2 ^ 21 ∧ w.toNat / 2 ^ 21 ≤ 0x584)

/-- `s` with one word placed where the next step fetches: a task with one gang on core 0, under the decode map that holds the word,
and for a matrix word a stream of that gang. -/
def State.withFetchWord (s : State) (nbits w : Nat) : State :=
  let v : Word := BitVec.ofNat 32 (w % 2 ^ nbits)
  let s : State :=
    { s with
      contexts := AList.set none s.contexts 1 (some (wordContext (tableMap v))),
      launches := AList.set none s.launches 0 (some (wordLaunch (tableMap v))),
      tasks := AList.set none s.tasks 0 (some wordTask),
      turns := [if isMatrixWord v then .stream 0 0 else .gang 0 0] }
  if isMatrixWord v then
    s.modCluster 0 fun c =>
      { c with streams := AList.set none c.streams 0 (some wordStream), mslots := AList.set none c.mslots 0 (some (wordSlot v)), nextStream := 0 }
  else s.modCore 0 fun c => { c with islots := AList.set none c.islots 0 (some (wordSlot v)) }

end Sys2Proof.Machine
end

