-- ==== Sys2Proof/Safety.lean ====
section
/-!
DEFINITION. What counts as a safe run: from a state, no number of steps ends in a fault or a refusal.
-/
namespace Sys2Proof

open Sys2Proof.Machine

/-- An outcome that is a next state. -/
def isNext (o : Host.Outcome State Fault Refusal) : Bool :=
  match o with
  | .next _ => true
  | .fault _ => false
  | .refused _ => false

/-- No number of steps from `s` stops. -/
def Safe (s : State) : Prop := ∀ n, isNext (core.run n s) = true

/-- A state reached from `s`. -/
def Reaches (s t : State) : Prop := ∃ n, core.run n s = .next t

end Sys2Proof
end

