-- ==== Sys2Proof/Certificates/Slice0/Obligations.lean ====
section
/-!
DEFINITION. The statements for the provers, and the vocabulary they are written in (namespace `Sys2Proof.Say`). -/
namespace Sys2Proof.Say

open Sys2Proof Sys2Proof.Machine

/-! ## Issuing a word -/

/-- Gang `g` of task `h` issues frontier entry `e`. -/
structure Issues (s : State) (h g : Nat) (e : Entry) (t : Task) : Prop where
  cur : s.cur = some ⟨.gang h g, e⟩
  task : s.task h = some t
  lanes : e.mask ≠ 0

/-- The same of a word that is not the last of a segment that fills its slot. -/
structure IssuesInside (s : State) (h g : Nat) (e : Entry) (t : Task) : Prop extends Issues s h g e t where
  word : e.pc.toNat % 8192 ≠ 0x1FFC

/-- The issuing entry taken out of `cur`. -/
def issued (s : State) : State := { s with cur := none }

/-- Lanes that have completed the last word of a segment that fills its slot: ILLEGAL with cause 10 and address 0x2000, or, where the record
is busy, a wait for it (03 R61). -/
def pastEnd (s : State) (h g : Nat) (e : Entry) : State :=
  if (s.gang h g).record.busy = true then s.putEntry h g { e with st := .parked .pastEnd, qkeep := [], held := none }
  else s.raise h g (.lane 1 e.pc e.mask (10 + 256 * s.mapOf h) 0x2000) { e with st := .ready, qkeep := [], held := none }

/-- The lanes of an entry, if any, go on: ready at the next word, or past the end of a segment. -/
def goesOn (s : State) (h g : Nat) (e : Entry) : State :=
  if e.mask = 0 then s
  else if e.pc.toNat % 8192 = 0x1FFC then pastEnd s h g e
  else s.putEntry h g { pc := e.pc + 4, pri := e.pri, mask := e.mask, st := .ready, qkeep := [], held := none }

/-- Register `k` is full in the lanes of `m`. -/
def Full (D : Nat) (gg : Gang) (m : LaneMask) (k : Nat) : Prop :=
  ∀ i, i < 32 → m.getLsbD i = true → (gg.thread i).regState D k = .full

/-- Register `k` is full and holds no poison in the lanes of `m`. -/
def Good (D : Nat) (gg : Gang) (m : LaneMask) (k : Nat) : Prop :=
  ∀ i, i < 32 → m.getLsbD i = true → (gg.thread i).regState D k = .full ∧ (gg.thread i).regPoison D k = false

/-! ## Lane words that compute in their lanes -/

/-- What a lane word computes: a register value from its lane and the values x, y, z of a, b and d, with the flags it sets
where it can set any; a truth value combined into a predicate; or predicates p1-p7 from a register. -/
inductive Result
  | reg (d : Nat) (value : Gang → LaneMask → Nat → Word → Word → Word → Word) (flags : Option (Word → Word → Word → FFlags))
  | pred (pd : Nat) (comb : BitVec 2) (value : Thread → Word → Word → Bool × FFlags)
  | preds

/-- A lane word: guard, sources with their empty action, whether it reads d, the operand it holds. -/
structure LaneRow where
  guard : Nat
  srcs : List (Nat × Bool)
  keeps : Option Nat
  held : Option Nat
  result : Result

def regRow (guard : BitVec 3) (srcs : List (Nat × Bool)) (d : BitVec 5) (keeps : Bool) (held : Option Nat)
    (f : Word → Word → Word → Word) (fl : Option (Word → Word → Word → FFlags)) : Option LaneRow :=
  some { guard := guard.toNat, srcs := srcs, keeps := if keeps then some d.toNat else none, held := held,
         result := .reg d.toNat (fun _ _ _ => f) fl }

/-- An LR word of two sources. -/
def lr (w : LR) (f : Word → Word → Word → Word) : Option LaneRow :=
  regRow w.g [(w.a.toNat, w.ea), (w.b.toNat, w.eb)] w.d false (if w.h then some w.a.toNat else none) f none

/-- An LR word of two sources that also reads d. -/
def lr3 (w : LR) (f : Word → Word → Word → Word) : Option LaneRow :=
  regRow w.g [(w.a.toNat, w.ea), (w.b.toNat, w.eb)] w.d true (if w.h then some w.a.toNat else none) f none

/-- An LR word of one source. -/
def lr1 (w : LRA) (f : Word → Word) : Option LaneRow :=
  regRow w.g [(w.a.toNat, w.ea)] w.d false (if w.h then some w.a.toNat else none) (fun x _ _ => f x) none

/-- An LI word with a sign-extended immediate. -/
def li (w : LI) (f : Word → Word → Word) : Option LaneRow :=
  regRow w.g [(w.a.toNat, false)] w.d false none (fun x _ _ => f x (w.imm.signExtend 32)) none

/-- A shift by an unsigned immediate. -/
def li5 (w : LI5) (f : Word → Nat → Word) : Option LaneRow :=
  regRow w.g [(w.a.toNat, false)] w.d false none (fun x _ _ => f x w.imm.toNat) none

/-- A floating-point LR word of two sources. -/
def fl (w : LR) (f : Word → Word → Word × FFlags) : Option LaneRow :=
  regRow w.g [(w.a.toNat, w.ea), (w.b.toNat, w.eb)] w.d false (if w.h then some w.a.toNat else none)
    (fun x y _ => (f x y).1) (some fun x y _ => (f x y).2)

/-- A floating-point LR word that also reads d. -/
def fl3 (w : LR) (f : Word → Word → Word → Word × FFlags) : Option LaneRow :=
  regRow w.g [(w.a.toNat, w.ea), (w.b.toNat, w.eb)] w.d true (if w.h then some w.a.toNat else none)
    (fun x y z => (f x y z).1) (some fun x y z => (f x y z).2)

/-- A floating-point LR word of one source. -/
def fl1 (w : LRA) (f : Word → Word × FFlags) : Option LaneRow :=
  regRow w.g [(w.a.toNat, w.ea)] w.d false (if w.h then some w.a.toNat else none) (fun x _ _ => (f x).1)
    (some fun x _ _ => (f x).2)

/-- Both 16-bit elements of three words (06 R122): element 1 above element 0, flags of both. -/
def pairs (f : Nat → Nat → Nat → FRes) (x y z : Word) : Word × FFlags :=
  let lo := f (x.toNat % 65536) (y.toNat % 65536) (z.toNat % 65536)
  let hi := f (x.toNat / 65536) (y.toNat / 65536) (z.toNat / 65536)
  (BitVec.ofNat 32 (65536 * hi.1 + lo.1), lo.2 ||| hi.2)

/-- A compare. -/
def lc (w : LC) (f : Word → Word → Bool × FFlags) : Option LaneRow :=
  some { guard := w.g.toNat, srcs := [(w.a.toNat, w.ea), (w.b.toNat, w.eb)], keeps := none,
         held := if w.h then some w.a.toNat else none, result := .pred w.pd.toNat w.comb fun _ => f }

/-- A predicate operation. -/
def lp (pd : BitVec 3) (comb : BitVec 2) (g : BitVec 3) (f : Thread → Bool) : Option LaneRow :=
  some { guard := g.toNat, srcs := [], keeps := none, held := none, result := .pred pd.toNat comb fun t _ _ => (f t, 0) }

/-- Integer register words (06 Table 6-3). -/
def integerRow : Instr → Option LaneRow
  | .iadd w => lr w fun x y _ => x + y
  | .isub w => lr w fun x y _ => x - y
  | .imul w => lr w fun x y _ => x * y
  | .imulhi w => lr w fun x y _ => (x.signExtend 64 * y.signExtend 64).extractLsb' 32 32
  | .imulhu w => lr w fun x y _ => (x.zeroExtend 64 * y.zeroExtend 64).extractLsb' 32 32
  | .imad w => lr3 w fun x y z => x * y + z
  | .imin w => lr w fun x y _ => if x.slt y then x else y
  | .imax w => lr w fun x y _ => if x.slt y then y else x
  | .iminu w => lr w fun x y _ => if x.ult y then x else y
  | .imaxu w => lr w fun x y _ => if x.ult y then y else x
  | .and w => lr w fun x y _ => x &&& y
  | .or w => lr w fun x y _ => x ||| y
  | .xor w => lr w fun x y _ => x ^^^ y
  | .andn w => lr w fun x y _ => x &&& ~~~y
  | .shl w => lr w fun x y _ => x <<< y.toNat
  | .shr w => lr w fun x y _ => x >>> y.toNat
  | .sar w => lr w fun x y _ => x.sshiftRight y.toNat
  | .popc w => lr1 w fun x => BitVec.ofNat 32 ((List.range 32).countP fun i => x.getLsbD i)
  | .clz w => lr1 w BitVec.clz
  | .brev w => lr1 w BitVec.reverse
  | .iaddsat w => lr w fun x y _ => BitVec.ofInt 32 (max (-2147483648) (min 2147483647 (x.toInt + y.toInt)))
  | _ => none

/-- Words with an immediate (06 R118, R119). A queue port in an LW word is illegal (03 R46). -/
def immediateRow : Instr → Option LaneRow
  | .iaddi w => li w fun x k => x + k
  | .andi w => li w fun x k => x &&& k
  | .ori w => li w fun x k => x ||| k
  | .xori w => li w fun x k => x ^^^ k
  | .imuli w => li w fun x k => x * k
  | .shli w => li5 w fun x n => x <<< n
  | .shri w => li5 w fun x n => x >>> n
  | .sari w => li5 w fun x n => x.sshiftRight n
  | .movi w => if w.d.toNat < 28 then regRow 0 [] w.d false none (fun _ _ _ => w.imm.signExtend 32) none else none
  | .movhi w =>
    if w.d.toNat < 28 then regRow 0 [] w.d true none (fun _ _ z => (w.imm.zeroExtend 32 <<< 16) ||| (z &&& 0xFFFF)) none else none
  | _ => none

/-- Compares (06 Table 6-4) and predicate operations (06 R116). -/
def compareRow : Instr → Option LaneRow
  | .icmpEq w => lc w fun x y => (decide (x = y), 0)
  | .icmpNe w => lc w fun x y => (decide (x ≠ y), 0)
  | .icmpLt w => lc w fun x y => (x.slt y, 0)
  | .icmpLe w => lc w fun x y => (x.sle y, 0)
  | .icmpGt w => lc w fun x y => (y.slt x, 0)
  | .icmpGe w => lc w fun x y => (y.sle x, 0)
  | .icmpLtu w => lc w fun x y => (x.ult y, 0)
  | .icmpLeu w => lc w fun x y => (x.ule y, 0)
  | .icmpGtu w => lc w fun x y => (y.ult x, 0)
  | .icmpGeu w => lc w fun x y => (y.ule x, 0)
  | .fcmpEq w => lc w (fcmp .eq)
  | .fcmpNe w => lc w (fcmp .ne)
  | .fcmpLt w => lc w (fcmp .lt)
  | .fcmpLe w => lc w (fcmp .le)
  | .fcmpGt w => lc w (fcmp .gt)
  | .fcmpGe w => lc w (fcmp .ge)
  | .fcmpOrd w => lc w (fcmp .ord)
  | .fcmpUno w => lc w (fcmp .uno)
  | .pand w => lp w.pd w.comb w.g fun t => t.pred w.a.toNat && t.pred w.b.toNat
  | .por w => lp w.pd w.comb w.g fun t => t.pred w.a.toNat || t.pred w.b.toNat
  | .pxor w => lp w.pd w.comb w.g fun t => t.pred w.a.toNat != t.pred w.b.toNat
  | .pnot w => lp w.pd w.comb w.g fun t => !t.pred w.a.toNat
  | _ => none

/-- Floating-point words (06 R120-R124, 04 R76). -/
def floatRow : Instr → Option LaneRow
  | .fadd w => fl w f32Add
  | .fsub w => fl w f32Sub
  | .fmul w => fl w f32Mul
  | .ffma w => fl3 w f32Fma
  | .fmin w => fl w f32Min
  | .fmax w => fl w f32Max
  | .fabs w => lr1 w fun x => x &&& 0x7FFFFFFF
  | .fneg w => lr1 w fun x => x ^^^ 0x80000000
  | .badd2 w => fl w fun x y => pairs (fun a b _ => fmtBf16.add a b) x y 0
  | .bmul2 w => fl w fun x y => pairs (fun a b _ => fmtBf16.mul a b) x y 0
  | .bfma2 w => fl3 w (pairs fmtBf16.fma)
  | .hfma2 w => fl3 w (pairs fmtF16.fma)
  | .rcp w => fl1 w (sfu .rcp)
  | .rsq w => fl1 w (sfu .rsq)
  | .exp2 w => fl1 w (sfu .exp2)
  | .log2 w => fl1 w (sfu .log2)
  | .sin w => fl1 w (sfu .sin)
  | .cos w => fl1 w (sfu .cos)
  | .tanh w => fl1 w (sfu .tanh)
  | .cvt w =>
    regRow w.g [(w.a.toNat, false)] w.d false none (fun x _ _ => (cvt w.imm x).1) (some fun x _ _ => (cvt w.imm x).2)
  | _ => none

/-- Moves and selection (05 R96-R98). -/
def moveRow : Instr → Option LaneRow
  | .mov w => lr1 w fun x => x
  | .movs w =>
    some { guard := w.g.toNat, srcs := [], keeps := none, held := none,
           result := .reg w.d.toNat (fun gg _ _ _ _ _ => gg.sreg w.a.toNat) none }
  | .movp w =>
    some { guard := w.g.toNat, srcs := [], keeps := none, held := none,
           result := .reg w.d.toNat
             (fun gg _ i _ _ _ => BitVec.ofNat 32 (((List.range 8).map fun n => if (gg.thread i).pred n then 2 ^ n else 0).sum)) none }
  | .pmov w =>
    some { guard := w.g.toNat, srcs := [(w.a.toNat, w.ea)], keeps := none, held := if w.h then some w.a.toNat else none,
           result := .preds }
  | .sel w =>
    some { guard := 0, srcs := [(w.a.toNat, w.ea), (w.b.toNat, w.eb)], keeps := none,
           held := if w.h then some w.a.toNat else none,
           result := .reg w.d.toNat (fun gg _ i x y _ => if (gg.thread i).pred w.g.toNat then x else y) none }
  | .ballot w =>
    some { guard := w.g.toNat, srcs := [], keeps := none, held := none,
           result := .reg w.d.toNat
             (fun gg act _ _ _ _ => BitVec.ofNat 32
               (((List.range 32).map fun i => if act.getLsbD i && (gg.thread i).pred w.a.toNat then 2 ^ i else 0).sum)) none }
  | _ => none

/-- Every word of the five tables. -/
def laneRow (i : Instr) : Option LaneRow :=
  (integerRow i).or ((immediateRow i).or ((compareRow i).or ((floatRow i).or (moveRow i))))

/-- The field that names a queue port among the sources, if any. -/
def LaneRow.port (r : LaneRow) : Option Nat := (r.srcs.map Prod.fst).find? fun k => decide (28 ≤ k)

/-- The register the word writes, if any. -/
def LaneRow.dst (r : LaneRow) : Option Nat :=
  match r.result with
  | .reg d _ _ => some d
  | _ => none

/-- Whether the word writes predicates. -/
def LaneRow.writesPreds (r : LaneRow) : Bool :=
  match r.result with
  | .reg _ _ _ => false
  | _ => true

/-- What the queue ports of a word take: the queue popped with its head and its rest, and the queue pushed. -/
structure Taken where
  pop : Option (Nat × QEntry × List QEntry)
  push : Option Nat

/-- The queue ports of a word are bound, the popped queue holds an entry, and the pushed queue has room once the pop is done
(05 R102, R103, R105). -/
structure LaneRow.Ports (r : LaneRow) (t : Task) (g : Nat) (e : Entry) (k : Taken) : Prop where
  pop : match r.port with
    | none => k.pop = none
    | some p => ∃ q x rest, (t.gang g).queueOf e p = some q ∧ t.queue q = x :: rest ∧ k.pop = some (q, x, rest)
  push : match r.dst with
    | none => k.push = none
    | some d => if d < 28 then k.push = none else
        ∃ q, (t.gang g).queueOf e d = some q ∧ k.push = some q ∧
          ((t.queue q).length < 16 ∨ ((t.queue q).length = 16 ∧ ∃ x rest, k.pop = some (q, x, rest)))

/-- Every operand can be taken: its ports are ready, its source registers full and without poison where they are read, the
popped words without poison in the active lanes, and the destination register full (05 R86, R87). -/
structure LaneRow.Takes (r : LaneRow) (t : Task) (g : Nat) (e : Entry) (act : LaneMask) (k : Taken) : Prop where
  ports : r.Ports t g e k
  regs : ∀ p ∈ r.srcs, p.1 < 28 → Good t.variant.depth (t.gang g) act p.1
  keep : ∀ d, r.keeps = some d → d < 28 ∧ Good t.variant.depth (t.gang g) act d
  dst : ∀ d, r.dst = some d → d < 28 → Full t.variant.depth (t.gang g) act d
  words : ∀ q x rest, k.pop = some (q, x, rest) → x.poison &&& act = 0

/-- The value a source field supplies to a lane. -/
def Taken.value (k : Taken) (D : Nat) (gg : Gang) (r i : Nat) : Word :=
  if r < 28 then (gg.thread i).reg D r
  else
    match k.pop with
    | none => 0
    | some p => AList.get 0 p.2.1.words i

/-- The queue of the source port without its head. -/
def Taken.popped (k : Taken) (s : State) (h : Nat) (t : Task) : State :=
  match k.pop with
  | none => s
  | some (q, _, rest) => s.setTask h (some (t.setQueue q rest))

/-- The entry that a port pushes: the values in the active lanes, zero in the others (05 R102). -/
def pushed (act : LaneMask) (v : Nat → Word) : QEntry :=
  { words := (lanesOf act).foldl (fun a i => AList.set 0 a i (v i)) [], poison := 0 }

/-- The value of source number `n`, 0 where the word has none. -/
def LaneRow.source (r : LaneRow) (k : Taken) (D : Nat) (gg : Gang) (n i : Nat) : Word :=
  match r.srcs[n]? with
  | none => 0
  | some p => k.value D gg p.1 i

/-- The value of d, where the word reads it. -/
def LaneRow.third (r : LaneRow) (D : Nat) (gg : Gang) (i : Nat) : Word :=
  match r.keeps with
  | none => 0
  | some d => (gg.thread i).reg D d

/-- The combination of a truth value into a predicate (06 R114). -/
def combined (comb : BitVec 2) (old new : Bool) : Bool :=
  match comb.toNat with
  | 0 => new
  | 1 => old && new
  | 2 => old || new
  | _ => old != new

/-- Writes d in the lanes of `m`, or pushes. -/
def putResult (s : State) (h g D : Nat) (m : LaneMask) (d : Nat) (push : Option Nat) (v : Nat → Word) : State :=
  match push with
  | none => s.modGang h g fun a => a.writeReg D m d v
  | some q => s.modTask h fun u => u.setQueue q (u.queue q ++ [pushed m v])

/-- What the word does to a state from which its operands have been taken: source a held, the value written in lanes `m`, or
pushed. `t` is the task at issue, `act` the active lanes. -/
def LaneRow.compute (r : LaneRow) (s : State) (h g : Nat) (t : Task) (act m : LaneMask) (k : Taken) : State :=
  let D := t.variant.depth
  let gg := t.gang g
  let x := r.source k D gg 0
  let y := r.source k D gg 1
  let z := r.third D gg
  let held := s.modGang h g fun a => a.hold r.held act
  match r.result with
  | .reg d f fl =>
    let v (i : Nat) : Word := f gg m i (x i) (y i) (z i)
    let written := putResult held h g D m d k.push v
    match fl with
    | none => written
    | some f => written.modGang h g fun a => a.orFlags m fun i => f (x i) (y i) (z i)
  | .pred pd comb f =>
    held.modGang h g fun a => a.modLanes (lanesOf m) fun i u =>
      { u.setPred pd (combined comb (u.pred pd) (f (gg.thread i) (x i) (y i)).1) with
        fpflags := u.fpflags ||| (f (gg.thread i) (x i) (y i)).2 }
  | .preds =>
    held.modGang h g fun a => a.modLanes (lanesOf m) fun i u =>
      { u with preds := (u.preds &&& 1) ||| ((x i).truncate 8 &&& 0xFE) }

/-- In every state in which the gang issues the word and its operands can be taken, exec answers the next state that the row
gives: the source port popped, the value written in the active lanes (or pushed), the entry ready at the next word. -/
def LaneRow.Completes (i : Instr) (r : LaneRow) : Prop :=
  ∀ (s : State) (h g : Nat) (e : Entry) (t : Task) (k : Taken), Issues s h g e t →
    r.Takes t g e ((t.gang g).active e.mask r.guard) k →
    exec i s = .next (goesOn
      (r.compute (k.popped (issued s) h t) h g t ((t.gang g).active e.mask r.guard) ((t.gang g).active e.mask r.guard) k) h g e)

end Sys2Proof.Say

open Sys2Proof Sys2Proof.Machine Sys2Proof.Say


/-- Integer register words compute what Table 6-3 gives in each active lane: in every state in which the operands can be taken, exec answers
the next state of the row (the port popped, d written or pushed, the entry on). -/
def Sys2Proof.Say.IntegerWords : Prop := ∀ i r, integerRow i = some r → r.Completes i

/-- Words with an immediate (06 R118, R119) do the same. -/
def Sys2Proof.Say.ImmediateWords : Prop := ∀ i r, immediateRow i = some r → r.Completes i

/-- Compares and predicate operations (06 Table 6-4, R116) combine their truth value into pd in each active lane, whenever their operands can
be taken; the entry goes on. -/
def Obligations.CompareWords : Prop := ∀ i r, compareRow i = some r → r.Completes i

/-- Floating-point words (06 R120-R124) write, or push, what the arithmetic of their row gives, and or its flags into the flags of each active
lane, whenever their operands can be taken; the entry goes on. What the arithmetic gives is said by FloatArithmetic: rounding to nearest, and
its choice just past the largest finite value (log 75); the values of the special functions and their underflow are the model's choices within
the bound of Table 6-6 (logs 5, 73). -/
def Obligations.FloatWords : Prop := ∀ i r, floatRow i = some r → r.Completes i

/-! ## Rounding -/

namespace Sys2Proof.Say

/-- A layout of 04 Table 4-2 with infinities: the widths of its exponent and of its fraction. -/
structure Layout where
  exp : Nat
  frac : Nat

def binary32 : Layout := ⟨8, 23⟩
def binary16 : Layout := ⟨5, 10⟩
def bfloat16 : Layout := ⟨8, 7⟩
def e5m2 : Layout := ⟨5, 2⟩

def Layout.bias (L : Layout) : Nat := 2 ^ (L.exp - 1) - 1
def Layout.negative (L : Layout) (x : Nat) : Bool := x.testBit (L.exp + L.frac)
def Layout.field (L : Layout) (x : Nat) : Nat := x / 2 ^ L.frac % 2 ^ L.exp
def Layout.fraction (L : Layout) (x : Nat) : Nat := x % 2 ^ L.frac

/-- A pattern of a layout that is neither infinite nor NaN. -/
def Layout.Finite (L : Layout) (x : Nat) : Prop := x < 2 ^ (L.exp + L.frac + 1) ∧ L.field x ≠ 2 ^ L.exp - 1

/-- 2 to an integer power. -/
def twoTo (k : Int) : Rat := if 0 ≤ k then ((2 ^ k.toNat : Nat) : Rat) else 1 / ((2 ^ (-k).toNat : Nat) : Rat)

/-- The value of a finite pattern (04 R63). -/
def Layout.value (L : Layout) (x : Nat) : Rat :=
  (if L.negative x = true then -1 else 1) *
    (if L.field x = 0 then (L.fraction x : Rat) * twoTo (1 - L.bias - L.frac)
     else ((2 ^ L.frac + L.fraction x : Nat) : Rat) * twoTo (L.field x - L.bias - L.frac))

def magnitude (v : Rat) : Rat := if v < 0 then -v else v

/-- The pattern is the finite one that a rounding mode gives `v`: 0 the nearest, the even one of two; 1 towards zero; 2 down; 3 up. -/
def Layout.RoundsTo (L : Layout) (mode : Nat) (v : Rat) (z : Nat) : Prop :=
  L.Finite z ∧ (mode = 0 → ∀ y, L.Finite y → magnitude (L.value z - v) ≤ magnitude (L.value y - v) ∧
    (magnitude (L.value z - v) = magnitude (L.value y - v) → L.value y = L.value z ∨ z % 2 = 0)) ∧
  (mode = 1 → magnitude (L.value z) ≤ magnitude v ∧ 0 ≤ L.value z * v ∧
    ∀ y, L.Finite y → magnitude (L.value y) ≤ magnitude v → magnitude (L.value y) ≤ magnitude (L.value z)) ∧
  (mode = 2 → L.value z ≤ v ∧ ∀ y, L.Finite y → L.value y ≤ v → L.value y ≤ L.value z) ∧
  (mode = 3 → v ≤ L.value z ∧ ∀ y, L.Finite y → v ≤ L.value y → L.value z ≤ L.value y)

/-- The result of a lane operation whose exact value is `v` (04 R64, 06 R121), `minus` being the sign of an exact zero: below half a unit past
the largest finite value the nearest pattern, with inexact, and underflow where `v` is tiny after rounding to the layout's precision; beyond,
infinity with overflow and inexact. -/
def Layout.Result (L : Layout) (v : Rat) (minus : Bool) (z : Nat) (f : FFlags) : Prop :=
  (magnitude v < twoTo (L.bias + 1) - twoTo (L.bias - L.frac - 1) →
    L.RoundsTo 0 v z ∧ L.negative z = (if v = 0 then minus else decide (v < 0)) ∧
    f = (if L.value z = v then 0
      else if magnitude v < twoTo (1 - L.bias) - twoTo (-1 - L.bias - L.frac) then flInexact ||| flUnderflow else flInexact)) ∧
  (twoTo (L.bias + 1) - twoTo (L.bias - L.frac - 1) ≤ magnitude v →
    z = (if v < 0 then 2 ^ (L.exp + L.frac) else 0) + (2 ^ L.exp - 1) * 2 ^ L.frac ∧ f = flOverflow ||| flInexact)

/-- The sources of a conversion of 04 Table 4-4 whose exact value is a number, and the layout it converts to; E4M3 aside. -/
def conversion (pair : Nat) (x : Word) : Option (Rat × Layout) :=
  let num (L : Layout) (y : Nat) (target : Layout) : Option (Rat × Layout) := if L.field y = 2 ^ L.exp - 1 then none else some (L.value y, target)
  match pair with
  | 2 => some ((x.toInt : Rat), binary32)
  | 3 => some ((x.toNat : Rat), binary32)
  | 4 => num binary32 x.toNat binary16
  | 5 => num binary16 (x.toNat % 2 ^ 16) binary32
  | 6 => num binary32 x.toNat bfloat16
  | 7 => num bfloat16 (x.toNat % 2 ^ 16) binary32
  | 10 => num binary32 x.toNat e5m2
  | 11 => num e5m2 (x.toNat % 2 ^ 8) binary32
  | 14 => some (((BitVec.ofNat 8 x.toNat).toInt : Rat), binary32)
  | _ => none

/-- The integer that a mode rounds a value to. -/
def IntRounds (mode : Nat) (v : Rat) (y : Int) : Prop :=
  (mode = 0 → 2 * magnitude (y - v) ≤ 1 ∧ (2 * magnitude (y - v) = 1 → y % 2 = 0)) ∧
  (mode = 1 → magnitude y ≤ magnitude v ∧ magnitude v < magnitude y + 1 ∧ 0 ≤ y * v) ∧
  (mode = 2 → (y : Rat) ≤ v ∧ v < y + 1) ∧ (mode = 3 → v ≤ y ∧ (y : Rat) < v + 1)

/-- The integer conversions: width, least and greatest value, and the result of an invalid one without sat. -/
def intConversion (pair : Nat) : Option (Nat × Int × Int × Nat) :=
  match pair with
  | 0 => some (32, -2147483648, 2147483647, 0x80000000)
  | 1 => some (32, 0, 4294967295, 0xFFFFFFFF)
  | 12 => some (8, -128, 127, 0x80)
  | 13 => some (8, 0, 255, 0xFF)
  | _ => none

end Sys2Proof.Say

/-- The lane sums, differences, products and fused products of finite numbers are the exact ones rounded once, to nearest, ties to even, in
binary32, bfloat16 and binary16, with their flags (04 R64, 06 R120-R122). That an exact result less than half a unit past the largest finite
value rounds to it is the model's reading (log 75). -/
def Sys2Proof.Say.FloatRounding : Prop :=
  (∀ (x y z : Word) (vx vy vz : Rat), binary32.Finite x.toNat → binary32.Finite y.toNat → binary32.Finite z.toNat →
    vx = binary32.value x.toNat → vy = binary32.value y.toNat → vz = binary32.value z.toNat →
    binary32.Result (vx + vy) (binary32.negative x.toNat && binary32.negative y.toNat) (f32Add x y).1.toNat (f32Add x y).2 ∧
    binary32.Result (vx - vy) (binary32.negative x.toNat && !binary32.negative y.toNat) (f32Sub x y).1.toNat (f32Sub x y).2 ∧
    binary32.Result (vx * vy) (binary32.negative x.toNat != binary32.negative y.toNat) (f32Mul x y).1.toNat (f32Mul x y).2 ∧
    binary32.Result (vx * vy + vz) ((binary32.negative x.toNat != binary32.negative y.toNat) && binary32.negative z.toNat)
      (f32Fma x y z).1.toNat (f32Fma x y z).2) ∧
  ∀ (L : Layout) (f : FFmt), (L = bfloat16 ∧ f = fmtBf16) ∨ (L = binary16 ∧ f = fmtF16) → ∀ (x y z : Nat), L.Finite x → L.Finite y → L.Finite z →
    L.Result (L.value x + L.value y) (L.negative x && L.negative y) (f.add x y).1 (f.add x y).2 ∧
    L.Result (L.value x * L.value y) (L.negative x != L.negative y) (f.mul x y).1 (f.mul x y).2 ∧
    L.Result (L.value x * L.value y + L.value z) ((L.negative x != L.negative y) && L.negative z) (f.fma x y z).1 (f.fma x y z).2

/-- CVT rounds the exact value of its source in the mode of its code (04 R76, R77): to a float no larger than the largest finite one, setting
inexact where it changed; to an integer, invalid where that is out of range, when it is clamped under sat. Flushing of subnormals aside. -/
def Sys2Proof.Say.Conversions : Prop :=
  (∀ (code : BitVec 8) (x : Word) (v : Rat) (L : Layout), code.getLsbD 0 = false → conversion (code.toNat / 16) x = some (v, L) →
    magnitude v ≤ twoTo (L.bias + 1) - twoTo (L.bias - L.frac) → L.RoundsTo (code.toNat / 4 % 4) v (cvt code x).1.toNat ∧
    ((cvt code x).2.getLsbD 4 = true ↔ L.value (cvt code x).1.toNat ≠ v) ∧ (cvt code x).2 &&& 7 = 0) ∧
  ∀ (code : BitVec 8) (x : Word) (v : Rat) (w : Nat) (lo hi y : Int) (bad : Nat), code.getLsbD 0 = false → binary32.Finite x.toNat →
    v = binary32.value x.toNat → intConversion (code.toNat / 16) = some (w, lo, hi, bad) → IntRounds (code.toNat / 4 % 4) v y →
    (lo ≤ y → y ≤ hi → cvt code x = (BitVec.ofNat 32 (y % 2 ^ w).toNat, if (y : Rat) = v then 0 else flInexact)) ∧
    (y < lo → cvt code x = (if code.getLsbD 1 = true then BitVec.ofNat 32 (lo % 2 ^ w).toNat else BitVec.ofNat 32 bad, flInvalid)) ∧
    (hi < y → cvt code x = (if code.getLsbD 1 = true then BitVec.ofNat 32 (hi % 2 ^ w).toNat else BitVec.ofNat 32 bad, flInvalid))

namespace Sys2Proof.Say

/-- The ulps of 06 Table 6-6. -/
def sfuUlps (o : SfuOp) : Nat := if o = .rcp then 1 else 2

/-- The special results of 06 Table 6-7 and their flags: operand, operation, result. -/
def sfuSpecial : List (Word × SfuOp × Word × FFlags) :=
  [(0, .rcp, 0x7F800000, 2), (0, .rsq, 0x7F800000, 2), (0, .exp2, 0x3F800000, 0), (0, .log2, 0xFF800000, 2), (0, .sin, 0, 0),
   (0, .cos, 0x3F800000, 0), (0, .tanh, 0, 0),
   (0x80000000, .rcp, 0xFF800000, 2), (0x80000000, .rsq, 0xFF800000, 2), (0x80000000, .exp2, 0x3F800000, 0),
   (0x80000000, .log2, 0xFF800000, 2), (0x80000000, .sin, 0x80000000, 0), (0x80000000, .cos, 0x3F800000, 0),
   (0x80000000, .tanh, 0x80000000, 0),
   (0x7F800000, .rcp, 0, 0), (0x7F800000, .rsq, 0, 0), (0x7F800000, .exp2, 0x7F800000, 0), (0x7F800000, .log2, 0x7F800000, 0),
   (0x7F800000, .sin, 0x7FC00000, 1), (0x7F800000, .cos, 0x7FC00000, 1), (0x7F800000, .tanh, 0x3F800000, 0),
   (0xFF800000, .rcp, 0x80000000, 0), (0xFF800000, .rsq, 0x7FC00000, 1), (0xFF800000, .exp2, 0, 0), (0xFF800000, .log2, 0x7FC00000, 1),
   (0xFF800000, .sin, 0x7FC00000, 1), (0xFF800000, .cos, 0x7FC00000, 1), (0xFF800000, .tanh, 0xBF800000, 0)]

end Sys2Proof.Say

/-- The special functions (06 R123, R124): the results of Table 6-7; the exact ones; every other result is infinite, with overflow and inexact,
or finite with inexact and within the bound of Table 6-6, less one part in 2^100, of the model's reference, which for RCP and RSQ lies below
the exact value by less than a unit of its last place, under 2^-200 of it; a TANH is at most 1. The values within the bound, and those of the
references of the other functions, are the model's choices (logs 5, 73). -/
def Sys2Proof.Say.SpecialFunctionBounds : Prop :=
  (∀ p ∈ sfuSpecial, sfu p.2.1 p.1 = p.2.2) ∧
  (∀ (o : SfuOp) (x : Word), 0x7F800000 < x.toNat % 2 ^ 31 → sfu o x = (0x7FC00000, if x.getLsbD 22 = true then 0 else flInvalid)) ∧
  (∀ (o : SfuOp) (x : Word), o = .rsq ∨ o = .log2 → binary32.Finite x.toNat → binary32.value x.toNat < 0 → sfu o x = (0x7FC00000, flInvalid)) ∧
  (∀ (o : SfuOp) (x : Word) (k : Int), binary32.Finite x.toNat →
    (o = .rcp → -127 ≤ k → k ≤ 149 → binary32.value x.toNat = twoTo k → binary32.value (sfu o x).1.toNat = twoTo (-k) ∧ (sfu o x).2 &&& 23 = 0) ∧
    (o = .rcp → -127 ≤ k → k ≤ 149 → binary32.value x.toNat = -twoTo k → binary32.value (sfu o x).1.toNat = -twoTo (-k) ∧ (sfu o x).2 &&& 23 = 0) ∧
    (o = .rsq → binary32.value x.toNat = twoTo (2 * k) → binary32.value (sfu o x).1.toNat = twoTo (-k) ∧ (sfu o x).2 = 0) ∧
    (o = .exp2 → -149 ≤ k → k ≤ 127 → binary32.value x.toNat = k → binary32.value (sfu o x).1.toNat = twoTo k ∧ (sfu o x).2 &&& 23 = 0) ∧
    (o = .log2 → binary32.value x.toNat = twoTo k → binary32.value (sfu o x).1.toNat = k ∧ (sfu o x).2 = 0)) ∧
  (∀ (o : SfuOp) (x : Word) (n : Bool) (m : Nat) (e : Int) (r : Int × Int) (z : Word), fmtF32.value x.toNat = .fin n m e → m ≠ 0 →
    ¬ (n = true ∧ (o = .rsq ∨ o = .log2)) → o.exact n m e = none → r = o.ref n m e → z = (sfu o x).1 → r.1 ≠ 0 →
    ((z.toNat % 2 ^ 31 = 0x7F800000 ∧ (sfu o x).2 = flOverflow ||| flInexact) ∨
      (binary32.Finite z.toNat ∧ (sfu o x).2.getLsbD 4 = true ∧
        (o = .sin ∨ o = .cos → magnitude (binary32.value z.toNat - (r.1 : Rat) * twoTo r.2) ≤ twoTo (-22)) ∧
        (o ≠ .sin → o ≠ .cos → ∀ k : Int, twoTo k ≤ magnitude ((r.1 : Rat) * twoTo r.2) → magnitude ((r.1 : Rat) * twoTo r.2) < twoTo (k + 1) →
          magnitude (binary32.value z.toNat - (r.1 : Rat) * twoTo r.2) ≤
            (sfuUlps o : Rat) * (1 - twoTo (-100)) * twoTo ((if k < -126 then -126 else k) - 23)) ∧
        (o = .tanh → magnitude (binary32.value z.toNat) ≤ 1)))) ∧
  ∀ (n : Bool) (m : Nat) (e : Int), 0 < m → m < 2 ^ 24 →
    (magnitude (((SfuOp.ref .rcp n m e).1 : Rat) * twoTo (SfuOp.ref .rcp n m e).2) * ((m : Rat) * twoTo e) ≤ 1 ∧
      1 < (magnitude (((SfuOp.ref .rcp n m e).1 : Rat) * twoTo (SfuOp.ref .rcp n m e).2) + twoTo (SfuOp.ref .rcp n m e).2) * ((m : Rat) * twoTo e)) ∧
    (((SfuOp.ref .rsq false m e).1 : Rat) * twoTo (SfuOp.ref .rsq false m e).2) ^ 2 * ((m : Rat) * twoTo e) ≤ 1 ∧
    1 < (((SfuOp.ref .rsq false m e).1 : Rat) * twoTo (SfuOp.ref .rsq false m e).2 + twoTo (SfuOp.ref .rsq false m e).2) ^ 2 * ((m : Rat) * twoTo e)

/-- MOV, MOVS, MOVP, PMOV, SEL and BALLOT (05 R96-R98) write, or push, their value in each active lane, whenever their operands can be taken; the
entry goes on. -/
def Obligations.MoveWords : Prop := ∀ i r, moveRow i = some r → r.Completes i

/-! ## Lane words that wait or fault -/

/-- A source that may wait, a third operand or the destination is not full in lane `n` (05 R87, R88). -/
def Sys2Proof.Say.LaneRow.waitsFor (r : LaneRow) (k : Nat) : Prop :=
  ((k, false) ∈ r.srcs ∧ k < 28) ∨ r.keeps = some k ∨ (r.dst = some k ∧ k < 28)

/-- Every port of a word is bound. -/
def Sys2Proof.Say.LaneRow.Bound (r : LaneRow) (t : Task) (g : Nat) (e : Entry) : Prop :=
  (∀ p, r.port = some p → (t.gang g).queueOf e p ≠ none) ∧ ∀ d, r.dst = some d → 28 ≤ d → (t.gang g).queueOf e d ≠ none

/-- Registers the word waits for are full, and no trapping source is interlocked. -/
def Sys2Proof.Say.LaneRow.NoWait (r : LaneRow) (t : Task) (g : Nat) (act : LaneMask) : Prop :=
  (∀ k, r.waitsFor k → Full t.variant.depth (t.gang g) act k) ∧
  ∀ k, (k, true) ∈ r.srcs → k < 28 → ∀ i, i < 32 → act.getLsbD i = true →
    ((t.gang g).thread i).regState t.variant.depth k ≠ .interlocked

/-- An operand that is not full makes the whole entry wait, with no other effect: blocked on the empty registers, or, where remote
local loads alone have still to fill them, a stall (07 R136, 08 R166). That a destination is waited for before a trapping source is tested is
the model's choice (log 79). -/
def Sys2Proof.Say.EmptyOperandWaits : Prop :=
  ∀ i r, laneRow i = some r → ∀ (s : State) (h g : Nat) (e : Entry) (t : Task), Issues s h g e t → r.Bound t g e →
    (∃ k n, r.waitsFor k ∧ n < 32 ∧ ((t.gang g).active e.mask r.guard).getLsbD n = true ∧
      ((t.gang g).thread n).regState t.variant.depth k ≠ .full) →
    ∃ need st, need ≠ [] ∧ exec i s = .next ((issued s).putEntry h g { e with st := st }) ∧
      (∀ p ∈ need, ((t.gang g).active e.mask r.guard).getLsbD p.1 = true ∧
        AList.get .full ((t.gang g).thread p.1).rstate p.2 ≠ .full) ∧
      (((∀ p ∈ need, AList.get .full ((t.gang g).thread p.1).rstate p.2 = .empty) ∧ st = .emptyReg need) ∨
        ((∀ p ∈ need, AList.get .full ((t.gang g).thread p.1).rstate p.2 = .interlocked) ∧ st = .stall (.interlock need)))

/-- A source whose empty action is the trap, empty in the lanes of `m`: EMPTYREAD, with the active lanes parked and the
others gone on. -/
def Sys2Proof.Say.EmptySourceTraps : Prop :=
  ∀ i r, laneRow i = some r → ∀ (s : State) (h g : Nat) (e : Entry) (t : Task) (k : Taken) (m : LaneMask), Issues s h g e t →
    r.Ports t g e k → r.NoWait t g ((t.gang g).active e.mask r.guard) →
    (∀ n, n < 32 → (m.getLsbD n = true ↔ ((t.gang g).active e.mask r.guard).getLsbD n = true ∧
      ∃ a, (a, true) ∈ r.srcs ∧ a < 28 ∧ ((t.gang g).thread n).regState t.variant.depth a ≠ .full)) → m ≠ 0 →
    exec i s = .next (goesOn
      ((k.popped (issued s) h t).raise h g (.lane 5 e.pc m 0 0) { e with mask := (t.gang g).active e.mask r.guard })
      h g { e with mask := e.mask &&& ~~~((t.gang g).active e.mask r.guard) })

/-- Lanes that read a poisoned register (`mr`), or a poisoned queue word, raise POISON; the others run. -/
def Sys2Proof.Say.PoisonedOperandFaults : Prop :=
  ∀ i r, laneRow i = some r → ∀ (s : State) (h g : Nat) (e : Entry) (t : Task) (k : Taken) (mr bad : LaneMask), Issues s h g e t →
    r.Ports t g e k → r.NoWait t g ((t.gang g).active e.mask r.guard) →
    (∀ a, (a, true) ∈ r.srcs → a < 28 → Full t.variant.depth (t.gang g) ((t.gang g).active e.mask r.guard) a) →
    (∀ d, r.keeps = some d → d < 28) →
    (∀ n, n < 32 → (mr.getLsbD n = true ↔ ((t.gang g).active e.mask r.guard).getLsbD n = true ∧
      ∃ a, ((∃ b, (a, b) ∈ r.srcs) ∨ r.keeps = some a) ∧ a < 28 ∧ ((t.gang g).thread n).regPoison t.variant.depth a = true)) →
    bad = mr ||| (match k.pop with
      | none => 0
      | some (_, x, _) => x.poison &&& (t.gang g).active e.mask r.guard) →
    exec i s = .next (goesOn
      (r.compute ((k.popped (issued s) h t).raise h g
          (.lane 10 e.pc bad (if mr.getLsbD (lowestLane bad) then 3 else 4) 0) { e with mask := bad })
        h g t ((t.gang g).active e.mask r.guard) ((t.gang g).active e.mask r.guard &&& ~~~bad) k)
      h g { e with mask := e.mask &&& ~~~bad })

/-- A port whose queue is empty, or has no room, blocks the entry, which keeps the queues it is bound to (05 R102, R105). -/
def Sys2Proof.Say.QueueBlocks : Prop :=
  ∀ i r, laneRow i = some r → ∀ (s : State) (h g : Nat) (e : Entry) (t : Task) (pops pushes : List Nat), Issues s h g e t →
    r.NoWait t g ((t.gang g).active e.mask r.guard) →
    (match r.port with
      | none => pops = []
      | some p => ∃ q, (t.gang g).queueOf e p = some q ∧ pops = [q]) →
    (match r.dst with
      | none => pushes = []
      | some d => if d < 28 then pushes = [] else ∃ q, (t.gang g).queueOf e d = some q ∧ pushes = [q]) →
    ((∃ q ∈ pops, t.queue q = []) ∨ ∃ q ∈ pushes, 16 ≤ (t.queue q).length ∧ ¬ (q ∈ pops ∧ (t.queue q).length = 16)) →
    ∃ keep, exec i s = .next ((issued s).putEntry h g { e with st := .queue pops pushes, qkeep := keep }) ∧
      keep.map Prod.snd = pops ++ pushes

/-- A word that names an unbound port raises QUEUE with cause 1 in every lane of its entry, and runs in none (05 R107). That the record
names the source's port where d's is unbound too, and that this fault comes before any wait, are the model's choices (logs 41, 79). -/
def Sys2Proof.Say.UnboundPortFaults : Prop :=
  ∀ i r, laneRow i = some r → ∀ (s : State) (h g : Nat) (e : Entry) (t : Task) (p : Nat), Issues s h g e t →
    (r.port = some p ∨ ((∀ q, r.port = some q → (t.gang g).queueOf e q ≠ none) ∧ r.dst = some p ∧ 28 ≤ p)) →
    (t.gang g).queueOf e p = none →
    exec i s = .next ((issued s).raise h g (.lane 12 e.pc e.mask (1 + 256 * (p - 28)) 0) e)

/-! ## Lane exchange and special registers -/

/-- SHFL and SHFLX as a row, for their ports. -/
def Sys2Proof.Say.exchangeRow (w : LR) : LaneRow :=
  { guard := w.g.toNat, srcs := [(w.a.toNat, w.ea), (w.b.toNat, w.eb)], keeps := none, held := if w.h then some w.a.toNat else none,
    result := .reg w.d.toNat (fun _ _ _ x _ _ => x) none }

/-- SHFL (`x` false) reads source a in the lane that b names, SHFLX in the lane whose number differs by b, all reads before
any write; `m` holds the lanes that are read. -/
def Obligations.LaneExchange : Prop :=
  ∀ (w : LR) (x : Bool) (s : State) (h g : Nat) (e : Entry) (t : Task) (k : Taken) (act m : LaneMask) (lane : Nat → Nat),
    Issues s h g e t → e.held = none → (exchangeRow w).Ports t g e k →
    act = (t.gang g).active e.mask w.g.toNat →
    (∀ i, lane i = (if x then i ^^^ ((k.value t.variant.depth (t.gang g) w.b.toNat i).toNat % 32)
      else (k.value t.variant.depth (t.gang g) w.b.toNat i).toNat % 32)) →
    (∀ j, j < 32 → (m.getLsbD j = true ↔ ∃ i, i < 32 ∧ act.getLsbD i = true ∧ lane i = j)) →
    (w.b.toNat < 28 → Good t.variant.depth (t.gang g) act w.b.toNat) →
    (w.a.toNat < 28 → Good t.variant.depth (t.gang g) m w.a.toNat) →
    (w.d.toNat < 28 → Full t.variant.depth (t.gang g) act w.d.toNat) →
    (∀ q y rest, k.pop = some (q, y, rest) → y.poison = 0) →
    exec (if x then .shflx w else .shfl w) s = .next (goesOn
      (putResult ((k.popped (issued s) h t).modGang h g fun a => a.hold (if w.h then some w.a.toNat else none) m) h g
        t.variant.depth act w.d.toNat k.push fun i => k.value t.variant.depth (t.gang g) w.a.toNat (lane i)) h g e)

/-- MOVSR writes the special register that each lane reads. A read of CYCLO captures the count, which the next CYCHI takes its
high half from; a read of FPFLAGS clears the flags of the active lanes; no other register changes. -/
def Sys2Proof.Say.SpecialRegisterMove : Prop :=
  ∀ (w : LMovsr) (s : State) (h g : Nat) (e : Entry) (t : Task) (act : LaneMask), Issues s h g e t →
    act = (t.gang g).active e.mask w.g.toNat → act ≠ 0 → w.d.toNat < 28 → Full t.variant.depth (t.gang g) act w.d.toNat →
    ∃ s', exec (.movsr w) s = .next (goesOn s' h g e) ∧
      (∀ i, i < 32 → act.getLsbD i = true →
        ((s'.gang h g).thread i).reg t.variant.depth w.d.toNat = s.specialReg h g e.pri w.imm.toNat i) ∧
      (s'.gang h g).cyc = (if w.imm = 0x18 then some (Config.cycle (hCore h) s.tick)
        else if w.imm = 0x19 then none else (t.gang g).cyc) ∧
      (w.imm = 0x18 → ∀ i, s'.specialReg h g e.pri 0x19 i = hiWord (Config.cycle (hCore h) s.tick)) ∧
      (∀ i, i < 32 → ((s'.gang h g).thread i).fpflags =
        (if w.imm = 0x1D ∧ act.getLsbD i = true then 0 else ((t.gang g).thread i).fpflags)) ∧
      ∀ i p, i < 32 → (act.getLsbD i = false ∨ p ≠ ((t.gang g).thread i).phys t.variant.depth w.d.toNat) →
        AList.get 0 ((s'.gang h g).thread i).stack p = AList.get 0 ((t.gang g).thread i).stack p

/-- A MOVSR whose d is a port pushes the values; with no active lane it pushes zeros and has no read effect (that it reads nothing then is the
model's choice, log 58). -/
def Sys2Proof.Say.SpecialRegisterPush : Prop :=
  ∀ (w : LMovsr) (s : State) (h g : Nat) (e : Entry) (t : Task) (act : LaneMask) (q : Nat), Issues s h g e t →
    act = (t.gang g).active e.mask w.g.toNat → 28 ≤ w.d.toNat → (t.gang g).queueOf e w.d.toNat = some q →
    (t.queue q).length < 16 →
    ∃ s' u, exec (.movsr w) s = .next (goesOn s' h g e) ∧ s'.task h = some u ∧
      u.queue q = t.queue q ++ [pushed act fun i => s.specialReg h g e.pri w.imm.toNat i] ∧
      (u.gang g).cyc = (if act = 0 then (t.gang g).cyc else if w.imm = 0x18 then some (Config.cycle (hCore h) s.tick)
        else if w.imm = 0x19 then none else (t.gang g).cyc)

/-- What the special registers read (05 Table 5-3); CYCHI reads the high half of the captured count, or of the core's where none is. -/
def Sys2Proof.Say.SpecialRegisterValues : Prop :=
  ∀ (s : State) (h g i : Nat) (pri : BitVec 3) (t : Task), s.task h = some t →
    s.specialReg h g pri 0x00 i = BitVec.ofNat 32 i ∧ s.specialReg h g pri 0x01 i = BitVec.ofNat 32 g ∧
    s.specialReg h g pri 0x02 i = BitVec.ofNat 32 (t.variant.threads / 32) ∧ s.specialReg h g pri 0x03 i = t.ident.taskid ∧
    (∀ k, k < 4 → s.specialReg h g pri (4 + k) i = t.ident.tile.getD k 0) ∧
    s.specialReg h g pri 0x08 i = t.ident.extx ∧ s.specialReg h g pri 0x09 i = t.ident.exty ∧
    s.specialReg h g pri 0x0A i = BitVec.ofNat 32 t.ident.home ∧ s.specialReg h g pri 0x0B i = BitVec.ofNat 32 (h / 16 % 16) ∧
    s.specialReg h g pri 0x0C i = BitVec.ofNat 32 (h / 256) ∧ s.specialReg h g pri 0x0D i = BitVec.ofNat 32 (hDie h) ∧
    s.specialReg h g pri 0x0E i = BitVec.ofNat 32 (h / 256 % 6 / 3 * 4 + h / 16 % 16 % 8 / 2) ∧
    s.specialReg h g pri 0x0F i = (match t.ident.spanidx with
      | some n => BitVec.ofNat 32 n
      | none => 0xFFFFFFFF) ∧
    (∀ k, k < 4 → s.specialReg h g pri (0x10 + k) i = BitVec.ofNat 32 (t.sh.getD k 0) ∧
      s.specialReg h g pri (0x14 + k) i = BitVec.ofNat 32 (t.variant.bkt.getD k (0, 0)).2) ∧
    s.specialReg h g pri 0x18 i = (Config.cycle (hCore h) s.tick).setWidth 32 ∧
    s.specialReg h g pri 0x19 i = (((t.gang g).cyc.getD (Config.cycle (hCore h) s.tick)) >>> 32).setWidth 32 ∧
    s.specialReg h g pri 0x1A i = BitVec.ofNat 32 t.ctx ∧ s.specialReg h g pri 0x1B i = pri.setWidth 32 ∧
    s.specialReg h g pri 0x1C i = BitVec.ofNat 32 (t.gang g).denials.length ∧
    s.specialReg h g pri 0x1D i = ((t.gang g).thread i).fpflags.setWidth 32

/-! ## Uniform words -/

namespace Sys2Proof.Say

/-- What a uniform word writes: s[d] from the s registers and condition bits, or a condition bit. -/
inductive UniformEffect
  | s (d : Nat) (value : (Nat → Word) → (Nat → Bool) → Word)
  | c (d : Nat) (value : (Nat → Word) → Bool)

/-- A uniform word: its guard (0 where it has none) and its effect. -/
structure UniformRow where
  guard : Nat
  effect : UniformEffect

def ur (w : UR) (f : Word → Word → Word) : Option UniformRow :=
  some ⟨w.c.toNat, .s w.d.toNat fun r _ => f (r w.a.toNat) (r w.b.toNat)⟩
def urm (w : URM) (f : Bool → Word → Word → Word) : Option UniformRow :=
  some ⟨w.c.toNat, .s w.d.toNat fun r _ => f w.m (r w.a.toNat) (r w.b.toNat)⟩
def ucmp (w : UCab) (f : Word → Word → Bool) : Option UniformRow :=
  some ⟨w.c.toNat, .c w.cd.toNat fun r => f (r w.a.toNat) (r w.b.toNat)⟩

/-- Uniform arithmetic and compares (06 Table 6-9, R127, R128; 07 R147). -/
def uniformRow : Instr → Option UniformRow
  | .uadd w => ur w fun x y => x + y
  | .usub w => ur w fun x y => x - y
  | .umul w => ur w fun x y => x * y
  | .uand w => ur w fun x y => x &&& y
  | .uor w => ur w fun x y => x ||| y
  | .uxor w => ur w fun x y => x ^^^ y
  | .ushl w => ur w fun x y => x <<< y.toNat
  | .ushr w => urm w fun m x y => if m then x.sshiftRight y.toNat else x >>> y.toNat
  | .umin w => urm w fun m x y => if (if m then x.ult y else x.slt y) then x else y
  | .umax w => urm w fun m x y => if (if m then x.ult y else x.slt y) then y else x
  | .usel w => some ⟨0, .s w.d.toNat fun r c => if c w.c.toNat then r w.a.toNat else r w.b.toNat⟩
  | .uaddi w => some ⟨w.c.toNat, .s w.d.toNat fun r _ => r w.a.toNat + w.imm.signExtend 32⟩
  | .uandi w => some ⟨w.c.toNat, .s w.d.toNat fun r _ => r w.a.toNat &&& w.imm.signExtend 32⟩
  | .ushli w => some ⟨w.c.toNat, .s w.d.toNat fun r _ => r w.a.toNat <<< w.imm.toNat⟩
  | .umovi w => some ⟨0, .s w.d.toNat fun _ _ => w.imm.signExtend 32⟩
  | .umovhi w => some ⟨0, .s w.d.toNat fun r _ => (w.imm.zeroExtend 32 <<< 16) ||| (r w.d.toNat &&& 0xFFFF)⟩
  | .umov w => some ⟨w.c.toNat, .s w.d.toNat fun r _ => r w.a.toNat⟩
  | .ucmpEq w => ucmp w fun x y => decide (x = y)
  | .ucmpNe w => ucmp w fun x y => decide (x ≠ y)
  | .ucmpLt w => ucmp w fun x y => x.slt y
  | .ucmpLe w => ucmp w fun x y => x.sle y
  | .ucmpGt w => ucmp w fun x y => y.slt x
  | .ucmpGe w => ucmp w fun x y => y.sle x
  | .ucmpLtu w => ucmp w fun x y => x.ult y
  | .ucmpLeu w => ucmp w fun x y => x.ule y
  | .ucmpGtu w => ucmp w fun x y => y.ult x
  | .ucmpGeu w => ucmp w fun x y => y.ule x
  | _ => none

/-- Writes of a gang: s0 and c0 discard them. -/
def UniformEffect.onGang (f : UniformEffect) (gg : Gang) : Gang :=
  match f with
  | .s d v => if d = 0 then gg else { gg with s := AList.set 0 gg.s d (v gg.sreg gg.cbit) }
  | .c d v => if d = 0 then gg else { gg with c := if v gg.sreg then gg.c ||| (1#8 <<< d) else gg.c &&& ~~~(1#8 <<< d) }

/-- Condition bit `n` of a stream. -/
def streamBit (x : Stream) (n : Nat) : Bool := n == 0 || x.c.getLsbD n

/-- Writes of a stream. -/
def UniformEffect.onStream (f : UniformEffect) (x : Stream) : Stream :=
  match f with
  | .s d v => if d = 0 then x else { x with s := AList.set 0 x.s d (v x.sreg (streamBit x)) }
  | .c d v => if d = 0 then x else { x with c := if v x.sreg then x.c ||| (1#8 <<< d) else x.c &&& ~~~(1#8 <<< d) }

/-- A matrix stream issues its word. -/
structure StreamIssues (s : State) (k i : Nat) (e : Entry) (x : Stream) : Prop where
  cur : s.cur = some ⟨.stream k i, e⟩
  stream : s.stream k i = some x
  word : e.pc.toNat % 8192 ≠ 0x1FFC

end Sys2Proof.Say

/-- A gang's uniform word under a true guard writes what its row gives, under a false guard nothing, and goes on. -/
def Sys2Proof.Say.UniformWords : Prop :=
  ∀ i r, uniformRow i = some r → ∀ (s : State) (h g : Nat) (e : Entry) (t : Task), Issues s h g e t →
    ((t.gang g).cbit r.guard = true → exec i s = .next (goesOn ((issued s).modGang h g r.effect.onGang) h g e)) ∧
    ((t.gang g).cbit r.guard = false → e.st.issued = false → exec i s = .next (goesOn (issued s) h g e))

/-- The same of a matrix stream, whose registers and condition bits are its own (16 R305). -/
def Sys2Proof.Say.UniformWordsOfStreams : Prop :=
  ∀ i r, uniformRow i = some r → ∀ (s : State) (k j : Nat) (e : Entry) (x : Stream), StreamIssues s k j e x →
    streamBit x r.guard = true ∨ e.st.issued = false → ∃ s', exec i s = .next s' ∧
      s'.stream k j = some { (if streamBit x r.guard then r.effect.onStream x else x) with pc := e.pc + 4, st := .ready } ∧
      s' = { s with cur := none, clusters := s'.clusters } ∧
      ∀ k', k' ≠ k → s'.cluster k' = s.cluster k'

/-- UMOVSR reads the special registers of its gang, or of the gang that started the stream, with LANEID 0 and FPFLAGS as the OR
over the gang, which it does not clear. The count itself is free (log 4), and the PRI of a stream is the model's choice (log 82). -/
def Sys2Proof.Say.UniformSpecialRegisters : Prop :=
  (∀ (w : UMovsr) (s : State) (h g : Nat) (e : Entry) (t : Task), Issues s h g e t → (t.gang g).cbit w.c.toNat = true →
    ∃ s' u, exec (.umovsr w) s = .next (goesOn s' h g e) ∧ s'.task h = some u ∧
      (u.gang g).sreg w.d.toNat = (if w.d = 0 then 0 else if w.imm = 0x1D
        then ((t.gang g).threads.foldl (fun (f : BitVec 5) (p : Nat × Thread) => f ||| p.2.fpflags) 0).setWidth 32
        else s.specialReg h g e.pri w.imm.toNat 0) ∧
      (u.gang g).cyc = (if w.imm = 0x18 then some (Config.cycle (hCore h) s.tick)
        else if w.imm = 0x19 then none else (t.gang g).cyc) ∧
      (u.gang g).threads = (t.gang g).threads ∧ ∀ n, n ≠ w.d.toNat → (u.gang g).sreg n = (t.gang g).sreg n) ∧
  ∀ (w : UMovsr) (s : State) (k j : Nat) (e : Entry) (x : Stream) (t : Task), StreamIssues s k j e x →
    streamBit x w.c.toNat = true → s.task x.h = some t →
    ∃ s' u, exec (.umovsr w) s = .next s' ∧ s'.task x.h = some u ∧
      s'.stream k j = some { (UniformEffect.s w.d.toNat fun _ _ => if w.imm = 0x1D
          then ((t.gang x.g).threads.foldl (fun (f : BitVec 5) (p : Nat × Thread) => f ||| p.2.fpflags) 0).setWidth 32
          else s.specialReg x.h x.g e.pri w.imm.toNat 0).onStream x with pc := e.pc + 4, st := .ready } ∧
      (u.gang x.g).cyc = (if w.imm = 0x18 then some (Config.cycle (hCore x.h) s.tick)
        else if w.imm = 0x19 then none else (t.gang x.g).cyc) ∧
      (u.gang x.g).threads = (t.gang x.g).threads

/-! ## Control words -/

namespace Sys2Proof.Say

/-- The state in which a lane word that holds no operand runs (the gang is written back as it stands). -/
def begun (s : State) (h g : Nat) : State := (issued s).modGang h g fun a => a

/-- The ready entry of lanes `m` at a code word. -/
def readyAt (pc : Word) (pri : BitVec 3) (m : LaneMask) : Entry :=
  { pc := pc, pri := pri, mask := m, st := .ready, qkeep := [], held := none }

/-- The code word of a branch: a signed count of words from the next one (03 R44). -/
def target (pc : Word) (imm : BitVec 15) : Word := BitVec.ofInt 32 ((pc.toNat : Int) + 4 + 4 * imm.toInt)

/-- The lanes of an entry that a guard leaves out go on. -/
def restGoes (s : State) (h g : Nat) (e : Entry) (act : LaneMask) : State := goesOn s h g { e with mask := e.mask &&& ~~~act }

/-- A lane of a mask. -/
def laneOf (act : LaneMask) (i : Nat) : Prop := i < 32 ∧ act.getLsbD i = true

/-- A call spills the twenty oldest entries of a window that would not fit (05 R82). -/
def spills (D : Nat) (u : Thread) : Bool := decide (D < u.base + 48 - u.floor)

/-- What a call can do in a lane: its spill fits, and the registers it moves and writes hold data. -/
structure CanCall (t : Task) (g i : Nat) : Prop where
  fits : spills t.variant.depth ((t.gang g).thread i) = true → (((t.gang g).thread i).floor / 20 + 1) * 80 ≤ t.variant.spill
  spilt : spills t.variant.depth ((t.gang g).thread i) = true → ∀ j, j < 20 →
    AList.get .full ((t.gang g).thread i).rstate ((((t.gang g).thread i).floor + j) % t.variant.depth) = .full
  link : AList.get .full ((t.gang g).thread i).rstate ((((t.gang g).thread i).base + 27) % t.variant.depth) = .full

/-- Lane `i` after a call that links to `link`: window base and floor, the link in v7 of the new window, every other entry. -/
structure Called (t t' : Task) (g i : Nat) (link : Word) : Prop where
  base : ((t'.gang g).thread i).base = ((t.gang g).thread i).base + 20
  floor : ((t'.gang g).thread i).floor =
    ((t.gang g).thread i).floor + (if spills t.variant.depth ((t.gang g).thread i) then 20 else 0)
  v7 : ((t'.gang g).thread i).reg t.variant.depth 7 = link
  other : ∀ p, p ≠ (((t.gang g).thread i).base + 27) % t.variant.depth →
    AList.get 0 ((t'.gang g).thread i).stack p = AList.get 0 ((t.gang g).thread i).stack p
  saved : spills t.variant.depth ((t.gang g).thread i) = true → ∀ j, j < 20 →
    AList.get 0 t'.spill (spillKey g i (((t.gang g).thread i).floor + j)) =
      AList.get 0 ((t.gang g).thread i).stack ((((t.gang g).thread i).floor + j) % t.variant.depth)

end Sys2Proof.Say

/-- BRA sends the active lanes, at the block priority of the word, to the target; the others go on. -/
def Sys2Proof.Say.Branch : Prop :=
  ∀ (w : LB) (s : State) (h g : Nat) (e : Entry) (t : Task) (act : LaneMask), Issues s h g e t →
    act = (t.gang g).active e.mask w.g.toNat →
    exec (.bra w) s = .next (restGoes ((begun s h g).putEntry h g (readyAt (target e.pc w.imm) w.pri act)) h g e act)

/-- CALL: the active lanes go to the target with a new window and the link in v7, the oldest entries spilt where they must be. -/
def Obligations.CallMovesWindow : Prop :=
  ∀ (w : LB) (s : State) (h g : Nat) (e : Entry) (t : Task) (act : LaneMask), Issues s h g e t →
    act = (t.gang g).active e.mask w.g.toNat → act ≠ 0 → t.variant.spill ≤ 65520 → 0 < t.variant.depth →
    (∀ i, laneOf act i → CanCall t g i ∧ ((t.gang g).thread i).floor % 20 = 0) →
    ∃ s' t', exec (.call w) s = .next (restGoes s' h g e act) ∧ s'.task h = some t' ∧
      (t'.gang g).frontier = (t.gang g).frontier ++ [readyAt (target e.pc w.imm) w.pri act] ∧
      (∀ i, laneOf act i → Called t t' g i (e.pc + 4)) ∧
      (∀ i, ¬ laneOf act i → (t'.gang g).thread i = (t.gang g).thread i) ∧
      s' = { s with cur := none, tasks := s'.tasks }

/-- CALLR and JMPR, all of whose active lanes hold pointers to landed code: lanes with one target form one entry there, and only
CALLR moves the window. -/
def Sys2Proof.Say.RegisterJumps : Prop :=
  ∀ (w : LJ) (call : Bool) (s : State) (h g : Nat) (e : Entry) (t : Task) (act : LaneMask) (lo : Nat → Word), Issues s h g e t →
    act = (t.gang g).active e.mask w.g.toNat → w.a.toNat + 1 < 28 → t.variant.spill ≤ 65520 → 0 < t.variant.depth →
    Good t.variant.depth (t.gang g) act w.a.toNat → Good t.variant.depth (t.gang g) act (w.a.toNat + 1) →
    (∀ i, lo i = ((t.gang g).thread i).reg t.variant.depth w.a.toNat) →
    (∀ i, laneOf act i → ((t.gang g).thread i).reg t.variant.depth (w.a.toNat + 1) = 0 ∧ (lo i).toNat % 4 = 0 ∧
      (lo i).toNat < 2 ^ 25 ∧ s.inObject h ((lo i).toNat / 8192) = true ∧ s.landed h ((lo i).toNat / 8192) = true) →
    (call = true → ∀ i, laneOf act i → CanCall t g i ∧ ((t.gang g).thread i).floor % 20 = 0) →
    ∃ s' t', exec (if call then .callr w else .jmpr w) s = .next (restGoes s' h g e act) ∧ s'.task h = some t' ∧
      (∀ i, laneOf act i → ∃ x ∈ (t'.gang g).frontier, x = readyAt (lo i) e.pri x.mask ∧
        ∀ j, j < 32 → (x.mask.getLsbD j = true ↔ act.getLsbD j = true ∧ lo j = lo i)) ∧
      (call = true → ∀ i, laneOf act i → Called t t' g i (e.pc + 4)) ∧
      (call = false → ∀ i, (t'.gang g).thread i = (t.gang g).thread i) ∧
      s' = { s with cur := none, tasks := s'.tasks, cores := s'.cores }

namespace Sys2Proof.Say

/-- Lane `i` can return (07 R143, 05 R83): it is inside a call; where the caller's window has been spilt, its twenty entries hold no
awaited data and no poison; and v7 is a pointer to landed code. -/
structure CanReturn (s : State) (h : Nat) (t : Task) (g i : Nat) (lo : Word) : Prop where
  inside : 20 ≤ ((t.gang g).thread i).base
  fills : ((t.gang g).thread i).base - 20 < ((t.gang g).thread i).floor → 20 ≤ ((t.gang g).thread i).floor ∧ ∀ j, j < 20 →
    AList.get .full ((t.gang g).thread i).rstate ((((t.gang g).thread i).floor - 20 + j) % t.variant.depth) = .full ∧
    AList.get false t.spillPoison (spillKey g i (((t.gang g).thread i).floor - 20 + j)) = false
  code : lo.toNat % 4 = 0 ∧ lo.toNat < 2 ^ 25 ∧ s.inObject h (lo.toNat / 8192) = true ∧ s.landed h (lo.toNat / 8192) = true

/-- Lane `i` after a return: the base 20 lower; a window that was spilt is read back from the spill area, the floor 20 lower. -/
structure Returned (t t' : Task) (g i : Nat) : Prop where
  resident : ((t.gang g).thread i).floor ≤ ((t.gang g).thread i).base - 20 →
    (t'.gang g).thread i = { (t.gang g).thread i with base := ((t.gang g).thread i).base - 20 }
  refilled : ((t.gang g).thread i).base - 20 < ((t.gang g).thread i).floor →
    ((t'.gang g).thread i).base = ((t.gang g).thread i).base - 20 ∧
    ((t'.gang g).thread i).floor = ((t.gang g).thread i).floor - 20 ∧
    (∀ j, j < 20 →
      AList.get 0 ((t'.gang g).thread i).stack ((((t.gang g).thread i).floor - 20 + j) % t.variant.depth) =
        AList.get 0 t.spill (spillKey g i (((t.gang g).thread i).floor - 20 + j))) ∧
    (∀ p, (∀ j, j < 20 → p ≠ (((t.gang g).thread i).floor - 20 + j) % t.variant.depth) →
      AList.get 0 ((t'.gang g).thread i).stack p = AList.get 0 ((t.gang g).thread i).stack p) ∧
    ((t'.gang g).thread i).preds = ((t.gang g).thread i).preds ∧ ((t'.gang g).thread i).fpflags = ((t.gang g).thread i).fpflags

end Sys2Proof.Say

/-- RET completes wherever its lanes can return: each goes to the code word in its v7 with the window moved back by 20, refilled
where it had been spilt. -/
def Sys2Proof.Say.ReturnMovesWindowBack : Prop :=
  ∀ (w : LG) (s : State) (h g : Nat) (e : Entry) (t : Task) (act : LaneMask) (lo : Nat → Word), Issues s h g e t →
    act = (t.gang g).active e.mask w.g.toNat → 20 ≤ t.variant.depth → Good t.variant.depth (t.gang g) act 7 →
    (∀ i, lo i = ((t.gang g).thread i).reg t.variant.depth 7) → (∀ i, laneOf act i → CanReturn s h t g i (lo i)) →
    ∃ s' t', exec (.ret w) s = .next (restGoes s' h g e act) ∧ s'.task h = some t' ∧
      (∀ i, laneOf act i → ∃ x ∈ (t'.gang g).frontier, x = readyAt (lo i) e.pri x.mask ∧
        ∀ j, j < 32 → (x.mask.getLsbD j = true ↔ act.getLsbD j = true ∧ lo j = lo i)) ∧
      (∀ i, laneOf act i → Returned t t' g i) ∧
      (∀ i, ¬ laneOf act i → (t'.gang g).thread i = (t.gang g).thread i) ∧
      s' = { s with cur := none, tasks := s'.tasks, cores := s'.cores }

/-- RET at window base 0 raises STACKOVF with detail 1 in those lanes and moves no window (05 R83). -/
def Sys2Proof.Say.ReturnUnderflows : Prop :=
  ∀ (w : LG) (s : State) (h g : Nat) (e : Entry) (t : Task), Issues s h g e t →
    (∀ i, laneOf ((t.gang g).active e.mask w.g.toNat) i → ((t.gang g).thread i).base = 0) →
    Good t.variant.depth (t.gang g) ((t.gang g).active e.mask w.g.toNat) 7 →
    exec (.ret w) s = .next (restGoes ((begun s h g).raise h g (.lane 8 e.pc ((t.gang g).active e.mask w.g.toNat) 1 0)
      { e with mask := (t.gang g).active e.mask w.g.toNat }) h g e ((t.gang g).active e.mask w.g.toNat))

/-- RCB: the last lanes to arrive send every lane of the gang that has not exited on as one entry, at the highest of their
priorities; others wait at it. -/
def Sys2Proof.Say.Reconvergence : Prop :=
  ∀ (w : LG) (s : State) (h g : Nat) (e : Entry) (t : Task) (act : LaneMask), Issues s h g e t →
    act = (t.gang g).active e.mask w.g.toNat → act ≠ 0 →
    (act = e.mask ∧ ((t.gang g).frontier.all fun x => x.st == .exited || (x.st == .rcb && x.pc == e.pc)) = true →
      ∃ s' t', exec (.rcb w) s = .next (goesOn s' h g (readyAt e.pc
          (((t.gang g).frontier.filter fun x => x.st != .exited).foldl (fun p x => if p.ult x.pri then x.pri else p) e.pri)
          (((t.gang g).frontier.filter fun x => x.st != .exited).foldl (fun a x => a ||| x.mask) e.mask))) ∧ s'.task h = some t' ∧
        (t'.gang g).frontier = (t.gang g).frontier.filter (fun x => x.st == .exited) ∧
        s' = { s with cur := none, tasks := s'.tasks }) ∧
    ((act ≠ e.mask ∨ ∃ x ∈ (t.gang g).frontier, x.st ≠ .exited ∧ ¬ (x.st = .rcb ∧ x.pc = e.pc)) →
      exec (.rcb w) s = .next (restGoes ((begun s h g).putEntry h g { e with mask := act, st := .rcb, qkeep := [] }) h g e act))

namespace Sys2Proof.Say

/-- EXIT of lanes whose registers hold all their data, in a task that is not one of a span. -/
structure Exits (w : LG) (s : State) (h g : Nat) (e : Entry) (t : Task) (act : LaneMask) : Prop extends IssuesInside s h g e t where
  active : act = (t.gang g).active e.mask w.g.toNat
  nonzero : act ≠ 0
  alone : t.ident.spanidx = none
  data : ∀ i, laneOf act i → ((t.gang g).thread i).rstate = []

/-- Without lanes `act` of gang `g`, no lane has arrived at the barrier, or some member has not. -/
def NotYet (t : Task) (g : Nat) (act : LaneMask) (b : Nat) : Prop :=
  AList.modify 0 (t.barrier b).arrived g (· &&& ~~~act) = [] ∨
  ∃ g' i, i < 32 ∧ (AList.get 0 (t.barrier b).members g').getLsbD i = true ∧ (AList.get 0 (t.barrier b).arrived g').getLsbD i = false ∧
    ¬ (g' = g ∧ act.getLsbD i = true)

/-- The sets of every barrier lose lanes `act` of gang `g`, and nothing else. -/
def Left (t t' : Task) (g : Nat) (act : LaneMask) : Prop :=
  ∀ b, b < t.variant.nbar → ∀ g',
    AList.get 0 (t'.barrier b).members g' = AList.get 0 (t.barrier b).members g' &&& (if g' = g then ~~~act else BitVec.allOnes 32) ∧
    AList.get 0 (t'.barrier b).arrived g' = AList.get 0 (t.barrier b).arrived g' &&& (if g' = g then ~~~act else BitVec.allOnes 32)

/-- The one exited entry of a gang, once lanes `act` have joined it. -/
def exitedEntry (t : Task) (g : Nat) (act : LaneMask) : Entry :=
  { pc := 0, pri := 0, mask := ((t.gang g).frontier.filter fun x => x.st == .exited).foldl (fun a x => a ||| x.mask) 0 ||| act,
    st := .exited, qkeep := [], held := none }

end Sys2Proof.Say

/-- EXIT: the active lanes join the gang's one exited entry, with those that exited before, and leave every barrier of their task; the
others go on. When every lane left waits at one RCB they go on past it as one entry; a barrier whose members left have all arrived, with the
credits it expects, completes its phase. -/
def Sys2Proof.Say.ExitLeavesBarriers : Prop :=
  (∀ (w : LG) (s : State) (h g : Nat) (e : Entry) (t : Task) (act : LaneMask), Exits w s h g e t act →
    (∀ b, b < t.variant.nbar → NotYet t g act b) → (e.mask &&& ~~~act ≠ 0 ∨ ∀ x ∈ (t.gang g).frontier, x.st ≠ .rcb) →
    ∃ s' t', exec (.exit w) s = .next s' ∧ s'.task h = some t' ∧ Left t t' g act ∧ s' = { s with cur := none, tasks := s'.tasks } ∧
      (t'.gang g).frontier = (t.gang g).frontier.filter (fun x => x.st != .exited) ++
        (if e.mask &&& ~~~act = 0 then [] else [readyAt (e.pc + 4) e.pri (e.mask &&& ~~~act)]) ++ [exitedEntry t g act]) ∧
  (∀ (w : LG) (s : State) (h g : Nat) (e : Entry) (t : Task) (act : LaneMask) (p : Word), Exits w s h g e t act →
    (∀ b, b < t.variant.nbar → NotYet t g act b) → act = e.mask → p.toNat % 8192 ≠ 0x1FFC →
    (∀ x ∈ (t.gang g).frontier, x.st ≠ .exited → x.st = .rcb ∧ x.pc = p) → (∃ x ∈ (t.gang g).frontier, x.st = .rcb ∧ x.mask ≠ 0) →
    ∃ s' t', exec (.exit w) s = .next s' ∧ s'.task h = some t' ∧ Left t t' g act ∧ s' = { s with cur := none, tasks := s'.tasks } ∧
      (t'.gang g).frontier = [exitedEntry t g act,
        readyAt (p + 4)
          (((t.gang g).frontier.filter fun x => x.st != .exited).foldl (fun q x => if q.ult x.pri then x.pri else q) 0)
          (((t.gang g).frontier.filter fun x => x.st != .exited).foldl (fun a x => a ||| x.mask) 0)]) ∧
  ∀ (w : LG) (s : State) (h g : Nat) (e : Entry) (t : Task) (act : LaneMask) (b : Nat), Exits w s h g e t act → b < t.variant.nbar →
    (∀ b', b' < t.variant.nbar → b' ≠ b → NotYet t g act b') → (∀ x ∈ (t.gang g).frontier, x.st ≠ .rcb) →
    AList.modify 0 (t.barrier b).arrived g (· &&& ~~~act) = AList.modify 0 (t.barrier b).members g (· &&& ~~~act) →
    AList.modify 0 (t.barrier b).arrived g (· &&& ~~~act) ≠ [] → (t.barrier b).x ≤ (t.barrier b).y → s.loads = [] → s.remotes = [] →
    ∃ s' t', exec (.exit w) s = .next s' ∧ s'.task h = some t' ∧ (t'.barrier b).arrived = [] ∧
      (t'.barrier b).members = AList.modify 0 (t.barrier b).members g (· &&& ~~~act) ∧ (t'.barrier b).y = (t.barrier b).y - (t.barrier b).x ∧
      (∀ g', g' < t.gangCount → ∀ x ∈ (t'.gang g').frontier, x.st ≠ .barrier b) ∧
      ∀ g', g' < t.gangCount → ∀ x ∈ (t.gang g').frontier, x.st = .barrier b → x.mask ≠ 0 → x.pc.toNat % 8192 ≠ 0x1FFC →
        readyAt (x.pc + 4) x.pri x.mask ∈ (t'.gang g').frontier

/-- SETPRI and YIELD: the active lanes take the priority, and split off where it differs. -/
def Sys2Proof.Say.Priorities : Prop :=
  ∀ (w : LSetpri) (v : LG) (s : State) (h g : Nat) (e : Entry) (t : Task), Issues s h g e t →
    (∀ (i : Instr) (n : BitVec 3) (act : LaneMask), (i = .setpri w ∧ n = w.n ∧ act = (t.gang g).active e.mask w.g.toNat) ∨
        (i = .yield v ∧ n = 0 ∧ act = (t.gang g).active e.mask v.g.toNat) →
      (n = e.pri → exec i s = .next (goesOn (begun s h g) h g e)) ∧
      (n ≠ e.pri → exec i s = .next (restGoes (goesOn (begun s h g) h g (readyAt e.pc n act)) h g e act)))

/-- TRAP and BRK raise TRAP, with the code or detail 256, in the active lanes, which stop at the word; the others go on. UTRAP raises it for
the whole entry, or for the stream that issues it. -/
def Sys2Proof.Say.Traps : Prop :=
  (∀ (w : LTrap) (s : State) (h g : Nat) (e : Entry) (t : Task) (act : LaneMask), Issues s h g e t →
    act = (t.gang g).active e.mask w.g.toNat →
    exec (.trap w) s = .next (restGoes ((begun s h g).raise h g (.lane 15 e.pc act w.code.toNat 0) { e with mask := act })
      h g e act)) ∧
  (∀ (w : LG) (s : State) (h g : Nat) (e : Entry) (t : Task) (act : LaneMask), Issues s h g e t →
    act = (t.gang g).active e.mask w.g.toNat →
    exec (.brk w) s = .next (restGoes ((begun s h g).raise h g (.lane 15 e.pc act 256 0) { e with mask := act }) h g e act)) ∧
  (∀ (w : UImm) (s : State) (h g : Nat) (e : Entry) (t : Task), Issues s h g e t → (t.gang g).cbit w.c.toNat = true →
    exec (.utrap w) s = .next ((issued s).raise h g (.uniform 15 e.pc e.mask (w.imm.toNat + 512) 0) e)) ∧
  ∀ (w : UImm) (s : State) (k j : Nat) (e : Entry) (x : Stream) (t : Task), StreamIssues s k j e x → streamBit x w.c.toNat = true →
    s.task x.h = some t → (t.gang x.g).record.busy = false →
    ∃ s' t', exec (.utrap w) s = .next s' ∧ s'.stream k j = some { x with st := .parked .fault } ∧ s'.task x.h = some t' ∧
      (t'.gang x.g).record.kind = 15 ∧ (t'.gang x.g).record.flags = 7 ∧ (t'.gang x.g).record.pc = e.pc ∧ (t'.gang x.g).record.mask = 0 ∧
      (t'.gang x.g).record.detail = BitVec.ofNat 32 (w.imm.toNat + 512) ∧
      (s'.die (hDie x.h)).events = (s.die (hDie x.h)).events ++ [.fault x.h x.g] ∧ (t'.gang x.g).frontier = (t.gang x.g).frontier

/-- UBRA and JMPF under a true guard: the whole entry goes to the target; JMPF to a landed segment. -/
def Sys2Proof.Say.UniformJumps : Prop :=
  (∀ (w : UB) (s : State) (h g : Nat) (e : Entry) (t : Task), Issues s h g e t → (t.gang g).cbit w.c.toNat = true →
    exec (.ubra w) s = .next ((issued s).putEntry h g (readyAt (target e.pc w.imm) e.pri e.mask))) ∧
  (∀ (w : UB) (s : State) (k j : Nat) (e : Entry) (x : Stream), StreamIssues s k j e x → streamBit x w.c.toNat = true →
    ∃ s', exec (.ubra w) s = .next s' ∧ s'.stream k j = some { x with pc := target e.pc w.imm, st := .ready }) ∧
  ∀ (w : UAB) (s : State) (h g : Nat) (e : Entry) (t : Task) (seg off : Nat), Issues s h g e t → (t.gang g).cbit w.c.toNat = true →
    seg = ((t.gang g).sreg w.a.toNat).toNat → off = ((t.gang g).sreg w.b.toNat).toNat → off % 4 = 0 → off < 8192 →
    s.inObject h seg = true → s.landed h seg = true →
    ∃ s' t', exec (.jmpf w) s = .next s' ∧ s'.task h = some t' ∧
      (t'.gang g).frontier = (t.gang g).frontier ++ [readyAt (BitVec.ofNat 32 (seg * 8192 + off)) e.pri e.mask] ∧
      t'.fetchRefs = t.fetchRefs.filter (· != seg) ∧ s' = { s with cur := none, tasks := s'.tasks, cores := s'.cores }

/-- JMPF refuses an offset outside a segment, a segment outside the kernel object, and one that has not landed. -/
def Sys2Proof.Say.FarJumpFaults : Prop :=
  ∀ (w : UAB) (s : State) (h g : Nat) (e : Entry) (t : Task) (seg off : Nat), Issues s h g e t → (t.gang g).cbit w.c.toNat = true →
    seg = ((t.gang g).sreg w.a.toNat).toNat → off = ((t.gang g).sreg w.b.toNat).toNat →
    (off % 4 ≠ 0 ∨ 8192 ≤ off → exec (.jmpf w) s = .next ((issued s).raise h g (.uniform 2 e.pc e.mask 0 off) e)) ∧
    (off % 4 = 0 → off < 8192 → s.inObject h seg = false →
      exec (.jmpf w) s = .next ((issued s).raise h g (.uniform 7 e.pc e.mask 0 seg) e)) ∧
    (off % 4 = 0 → off < 8192 → s.inObject h seg = true → s.landed h seg = false →
      exec (.jmpf w) s = .next ((issued s).raise h g (.uniform 7 e.pc e.mask 1 seg) e))

/-- CSEGQ says whether a segment has landed. -/
def Sys2Proof.Say.SegmentQuery : Prop :=
  ∀ (w : UCa) (s : State) (h g : Nat) (e : Entry) (t : Task), Issues s h g e t → (t.gang g).cbit w.c.toNat = true →
    exec (.csegq w) s = .next (goesOn ((issued s).modGang h g fun gg =>
      (UniformEffect.c w.cd.toNat fun r => s.landed h (r w.a.toNat).toNat).onGang gg) h g e)

/-! ## Local memory -/

namespace Sys2Proof.Say

/-- Byte `j` of the register group that starts at `d`. -/
def groupByte (D : Nat) (u : Thread) (d j : Nat) : Byte := ((u.reg D (d + j / 4)) >>> (8 * (j % 4))).truncate 8

/-- An LL word: the bytes of one access. -/
def localLoads : Instr → Option (LL × Nat)
  | .lld8 w => some (w, 1)
  | .lld16 w => some (w, 2)
  | .lld32 w => some (w, 4)
  | .lld64 w => some (w, 8)
  | .lld128 w => some (w, 16)
  | _ => none

def localStores : Instr → Option (LL × Nat)
  | .lst8 w => some (w, 1)
  | .lst16 w => some (w, 2)
  | .lst32 w => some (w, 4)
  | .lst64 w => some (w, 8)
  | .lst128 w => some (w, 16)
  | _ => none

/-- A local atomic: how many registers of data it has, and its new value from the old one and the data. -/
def localAtomics : Instr → Option (LL × Nat × (Word → Word → Word → Word))
  | .latomAdd w => some (w, 1, fun o x _ => o + x)
  | .latomImin w => some (w, 1, fun o x _ => if x.slt o then x else o)
  | .latomImax w => some (w, 1, fun o x _ => if o.slt x then x else o)
  | .latomAnd w => some (w, 1, fun o x _ => o &&& x)
  | .latomOr w => some (w, 1, fun o x _ => o ||| x)
  | .latomXor w => some (w, 1, fun o x _ => o ^^^ x)
  | .latomXchg w => some (w, 1, fun _ x _ => x)
  | .latomCas w => some (w, 2, fun o x y => if o = x then y else o)
  | _ => none

/-- The scratchpad after the lanes of a list, ascending, have each read a word, computed, and written it. -/
def latomMem (D : Nat) (gg : Gang) (f : Word → Word → Word → Word) (d : Nat) (addr : Nat → Nat) (ls : List Nat) (m : Memory) : Memory :=
  ls.foldl (fun m j => Memory.writeBytes m (addr j) (leBytes 4 (f (BitVec.ofNat 32 (Memory.readNat m (addr j) 4)) ((gg.thread j).reg D d)
    ((gg.thread j).reg D (d + 1))).toNat)) m

/-- TLD: the bytes of an element. -/
def transposes : Instr → Option (LL × Nat)
  | .tld8 w => some (w, 1)
  | .tld16 w => some (w, 2)
  | .tld32 w => some (w, 4)
  | _ => none

/-- The registers of a group of `n` bytes. -/
def groupRegs (d n : Nat) : List Nat := (List.range ((n + 3) / 4)).map fun j => d + j

/-- `n` bytes at a task's own scratchpad offset: aligned, inside its granules, free of poison. -/
structure OwnBytes (t : Task) (addr n align : Nat) : Prop where
  aligned : addr % align = 0
  inside : addr + n ≤ t.granules.length * 4096
  space : addr + n ≤ 2 ^ 28
  clean : ∀ j, j < n → AList.get false t.scratchPoison ((addr + j) / 4) = false

/-- The address of a lane of an LL word. -/
def lladdr (D : Nat) (u : Thread) (a : BitVec 5) (off : Nat) : Nat := ((u.reg D a.toNat).toNat + off) % 2 ^ 32

/-- A gang issues a word that no pending order of its own holds back (10 R216, R217). -/
structure IssuesFreely (s : State) (h g : Nat) (e : Entry) (t : Task) : Prop extends IssuesInside s h g e t where
  free : s.heldBack (.gang h g) = false
  depth : 32 ≤ t.variant.depth
  placed : h < 3072

/-- The frontier after a word whose whole entry goes on. -/
def wentOn (t t' : Task) (g : Nat) (e : Entry) : Prop :=
  (t'.gang g).frontier = (t.gang g).frontier ++ [readyAt (e.pc + 4) e.pri e.mask]

end Sys2Proof.Say

/-- LLD8-LLD128 from the task's own scratchpad: little-endian words into the register group, zero-extended below 32 bits. -/
def Sys2Proof.Say.LocalLoads : Prop :=
  ∀ i w n, localLoads i = some (w, n) → ∀ (s : State) (h g : Nat) (e : Entry) (t : Task) (act : LaneMask) (addr : Nat → Nat),
    IssuesFreely s h g e t → act = (t.gang g).active e.mask w.g.toNat →
    w.a.toNat < 28 → Good t.variant.depth (t.gang g) act w.a.toNat →
    (∀ k ∈ groupRegs w.d.toNat n, k < 28 ∧ Full t.variant.depth (t.gang g) act k) →
    (∀ j, addr j = lladdr t.variant.depth ((t.gang g).thread j) w.a (w.imm.toNat * n)) →
    (∀ j, laneOf act j → OwnBytes t (addr j) n n) →
    ∃ s' t', exec i s = .next s' ∧ s'.task h = some t' ∧ wentOn t t' g e ∧ t'.scratch = t.scratch ∧
      (∀ j, laneOf act j → ∀ k, k < (n + 3) / 4 →
        ((t'.gang g).thread j).reg t.variant.depth (w.d.toNat + k) =
          BitVec.ofNat 32 (Memory.readNat t.scratch (addr j + 4 * k) (min n 4))) ∧
      (∀ j, ¬ laneOf act j → (t'.gang g).thread j = (t.gang g).thread j) ∧ s' = { s with cur := none, tasks := s'.tasks }

/-- LST8-LST128 to the task's own scratchpad: the lanes store in ascending order, so the highest lane's byte remains where they
overlap; every byte outside what they store keeps its value. -/
def Sys2Proof.Say.LocalStores : Prop :=
  ∀ i w n, localStores i = some (w, n) → ∀ (s : State) (h g : Nat) (e : Entry) (t : Task) (act : LaneMask) (addr : Nat → Nat),
    IssuesFreely s h g e t → act = (t.gang g).active e.mask w.g.toNat →
    w.a.toNat < 28 → Good t.variant.depth (t.gang g) act w.a.toNat →
    (∀ k ∈ groupRegs w.d.toNat n, k < 28 ∧ Good t.variant.depth (t.gang g) act k) →
    (∀ j, addr j = lladdr t.variant.depth ((t.gang g).thread j) w.a (w.imm.toNat * n)) →
    (∀ j, laneOf act j → OwnBytes t (addr j) n n) →
    ∃ s' t', exec i s = .next s' ∧ s'.task h = some t' ∧ wentOn t t' g e ∧
      (∀ j b, laneOf act j → b < n → (∀ j', laneOf act j' → j < j' → ¬ (addr j' ≤ addr j + b ∧ addr j + b < addr j' + n)) →
        Memory.read t'.scratch (addr j + b) = groupByte t.variant.depth ((t.gang g).thread j) w.d.toNat b) ∧
      (∀ a, (∀ j, laneOf act j → a < addr j ∨ addr j + n ≤ a) → Memory.read t'.scratch a = Memory.read t.scratch a) ∧
      (t'.gang g).threads = (t.gang g).threads ∧ s' = { s with cur := none, tasks := s'.tasks }

/-- LATOM: the lanes on the task's own scratchpad (`own`) read, compute and write in ascending order, and those on another core's are sent
there with their data; v[d] is empty until the old value, that of an own lane as it was read, comes back. -/
def Sys2Proof.Say.LocalAtomics : Prop :=
  ∀ i w r f, localAtomics i = some (w, r, f) → ∀ (s : State) (h g : Nat) (e : Entry) (t : Task) (act own : LaneMask) (addr : Nat → Nat),
    IssuesFreely s h g e t → act = (t.gang g).active e.mask w.g.toNat → own &&& act = own →
    w.a.toNat < 28 → Good t.variant.depth (t.gang g) act w.a.toNat →
    (∀ k ∈ groupRegs w.d.toNat (4 * r), k < 28 ∧ Good t.variant.depth (t.gang g) act k) →
    (∀ j, addr j = lladdr t.variant.depth ((t.gang g).thread j) w.a (w.imm.toNat * 4)) →
    (∀ j, laneOf own j → OwnBytes t (addr j) 4 4) →
    (∀ j, laneOf act j → ¬ laneOf own j → addr j % 4 = 0 ∧ s.isRemote h (addr j) = true) →
    ∃ s' t', exec i s = .next s' ∧ s'.task h = some t' ∧ wentOn t t' g e ∧
      (∀ a, Memory.read t'.scratch a =
        Memory.read (latomMem t.variant.depth (t.gang g) f w.d.toNat addr (lanesOf own) t.scratch) a) ∧
      (∀ j, laneOf act j → ((t'.gang g).thread j).regState t.variant.depth w.d.toNat = .empty) ∧
      (act = 0 → s'.remotes = s.remotes) ∧
      (act ≠ 0 → ∃ x o, s'.remotes = s.remotes ++ [x] ∧ x.owner = .gang h g ∧ x.kind = .latom o ∧ (∀ a b c, latomNew o a b c = f a b c) ∧
        ∀ j, laneOf act j → ∃ m ∈ x.lanes, m.lane = j ∧ m.addr = addr j ∧
          m.dst = [((t.gang g).thread j).phys t.variant.depth w.d.toNat] ∧ m.refused = 0 ∧ m.poisoned = false ∧
          (laneOf own j → m.stage = 1 ∧ m.result = leBytes 4 (Memory.readNat
            (latomMem t.variant.depth (t.gang g) f w.d.toNat addr ((lanesOf own).filter (· < j)) t.scratch) (addr j) 4)) ∧
          (¬ laneOf own j → m.stage = 0 ∧
            ∀ k, k < r → m.data[k]? = some (((t.gang g).thread j).reg t.variant.depth (w.d.toNat + k)))) ∧
      s' = { s with cur := none, tasks := s'.tasks, remotes := s'.remotes, nextId := s'.nextId }

/-- TLD8-TLD32: active lane j receives elements 2⌊j/4⌋ and the next of the row that lane j mod 4 addresses. -/
def Sys2Proof.Say.TransposingLoads : Prop :=
  ∀ i w n, transposes i = some (w, n) → ∀ (s : State) (h g : Nat) (e : Entry) (t : Task) (act : LaneMask) (addr : Nat → Nat),
    IssuesFreely s h g e t → act = (t.gang g).active e.mask w.g.toNat → act ≠ 0 → w.a.toNat < 28 → w.d.toNat + 1 < 28 →
    (∀ j, laneOf act j → ((t.gang g).thread (j % 4)).regState t.variant.depth w.a.toNat = .full ∧
      ((t.gang g).thread (j % 4)).regPoison t.variant.depth w.a.toNat = false) →
    Full t.variant.depth (t.gang g) act w.d.toNat → Full t.variant.depth (t.gang g) act (w.d.toNat + 1) →
    (∀ j, addr j = lladdr t.variant.depth ((t.gang g).thread j) w.a (w.imm.toNat * n)) →
    (∀ j, laneOf act j → OwnBytes t (addr (j % 4)) (16 * n) n) →
    ∃ s' t', exec i s = .next s' ∧ s'.task h = some t' ∧ wentOn t t' g e ∧ t'.scratch = t.scratch ∧
      (∀ j, laneOf act j → ∀ k, k < 2 → ((t'.gang g).thread j).reg t.variant.depth (w.d.toNat + k) =
        BitVec.ofNat 32 (Memory.readNat t.scratch (addr (j % 4) + (2 * (j / 4) + k) * n) n)) ∧
      s' = { s with cur := none, tasks := s'.tasks }

/-- PLNW stores bit plane k of v[d] as word k, and PLNR gathers bit j of the 32 words into lane j. -/
def Sys2Proof.Say.BitPlanes : Prop :=
  ∀ (w : LL) (write : Bool) (s : State) (h g : Nat) (e : Entry) (t : Task) (act : LaneMask) (addr : Nat),
    IssuesFreely s h g e t → act = (t.gang g).active e.mask w.g.toNat → act ≠ 0 → w.a.toNat < 28 → w.d.toNat < 28 →
    Good t.variant.depth (t.gang g) (laneBit (lowestLane act)) w.a.toNat → Good t.variant.depth (t.gang g) act w.d.toNat →
    addr = lladdr t.variant.depth ((t.gang g).thread (lowestLane act)) w.a (w.imm.toNat * 4) → OwnBytes t addr 128 4 →
    ∃ s' t', exec (if write then .plnw w else .plnr w) s = .next s' ∧ s'.task h = some t' ∧ wentOn t t' g e ∧
      (write = true → ∀ k, k < 32 → ∀ j, j < 32 → (Memory.readNat t'.scratch (addr + 4 * k) 4).testBit j =
        (act.getLsbD j && (((t.gang g).thread j).reg t.variant.depth w.d.toNat).getLsbD k)) ∧
      (write = true → (∀ a, a < addr ∨ addr + 128 ≤ a → Memory.read t'.scratch a = Memory.read t.scratch a) ∧
        (t'.gang g).threads = (t.gang g).threads) ∧
      (write = false → t'.scratch = t.scratch ∧ ∀ j, laneOf act j → ∀ k, k < 32 →
        (((t'.gang g).thread j).reg t.variant.depth w.d.toNat).getLsbD k =
          (Memory.readNat t.scratch (addr + 4 * k) 4).testBit j) ∧
      s' = { s with cur := none, tasks := s'.tasks }

/-- TEBQ stores the block that quantises the active lanes' values (zero in the others) and sets their flags; TEBL writes the
decoded, RNE-rounded values. -/
def Sys2Proof.Say.BlockQuantisation : Prop :=
  ∀ (w : LTeb) (write : Bool) (s : State) (h g : Nat) (e : Entry) (t : Task) (act : LaneMask) (addr n : Nat),
    IssuesFreely s h g e t → act = (t.gang g).active e.mask w.g.toNat → act ≠ 0 → w.a.toNat < 28 → w.d.toNat < 28 →
    Good t.variant.depth (t.gang g) (laneBit (lowestLane act)) w.a.toNat → Good t.variant.depth (t.gang g) act w.d.toNat →
    addr = lladdr t.variant.depth ((t.gang g).thread (lowestLane act)) w.a (w.off.toNat * 4) →
    n = [2, 4, 6, 10].getD w.var.toNat 0 → OwnBytes t addr (12 + 4 * n) 4 →
    ∃ s' t', exec (if write then .tebq w else .tebl w) s = .next s' ∧ s'.task h = some t' ∧ wentOn t t' g e ∧
      (write = true → ∀ q, q = tebQuantise n ((List.range 32).map fun j => fmtF32.value
          (if act.getLsbD j then (((t.gang g).thread j).reg t.variant.depth w.d.toNat).toNat else 0)) →
        (∀ k, k < 3 + n → BitVec.ofNat 32 (Memory.readNat t'.scratch (addr + 4 * k) 4) = BitVec.ofNat 32 ((q.1.words n).getD k 0)) ∧
        (∀ j, j < 32 → ((t'.gang g).thread j).fpflags =
          ((t.gang g).thread j).fpflags ||| (if act.getLsbD j then q.2.getD j 0 else 0)) ∧
        ∀ a, a < addr ∨ addr + (12 + 4 * n) ≤ a → Memory.read t'.scratch a = Memory.read t.scratch a) ∧
      (write = false → t'.scratch = t.scratch ∧ ∀ j, laneOf act j →
        ((t'.gang g).thread j).reg t.variant.depth w.d.toNat =
          BitVec.ofNat 32 (match (TebBlock.ofWords n ((List.range (3 + n)).map fun k => Memory.readNat t.scratch (addr + 4 * k) 4)).value n n j with
            | .fin neg m x => (fmtF32.round .rne neg m x).bits
            | _ => fmtF32.nan)) ∧
      s' = { s with cur := none, tasks := s'.tasks }

/-! ## Global memory -/

namespace Sys2Proof.Say

/-- A load word: registers, bytes, sign extension, policy, the scope of its acquire. -/
structure LoadForm where
  d : BitVec 5
  a : BitVec 5
  sb : BitVec 5
  g : BitVec 3
  n : Nat
  signed : Bool
  pol : BitVec 2
  acq : Option Nat

def plainLoad (w : LM) (n : Nat) (sg : Bool) : Option LoadForm := some ⟨w.d, w.a, w.sb, w.g, n, sg, w.pol, none⟩

def globalLoads : Instr → Option LoadForm
  | .ld8 w => plainLoad w 1 false
  | .ld8s w => plainLoad w 1 true
  | .ld16 w => plainLoad w 2 false
  | .ld16s w => plainLoad w 2 true
  | .ld32 w => plainLoad w 4 false
  | .ld64 w => plainLoad w 8 false
  | .ld128 w => plainLoad w 16 false
  | .ldaq32 w => some ⟨w.d, w.a, w.sb, w.g, 4, false, 0, some w.scope.toNat⟩
  | .ldaq64 w => some ⟨w.d, w.a, w.sb, w.g, 8, false, 0, some w.scope.toNat⟩
  | _ => none

/-- A store word: registers, the empty action of its data, bytes, the scope of its release. -/
structure StoreForm where
  d : BitVec 5
  a : BitVec 5
  sb : BitVec 5
  g : BitVec 3
  n : Nat
  rel : Option Nat

def plainStore (w : LMSt) (n : Nat) : Option StoreForm := some ⟨w.d, w.a, w.sb, w.g, n, none⟩

def globalStores : Instr → Option StoreForm
  | .st8 w => plainStore w 1
  | .st16 w => plainStore w 2
  | .st32 w => plainStore w 4
  | .st64 w => plainStore w 8
  | .st128 w => plainStore w 16
  | .strl32 w => some ⟨w.d, w.a, w.sb, w.g, 4, some w.scope.toNat⟩
  | .strl64 w => some ⟨w.d, w.a, w.sb, w.g, 8, some w.scope.toNat⟩
  | _ => none

/-- A global atomic: its operation number (03 Table 3-6). -/
def globalAtomics : Instr → Option (LAtom × Nat)
  | .atomAdd w => some (w, 0)
  | .atomAdd64 w => some (w, 1)
  | .atomFadd w => some (w, 2)
  | .atomImin w => some (w, 3)
  | .atomImax w => some (w, 4)
  | .atomIminu w => some (w, 5)
  | .atomImaxu w => some (w, 6)
  | .atomAnd w => some (w, 7)
  | .atomOr w => some (w, 8)
  | .atomXor w => some (w, 9)
  | .atomXchg w => some (w, 10)
  | .atomIncb w => some (w, 11)
  | .atomCas32 w => some (w, 12)
  | .atomCas64 w => some (w, 13)
  | .atomCas128 w => some (w, 14)
  | .atomAddMap2 w => some (w, 0)
  | .atomAdd64Map2 w => some (w, 1)
  | .atomFaddMap2 w => some (w, 2)
  | .atomIminMap2 w => some (w, 3)
  | .atomImaxMap2 w => some (w, 4)
  | .atomIminuMap2 w => some (w, 5)
  | .atomImaxuMap2 w => some (w, 6)
  | .atomAndMap2 w => some (w, 7)
  | .atomOrMap2 w => some (w, 8)
  | .atomXorMap2 w => some (w, 9)
  | .atomXchgMap2 w => some (w, 10)
  | .atomIncbMap2 w => some (w, 11)
  | .atomCas32Map2 w => some (w, 12)
  | .atomCas64Map2 w => some (w, 13)
  | .atomCas128Map2 w => some (w, 14)
  | _ => none

/-- Bytes of an atomic, and the registers of its data and of its old value (03 Table 3-6, 09 Table 9-7). -/
def atomBytes (op : Nat) : Nat := [4, 8, 4, 4, 4, 4, 4, 4, 4, 4, 4, 4, 4, 8, 16].getD op 4
def atomGroup (op : Nat) : Nat := [1, 2, 1, 1, 1, 1, 1, 1, 1, 1, 1, 1, 2, 4, 8].getD op 1

/-- The little-endian value of `n` words from number `i`. -/
def wordsNat (d : List Word) (i n : Nat) : Nat := ((List.range n).map fun j => 2 ^ (32 * j) * (d.getD (i + j) 0).toNat).sum

/-- The new value of an atomic (09 Table 9-7). -/
def atomResult (op old : Nat) (d : List Word) : Nat :=
  let o : Word := BitVec.ofNat 32 old
  let x := d.getD 0 0
  match op with
  | 0 => (o + x).toNat
  | 1 => (old + wordsNat d 0 2) % 2 ^ 64
  | 2 => (f32Add o x).1.toNat
  | 3 => (if x.slt o then x else o).toNat
  | 4 => (if o.slt x then x else o).toNat
  | 5 => min old x.toNat
  | 6 => max old x.toNat
  | 7 => (o &&& x).toNat
  | 8 => (o ||| x).toNat
  | 9 => (o ^^^ x).toNat
  | 10 => x.toNat
  | 11 => if old < x.toNat then old + 1 else old
  | 12 => if old = wordsNat d 0 1 then wordsNat d 1 1 else old
  | 13 => if old = wordsNat d 0 2 then wordsNat d 2 2 else old
  | _ => if old = wordsNat d 0 4 then wordsNat d 4 4 else old

/-- An address that passes every check of an access through an entry of the cluster's TLB (09 R191). -/
structure Mapped (s : State) (h va align n : Nat) (a : Access) (leaf : Nat) : Prop where
  aligned : va % align = 0
  canon : canonical va = true
  tlb : ((s.cluster (hCluster h)).tlb.find? fun x => x.covers (s.ctxOf h) va).map (fun x => x.leaf.toNat) = some leaf
  allowed : permCause leaf (leafPa leaf va) n a = none
  writable : a.writes = true → pteD leaf = true ∧ pteMig leaf = false

/-- No access in flight is about to retire. -/
structure InFlight (s : State) : Prop where
  loads : ∀ x ∈ s.loads, ∃ l ∈ x.lanes, l.landed = false
  writes : ∀ x ∈ s.writes, x.acked = false
  atoms : ∀ x ∈ s.atoms, ∃ l ∈ x.lanes, l.stage ≠ 2

/-- The 64-bit base that a word takes from an s pair: a word that stood in its release keeps the one it read at issue. -/
def gbase (gg : Gang) (e : Entry) (sb : BitVec 5) : Nat :=
  match e.st with
  | .stall (.release _ _ base) => base
  | _ => (gg.sreg sb.toNat).toNat + 2 ^ 32 * (gg.sreg (sb.toNat + 1)).toNat

/-- The effective address of a lane (09 R202). -/
def gea (D : Nat) (gg : Gang) (e : Entry) (sb a : BitVec 5) (i : Nat) : Nat :=
  (gbase gg e sb + ((gg.thread i).reg D a.toNat).toNat) % 2 ^ 64

end Sys2Proof.Say

/-- A load whose lanes pass the checks, or hit the L1 of the core, goes on at once: it stands in flight with one address a lane, the
destination registers empty in the active lanes, LD one higher, memory as it was. -/
def Sys2Proof.Say.GlobalLoadsIssue : Prop :=
  ∀ i f, globalLoads i = some f → ∀ (s : State) (h g : Nat) (e : Entry) (t : Task) (act : LaneMask) (leaf pa : Nat → Nat),
    IssuesFreely s h g e t → InFlight s → act = (t.gang g).active e.mask f.g.toNat → act ≠ 0 → (t.gang g).counters.ld < 63 →
    f.a.toNat < 28 → Good t.variant.depth (t.gang g) act f.a.toNat →
    (∀ k ∈ groupRegs f.d.toNat f.n, k < 28 ∧ Full t.variant.depth (t.gang g) act k) →
    (∀ j, laneOf act j → ∀ va, va = gea t.variant.depth (t.gang g) e f.sb f.a j →
      (Mapped s h va f.n f.n .read (leaf j) ∧ (s.core (hCore h)).l1Line t.ctx va = none ∧ pa j = leafPa (leaf j) va) ∨
      (va % f.n = 0 ∧ canonical va = true ∧ ∃ y, (s.core (hCore h)).l1Line t.ctx va = some y ∧ pa j = 128 * y.pline + va % 128)) →
    ∃ s' t' op, exec i s = .next s' ∧ s'.task h = some t' ∧ wentOn t t' g e ∧
      s'.loads = s.loads ++ [op] ∧ op.owner = .gang h g ∧ op.bytes = f.n ∧ op.signed = f.signed ∧ op.acq = f.acq ∧
      (op.lanes.map fun l => (l.lane, l.va, l.pa, l.landed)) = (lanesOf act).map (fun j =>
        (j, gea t.variant.depth (t.gang g) e f.sb f.a j, pa j, false)) ∧
      (∀ j, laneOf act j → ∀ k ∈ groupRegs f.d.toNat f.n, ((t'.gang g).thread j).regState t.variant.depth k = .empty) ∧
      (t'.gang g).counters.ld = (t.gang g).counters.ld + 1 ∧ s'.mem = s.mem

/-- A store whose lanes pass the checks goes on at once: its bytes stand in flight at the core, ST one higher, no byte of memory
and no register changed; STRL only once its release is done and the gang's earlier ordered accesses have taken effect. -/
def Sys2Proof.Say.GlobalStoresIssue : Prop :=
  ∀ i f, globalStores i = some f → ∀ (s : State) (h g : Nat) (e : Entry) (t : Task) (act : LaneMask) (leaf : Nat → Nat),
    IssuesFreely s h g e t → act = (t.gang g).active e.mask f.g.toNat → (t.gang g).counters.st < 63 →
    f.a.toNat < 28 → Good t.variant.depth (t.gang g) act f.a.toNat →
    (∀ k ∈ groupRegs f.d.toNat f.n, k < 28 ∧ Good t.variant.depth (t.gang g) act k) →
    (∀ sc, f.rel = some sc → s.releaseDone (.gang h g) sc (s.upto e) = true ∧ s.orderedBefore (.gang h g) s.nextId sc = true) →
    (∀ j, laneOf act j → Mapped s h (gea t.variant.depth (t.gang g) e f.sb f.a j) f.n f.n .write (leaf j)) →
    ∃ s' t' op, exec i s = .next s' ∧ s'.task h = some t' ∧ wentOn t t' g e ∧
      s'.writes = s.writes ++ [op] ∧ op.owner = .gang h g ∧ op.acked = false ∧
      op.tagged = decide ((t.gang g).tags.length < 16) ∧
      (op.lanes.map fun l => (l.lane, l.pa, l.data, l.stage)) = (lanesOf act).map (fun j =>
        (j, leafPa (leaf j) (gea t.variant.depth (t.gang g) e f.sb f.a j),
          (List.range f.n).map (groupByte t.variant.depth ((t.gang g).thread j) f.d.toNat), 0)) ∧
      (t'.gang g).counters.st = (t.gang g).counters.st + 1 ∧ (t'.gang g).threads = (t.gang g).threads ∧ s'.mem = s.mem

/-- An atomic whose lanes pass the checks goes on at once: it stands in flight with the lanes' data, v[d] empty until the old value
returns; a release part must be done. The opcodes of map 2 mean the same. -/
def Sys2Proof.Say.GlobalAtomicsIssue : Prop :=
  ∀ i w op, globalAtomics i = some (w, op) → ∀ (s : State) (h g : Nat) (e : Entry) (t : Task) (act : LaneMask) (leaf : Nat → Nat),
    IssuesFreely s h g e t → InFlight s → act = (t.gang g).active e.mask w.g.toNat → act ≠ 0 → (t.gang g).counters.st < 63 →
    w.a.toNat < 28 → Good t.variant.depth (t.gang g) act w.a.toNat →
    (∀ k, k < atomGroup op → w.d.toNat + k < 28 ∧ Good t.variant.depth (t.gang g) act (w.d.toNat + k)) →
    (w.ord.getLsbD 1 = true → s.releaseDone (.gang h g) w.scope.toNat (s.upto e) = true) →
    (∀ j, laneOf act j → Mapped s h (gea t.variant.depth (t.gang g) e w.sb w.a j) (atomBytes op) (atomBytes op) (.atomic op) (leaf j)) →
    ∃ s' t' x, exec i s = .next s' ∧ s'.task h = some t' ∧ wentOn t t' g e ∧
      s'.atoms = s.atoms ++ [x] ∧ x.owner = .gang h g ∧ x.op = op ∧ x.scope = w.scope.toNat ∧ x.acq = w.ord.getLsbD 0 ∧
      (x.lanes.map fun l => (l.lane, l.pa, l.data, l.stage)) = (lanesOf act).map (fun j =>
        (j, leafPa (leaf j) (gea t.variant.depth (t.gang g) e w.sb w.a j),
          (List.range (atomGroup op)).map (fun k => ((t.gang g).thread j).reg t.variant.depth (w.d.toNat + k)), 0)) ∧
      (∀ j, laneOf act j → ∀ k, k < atomBytes op / 4 → ((t'.gang g).thread j).regState t.variant.depth (w.d.toNat + k) = .empty) ∧
      (t'.gang g).counters.st = (t.gang g).counters.st + 1 ∧ s'.mem = s.mem

/-- LOAD_DATA_LANDS: a word of a lane of a gang's load is read at its point. While words of the lane are missing it stays in flight;
with the last one, where its data carries no poison, the lane receives it, little-endian and extended, into the registers it names,
which are full again; memory and every other thread of the gang stand. -/
def Sys2Proof.Say.LoadDataLands : Prop :=
  ∀ (s : State) (op lane word h g : Nat) (t : Task) (x : LoadOp) (l l' : LoadLane), s.task h = some t →
    s.loads.find? (fun y => y.id == op) = some x → x.lanes.find? (fun y => y.lane == lane && !y.landed) = some l →
    x.owner = .gang h g → x.uniform = false → x.fixed = [] → l.lacks word = true → word < (x.bytes + 3) / 4 →
    s.mayRead x l (l.pa + 4 * word) (min x.bytes 4) = true →
    l' = { l with got := l.got ++ [(word, s.overlay x.core x.id (l.pa + 4 * word)
      (s.coreRead x.core (hDie h) x.ctx (l.va + 4 * word) (l.pa + 4 * word) (min x.bytes 4) l.mode).1)] } →
    ((∃ j, j < (x.bytes + 3) / 4 ∧ l'.lacks j = true) →
      ∃ s', exec (.loadDataLands op ⟨lane, word⟩) s = .next s' ∧ s'.tasks = s.tasks ∧ s'.mem = s.mem ∧
        s'.loads.find? (fun y => y.id == op) = some { x with lanes := x.lanes.map fun m => if m.lane = lane then l' else m }) ∧
    ((∀ j, j < (x.bytes + 3) / 4 → l'.lacks j = false) → l'.poisoned = false → l.dst.Nodup → l.dst.length = (x.bytes + 3) / 4 →
      x.bytes = 1 ∨ x.bytes = 2 ∨ x.bytes % 4 = 0 →
      ∃ s' t', exec (.loadDataLands op ⟨lane, word⟩) s = .next s' ∧ s'.task h = some t' ∧ s'.mem = s.mem ∧
        (∀ k p, l.dst[k]? = some p →
          AList.get 0 ((t'.gang g).thread lane).stack p =
            (let v := leNat ((((l'.data x.bytes).map Prod.fst).drop (4 * k)).take 4)
             if x.signed ∧ x.bytes = 1 then (BitVec.ofNat 8 v).signExtend 32
             else if x.signed ∧ x.bytes = 2 then (BitVec.ofNat 16 v).signExtend 32 else BitVec.ofNat 32 v) ∧
          AList.get .full ((t'.gang g).thread lane).rstate p = .full) ∧
        (∀ p, p ∉ l.dst → AList.get 0 ((t'.gang g).thread lane).stack p = AList.get 0 ((t.gang g).thread lane).stack p) ∧
        ∀ j, j ≠ lane → (t'.gang g).thread j = (t.gang g).thread j)

/-- A store lane that may leave its core: a home of the issuing die, and a bank, perform it at once; any other, which the LLC has room for,
is passed on to its home, and stands at the die point with no byte of memory changed until STORE_AT_HOME performs it, in the order its die
sent it. Performed, it changes its own bytes alone; a guarded byte denies the lane, and the guard log of the home's die counts it. -/
def Sys2Proof.Say.StoreIsPerformed : Prop :=
  (∀ (s : State) (op lane : Nat) (x : WriteOp) (l : WriteLane) (atHome : Bool),
    s.writeLane op lane (if atHome then 1 else 0) = some (x, l) → x.through = false → x.id = op →
    (atHome = true → s.olderAtDie x l = false ∧ s.awake l.pa = true) →
    (atHome = false → s.mayLeave x l = true ∧ (ownHome x.die l.pa = true ∨ isBank l.pa = true)) →
    (∀ k, k < l.data.length → s.aliasAt (l.pa + k) = none) →
    (s.guarded l.pa l.data.length = none → ∃ s',
      exec (if atHome then .storeAtHome op lane else .writeAtDiePoint op lane) s = .next s' ∧
      (∀ k b, l.data[k]? = some b → Memory.read s'.mem (l.pa + k) = b) ∧
      (∀ a, a < l.pa ∨ l.pa + l.data.length ≤ a → Memory.read s'.mem a = Memory.read s.mem a) ∧ s'.tasks = s.tasks) ∧
    (∀ b, s.guarded l.pa l.data.length = some b → ∃ s',
      exec (if atHome then .storeAtHome op lane else .writeAtDiePoint op lane) s = .next s' ∧ s'.mem = s.mem ∧
      (s'.die (dieOfPa l.pa)).guardLog = (s.die (dieOfPa l.pa)).guardLog + 1 ∧ s'.tasks = s.tasks)) ∧
  ∀ (s : State) (op lane : Nat) (x : WriteOp) (l : WriteLane), s.writeLane op lane 0 = some (x, l) → s.mayLeave x l = true →
    s.lineRoom x.die l.pa l.mode = true → ownHome x.die l.pa = false → isBank l.pa = false →
    ∃ s', exec (.writeAtDiePoint op lane) s = .next s' ∧ s'.mem = s.mem ∧ s'.tasks = s.tasks ∧
      s'.writes = s.writes.map fun y => if y.id = op
        then { y with lanes := y.lanes.map fun m => if m.lane = lane then { m with stage := 1, seq := s.nextId } else m } else y

/-- STORE_ACK_RETURNS: the tag is free again, the word's denial joins those to be delivered, memory stands. -/
def Sys2Proof.Say.StoreAcknowledged : Prop :=
  ∀ (s : State) (op h g : Nat) (t : Task) (x : WriteOp), s.task h = some t →
    s.writes.find? (fun y => y.id == op && !y.acked) = some x → x.owner = .gang h g →
    (x.lanes.all fun l => decide (l.stage = 2)) = true →
    ∃ s' t', exec (.storeAckReturns op) s = .next s' ∧ s'.task h = some t' ∧ s'.mem = s.mem ∧
      (t'.gang g).tags = (t.gang g).tags.filter (fun p => p.1 != op) ∧
      (t'.gang g).denials = (t.gang g).denials ++ (match x.lanes.filter (fun l => decide (l.denied ≠ 0)) with
        | [] => []
        | l :: r => [{ pc := x.pc, mask := x.umask.getD ((l :: r).foldl (fun m y => m ||| laneBit y.lane) 0), addr := l.deniedAt,
                       cause := l.denied, tagged := x.tagged }]) ∧
      (t'.gang g).threads = (t.gang g).threads

/-- A byte with its poison as the point of a die holds it: its valid guest word, else the home's (10 R211, R212). -/
def Sys2Proof.Say.dieByte (s : State) (die a : Nat) : PByte :=
  if ((s.die die).guestLine (lineOf a)).valid.getLsbD (a % 128 / 4) = true then
    ((s.die die).guestLine (lineOf a)).data.getD (a % 128) (0, false)
  else s.homeByte a

/-- ATOMIC_EXECUTES of a lane in no guard range. One that runs at its home, or near on the home's own die: the bytes take the result of the
operation. A near one of another die: it reads the die point and changes only that, its result on its way to the home as a write-through of
the atomic's id. The old value is kept for the reply; ATOMIC_REPLY then writes it to v[d] of the lane, full. -/
def Sys2Proof.Say.AtomicsExecute : Prop :=
  (∀ (s : State) (op lane : Nat) (x : AtomOp) (l : AtomLane), s.atoms.find? (fun y => y.id == op) = some x → x.id = op →
    x.lanes.find? (fun y => y.lane == lane && decide (y.stage = 0)) = some l → l.lane = lane → x.op ≤ 14 →
    s.atomReady x l = true → s.atomDenied l.pa (atomBytes x.op) = false → l.near x.scope = false ∨ ownHome x.die l.pa = true →
    (∀ k, k < atomBytes x.op → s.aliasAt (l.pa + k) = none ∧ AList.get false s.memPoison ((l.pa + k) / 4) = false) →
    ∃ s', exec (.atomicExecutes op lane) s = .next s' ∧
      (∀ k, k < atomBytes x.op → Memory.read s'.mem (l.pa + k) =
        BitVec.ofNat 8 (atomResult x.op (Memory.readNat s.mem l.pa (atomBytes x.op)) l.data / 256 ^ k)) ∧
      (∀ a, a < l.pa ∨ l.pa + atomBytes x.op ≤ a → Memory.read s'.mem a = Memory.read s.mem a) ∧
      (∃ y ∈ s'.atoms, y.id = op ∧ ∃ m ∈ y.lanes, m.lane = lane ∧ m.stage = 1 ∧
        m.old = Memory.readBytes s.mem l.pa (atomBytes x.op))) ∧
  (∀ (s : State) (op lane : Nat) (x : AtomOp) (l : AtomLane) (old : List Byte) (new : Nat), s.atoms.find? (fun y => y.id == op) = some x →
    x.id = op → x.lanes.find? (fun y => y.lane == lane && decide (y.stage = 0)) = some l → l.lane = lane → x.op ≤ 14 →
    s.atomReady x l = true → s.atomDenied l.pa (atomBytes x.op) = false → l.near x.scope = true → ownHome x.die l.pa = false →
    l.pa % atomBytes x.op = 0 → (∀ k, k < atomBytes x.op → (Say.dieByte s x.die (l.pa + k)).2 = false) →
    old = (List.range (atomBytes x.op)).map (fun k => (Say.dieByte s x.die (l.pa + k)).1) → new = atomResult x.op (leNat old) l.data →
    ∃ s', exec (.atomicExecutes op lane) s = .next s' ∧ s'.mem = s.mem ∧
      (∀ k, k < atomBytes x.op → Say.dieByte s' x.die (l.pa + k) = (BitVec.ofNat 8 (new / 256 ^ k), false)) ∧
      (∀ a, lineOf a = lineOf l.pa → (a < l.pa ∨ l.pa + atomBytes x.op ≤ a) → Say.dieByte s' x.die a = Say.dieByte s x.die a) ∧
      (∃ y ∈ s'.atoms, y.id = op ∧ ∃ m ∈ y.lanes, m.lane = lane ∧ m.stage = 1 ∧ m.old = old) ∧
      (new ≠ leNat old ∨ (x.op ≠ 11 ∧ x.op < 12) → ∃ q ∈ s'.writes, q.id = op ∧ ∃ m ∈ q.lanes, m.lane = lane ∧ m.pa = l.pa ∧ m.stage = 1 ∧
        m.denied = 0 ∧ m.poison = false ∧ m.data = leBytes (atomBytes x.op) new) ∧
      (new = leNat old → x.op = 11 ∨ 12 ≤ x.op → s'.writes = s.writes)) ∧
  ∀ (s : State) (op lane h g : Nat) (t : Task) (x : AtomOp) (l : AtomLane), s.task h = some t →
    s.atoms.find? (fun y => y.id == op) = some x → x.lanes.find? (fun y => y.lane == lane && decide (y.stage = 1)) = some l →
    l.lane = lane → x.owner = .gang h g → l.denied = false → l.poisoned = false → l.dst.Nodup → l.dst.length = atomBytes x.op / 4 →
    x.op ≤ 14 → ∃ s' t', exec (.atomicReply op lane) s = .next s' ∧ s'.task h = some t' ∧ s'.mem = s.mem ∧
      ∀ k p, l.dst[k]? = some p →
        AList.get 0 ((t'.gang g).thread lane).stack p = BitVec.ofNat 32 (leNat ((l.old.drop (4 * k)).take 4)) ∧
        AList.get .full ((t'.gang g).thread lane).rstate p = .full

/-- A denied atomic changes no byte; its reply fills v[d] with its old value, and the last reply of the word raises PERM cause 7 after
it, in one record that names the denied lanes. -/
def Sys2Proof.Say.DeniedAtomic : Prop :=
  (∀ (s : State) (op lane : Nat) (x : AtomOp) (l : AtomLane), s.atoms.find? (fun y => y.id == op) = some x →
    x.lanes.find? (fun y => y.lane == lane && decide (y.stage = 0)) = some l → s.atomReady x l = true → x.op ≤ 14 →
    s.atomDenied l.pa (atomBytes x.op) = true → ∃ s', exec (.atomicExecutes op lane) s = .next s' ∧ s'.mem = s.mem) ∧
  ∀ (s : State) (op lane h g : Nat) (t : Task) (x : AtomOp) (l : AtomLane), s.task h = some t →
    s.atoms.find? (fun y => y.id == op) = some x → x.lanes.find? (fun y => y.lane == lane && decide (y.stage = 1)) = some l →
    x.owner = .gang h g → l.denied = true → (t.gang g).record.busy = false →
    (∀ m ∈ x.lanes, m.lane ≠ lane → m.stage = 2) →
    ∃ s' t', exec (.atomicReply op lane) s = .next s' ∧ s'.task h = some t' ∧ (t'.gang g).record.kind = 4 ∧
      (t'.gang g).record.pc = x.pc ∧ (t'.gang g).record.detail = 7 ∧
      (∀ j, j < 32 → ((t'.gang g).record.mask.getLsbD j = true ↔ ∃ m ∈ x.lanes, m.lane = j ∧ m.denied = true)) ∧
      (t'.gang g).frontier = (t.gang g).frontier ∧
      ∀ p, AList.get 0 ((t'.gang g).thread lane).stack p = AList.get 0 ((t.gang g).thread lane).stack p

/-- PREF never faults and changes no register and no record, whatever its addresses. -/
def Sys2Proof.Say.PrefetchNeverFaults : Prop :=
  ∀ (w : LMPref) (s : State) (h g : Nat) (e : Entry) (t : Task), IssuesFreely s h g e t → w.a.toNat < 28 →
    Good t.variant.depth (t.gang g) ((t.gang g).active e.mask w.g.toNat) w.a.toNat →
    ∃ s' t', exec (.pref w) s = .next s' ∧ s'.task h = some t' ∧ wentOn t t' g e ∧
      (t'.gang g).threads = (t.gang g).threads ∧ (t'.gang g).record = (t.gang g).record

namespace Sys2Proof.Say

/-- FENCE, FENCE.ACQ and FENCE.REL, with the number of the kind. -/
def isFence (w : LFence) (k : Nat) (i : Instr) : Prop :=
  (k = 0 ∧ i = .fence w) ∨ (k = 1 ∧ i = .fenceAcq w) ∨ (k = 2 ∧ i = .fenceRel w)

/-- The denials `d :: r` of a gang have been delivered as its DEFERRED record, and the entry stands at its word (09 R200, Table 9-6):
without a tag the first denial gives no PC and no mask, and detail bit 24 says that some denial had none. -/
structure Delivered (t t' : Task) (g : Nat) (e : Entry) (d : Denial) (r : List Denial) (flags : BitVec 8) : Prop where
  emptied : (t'.gang g).denials = []
  kind : (t'.gang g).record.kind = 9
  flag : (t'.gang g).record.flags = flags
  pc : (t'.gang g).record.pc = if d.tagged then d.pc else 0xFFFFFFFF
  mask : (t'.gang g).record.mask = if d.tagged then d.mask else 0
  detail : (t'.gang g).record.detail = BitVec.ofNat 32 (d.cause + 256 * (r.length + 1) +
    (if (d :: r).all (fun y => y.tagged) = true then 0 else 2 ^ 24))
  addr : (t'.gang g).record.addr = BitVec.ofNat 64 d.addr
  stands : (t'.gang g).frontier = (t.gang g).frontier ++ [{ e with st := .parked .fault, qkeep := [], held := none }]

end Sys2Proof.Say

/-- A FENCE of each kind whose accesses have reached their points discards what its kind and scope name and goes on, where no denial
waits to be delivered; one that is not ready waits; with no active lane it has no effect and goes on. -/
def Sys2Proof.Say.Fences : Prop :=
  ∀ (w : LFence) (k : Nat) (i : Instr) (s : State) (h g : Nat) (e : Entry) (t : Task), isFence w k i → Issues s h g e t →
    ((t.gang g).active e.mask w.g.toNat = 0 → exec i s = .next (goesOn (begun s h g) h g e)) ∧
    ((t.gang g).active e.mask w.g.toNat ≠ 0 → (t.gang g).denials = [] →
      s.fenceReady (.gang h g) k w.scope.toNat (s.upto e) = true → exec i s = .next (goesOn
        (if k = 2 then begun s h g else
          (let a := if 3 ≤ w.scope.toNat then (begun s h g).modCore (hCore h) fun c => { c with l1 := [] } else begun s h g
           if 5 ≤ w.scope.toNat then a.modDie (hDie h) fun d => { d with guest := dropClean d.guest } else a)) h g e)) ∧
    ((t.gang g).active e.mask w.g.toNat ≠ 0 → s.fenceReady (.gang h g) k w.scope.toNat (s.upto e) = false →
      ∃ st, exec i s = .next ((begun s h g).putEntry h g { e with st := .stall st }) ∧ (EState.stall st).orders = true)

/-- A FENCE of each kind that is ready delivers the gang's denied stores as one DEFERRED fault, which stops the entry at the fence. -/
def Sys2Proof.Say.FenceDeliversDenials : Prop :=
  ∀ (w : LFence) (k : Nat) (i : Instr) (s : State) (h g : Nat) (e : Entry) (t : Task) (d : Denial) (r : List Denial),
    isFence w k i → Issues s h g e t → (t.gang g).active e.mask w.g.toNat ≠ 0 → (t.gang g).denials = d :: r →
    (t.gang g).record.busy = false → r.length < 65535 → s.fenceReady (.gang h g) k w.scope.toNat (s.upto e) = true →
    ∃ s' t', exec i s = .next s' ∧ s'.task h = some t' ∧ Delivered t t' g e d r 1

/-- WAITC goes on once its class count is at most n: in class ST it delivers denials first, whatever n; with n = 0 it is in classes
BT, BK and RG an acquire at die scope; before that the entry waits. A stream's WAITC goes on in the same way. -/
def Sys2Proof.Say.WaitForCounts : Prop :=
  (∀ (w : UWaitc) (s : State) (h g : Nat) (e : Entry) (t : Task), Issues s h g e t → w.cls.toNat < 5 →
    ((t.gang g).cbit w.c.toNat = false → e.st.issued = false → exec (.waitc w) s = .next (goesOn (issued s) h g e)) ∧
    ((t.gang g).cbit w.c.toNat = true → (t.gang g).counters.get w.cls.toNat ≤ w.n.toNat →
      (w.cls = 1 → (t.gang g).denials = []) → (2 ≤ w.cls.toNat → w.n = 0 → s.loadsLanded (.gang h g) (s.upto e) = true) →
      exec (.waitc w) s = .next (goesOn
        (if 2 ≤ w.cls.toNat ∧ w.n = 0 then (issued s).modCore (hCore h) fun c => { c with l1 := [] } else issued s) h g e)) ∧
    (∀ d r, (t.gang g).cbit w.c.toNat = true → w.cls = 1 → (t.gang g).counters.get 1 ≤ w.n.toNat → (t.gang g).denials = d :: r →
      (t.gang g).record.busy = false → r.length < 65535 →
      ∃ s' t', exec (.waitc w) s = .next s' ∧ s'.task h = some t' ∧ Delivered t t' g e d r 5) ∧
    ((t.gang g).cbit w.c.toNat = true → e.st = .ready → w.n.toNat < (t.gang g).counters.get w.cls.toNat →
      exec (.waitc w) s = .next ((issued s).putEntry h g { e with st := .stall (.waitc w.cls.toNat w.n.toNat) }))) ∧
  ∀ (w : UWaitc) (s : State) (k j : Nat) (e : Entry) (x : Stream), StreamIssues s k j e x → streamBit x w.c.toNat = true →
    x.counters.get w.cls.toNat ≤ w.n.toNat →
    ∃ s', exec (.waitc w) s = .next s' ∧ s'.stream k j = some { x with pc := e.pc + 4, st := .ready } ∧ s'.tasks = s.tasks

/-- ULD and UST: a load stalls the entry until its data lands (LOAD_DATA_LANDS, the last word) and then writes s[d], s[d+1] and goes on; a
store sends the registers' bytes and goes on. That imm8 is zero-extended is the model's reading (log 63). -/
def Sys2Proof.Say.UniformMemory : Prop :=
  (∀ (w : UI) (n : Nat) (s : State) (h g : Nat) (e : Entry) (t : Task) (leaf va pa : Nat), n = 1 ∨ n = 2 → IssuesFreely s h g e t →
    (t.gang g).cbit w.c.toNat = true → va = (s.spair (.gang h g) w.a.toNat + 4 * w.imm.toNat) % 2 ^ 64 →
    (Mapped s h va (4 * n) (4 * n) .read leaf ∧ (s.core (hCore h)).l1Line t.ctx va = none ∧ pa = leafPa leaf va) ∨
      (va % (4 * n) = 0 ∧ canonical va = true ∧ ∃ y, (s.core (hCore h)).l1Line t.ctx va = some y ∧ pa = 128 * y.pline + va % 128) →
    ∃ s' op l, exec (if n = 1 then .uld32 w else .uld64 w) s = .next s' ∧ s'.loads = s.loads ++ [op] ∧ op.uniform = true ∧
      op.owner = .gang h g ∧ op.bytes = 4 * n ∧ op.lanes = [l] ∧ l.pa = pa ∧ l.dst = (List.range n).map (fun j => w.d.toNat + j) ∧
      (s'.gang h g).frontier = (t.gang g).frontier ++ [{ e with st := .stall (.load op.id) }]) ∧
  (∀ (s : State) (op word h g n d : Nat) (t : Task) (x : LoadOp) (l l' : LoadLane) (e : Entry), s.task h = some t →
    s.loads.find? (fun y => y.id == op) = some x → x.uniform = true → x.owner = .gang h g → x.fixed = [] → x.lanes = [l] →
    l.lane = 0 → l.landed = false → n = 1 ∨ n = 2 → x.bytes = 4 * n → l.dst = (List.range n).map (fun j => d + j) →
    l.lacks word = true → word < n → s.mayRead x l (l.pa + 4 * word) 4 = true →
    l' = { l with got := l.got ++ [(word, s.overlay x.core x.id (l.pa + 4 * word)
      (s.coreRead x.core (hDie h) x.ctx (l.va + 4 * word) (l.pa + 4 * word) 4 l.mode).1)] } →
    (∀ j, j < n → l'.lacks j = false) → l'.poisoned = false →
    (t.gang g).frontier.filter (fun y => y.st == .stall (.load op)) = [e] → e.mask ≠ 0 → e.pc.toNat % 8192 ≠ 0x1FFC →
    ∃ s' t', exec (.loadDataLands op ⟨0, word⟩) s = .next s' ∧ s'.task h = some t' ∧ s'.mem = s.mem ∧
      (∀ k, k < n → d + k ≠ 0 → (t'.gang g).sreg (d + k) = BitVec.ofNat 32 (leNat ((((l'.data (4 * n)).map Prod.fst).drop (4 * k)).take 4))) ∧
      (∀ m, (∀ k, k < n → m ≠ d + k) → (t'.gang g).sreg m = (t.gang g).sreg m) ∧
      (t'.gang g).frontier = ((t.gang g).frontier.filter (fun y => y.st != .stall (.load op))).map (fun y =>
        { y with st := y.st.boundAt s.nextId }) ++ [readyAt (e.pc + 4) e.pri e.mask] ∧
      (t'.gang g).threads = (t.gang g).threads) ∧
  ∀ (w : UI) (n : Nat) (s : State) (h g : Nat) (e : Entry) (t : Task) (leaf : Nat), n = 1 ∨ n = 2 → IssuesFreely s h g e t →
    (t.gang g).cbit w.c.toNat = true → (t.gang g).counters.st < 63 →
    Mapped s h ((s.spair (.gang h g) w.a.toNat + 4 * w.imm.toNat) % 2 ^ 64) (4 * n) (4 * n) .write leaf →
    ∃ s' t' op l, exec (if n = 1 then .ust32 w else .ust64 w) s = .next s' ∧ s'.task h = some t' ∧ wentOn t t' g e ∧
      s'.writes = s.writes ++ [op] ∧ op.lanes = [l] ∧
      l.pa = leafPa leaf ((s.spair (.gang h g) w.a.toNat + 4 * w.imm.toNat) % 2 ^ 64) ∧
      l.data = (List.range n).flatMap (fun j => leBytes 4 ((t.gang g).sreg (w.d.toNat + j)).toNat) ∧
      (t'.gang g).counters.st = (t.gang g).counters.st + 1 ∧ s'.mem = s.mem

namespace Sys2Proof.Say

/-- Set bits below position `p` of the block that 64 bytes hold. -/
def rankIn (block p : Nat) : Nat := (List.range p).countP fun i => block.testBit i

/-- The search of BMSEL for a value `n` between units `lo` and `hi`, which reads the count of each unit that it visits and ends at unit `j`
(09 R209). -/
inductive Search (h g base n pol : Nat) : Nat → Nat → State → Nat → State → Prop
  | done (lo hi : Nat) (s : State) : hi ≤ lo → Search h g base n pol lo hi s lo s
  | right (lo hi : Nat) (s s1 s2 : State) (j : Nat) (c : List Byte) : lo < hi →
      s.readLine h g ((base + 128 * (1 + (lo + hi + 1) / 2)) % 2 ^ 64 + 64) 4 pol = (.ok c, s1) → field c 0 4 ≤ n →
      Search h g base n pol ((lo + hi + 1) / 2) hi s1 j s2 → Search h g base n pol lo hi s j s2
  | left (lo hi : Nat) (s s1 s2 : State) (j : Nat) (c : List Byte) : lo < hi →
      s.readLine h g ((base + 128 * (1 + (lo + hi + 1) / 2)) % 2 ^ 64 + 64) 4 pol = (.ok c, s1) → n < field c 0 4 →
      Search h g base n pol lo ((lo + hi + 1) / 2 - 1) s1 j s2 → Search h g base n pol lo hi s j s2

end Sys2Proof.Say

/-- BMRANK and BMSEL: when every active lane's lines can be read, the entry stalls with one load in flight that holds each lane's value,
v[d] empty in those lanes and LD one higher; the value is the rank of the bit, with bit 31 set where it is clear, or the position of the bit
that the binary search finds, all ones where there is none; it lands in v[d], full, and the last lane sends the entry on. That the values are
fixed at issue is the model's choice (log 16). -/
def Sys2Proof.Say.BitmapWords : Prop :=
  (∀ (s s1 : State) (h g base p pol : Nat) (hd : List Byte), s.readLine h g base 8 pol = (.ok hd, s1) →
    (512 * field hd 0 4 ≤ p → s.bmRank h g base p pol = (.ok 0xFFFFFFFF, s1)) ∧
    ∀ (u : List Byte) (s2 : State), p < 512 * field hd 0 4 →
      s1.readLine h g ((base + 128 * (1 + p / 512)) % 2 ^ 64) 68 pol = (.ok u, s2) → s.bmRank h g base p pol =
        (.ok (BitVec.ofNat 32 (field u 64 4 + rankIn (field u 0 64) (p % 512)) |||
          (if (field u 0 64).testBit (p % 512) = true then 0 else 0x80000000)), s2)) ∧
  (∀ (s s1 : State) (h g base n pol : Nat) (hd : List Byte), s.readLine h g base 8 pol = (.ok hd, s1) →
    (field hd 4 4 ≤ n ∨ field hd 0 4 = 0 → s.bmSel h g base n pol = (.ok 0xFFFFFFFF, s1)) ∧
    ∀ (j : Nat) (u : List Byte) (s2 s3 : State), n < field hd 4 4 → 0 < field hd 0 4 →
      Search h g base n pol 0 (field hd 0 4 - 1) s1 j s2 →
      s2.readLine h g ((base + 128 * (1 + j)) % 2 ^ 64) 68 pol = (.ok u, s3) →
      (n < field u 64 4 → s.bmSel h g base n pol = (.ok 0xFFFFFFFF, s3)) ∧
      (field u 64 4 ≤ n → (∀ q, q < 512 → (field u 0 64).testBit q = true → rankIn (field u 0 64) q ≠ n - field u 64 4) →
        s.bmSel h g base n pol = (.ok 0xFFFFFFFF, s3)) ∧
      ∀ q, field u 64 4 ≤ n → q < 512 → (field u 0 64).testBit q = true → rankIn (field u 0 64) q = n - field u 64 4 →
        s.bmSel h g base n pol = (.ok (BitVec.ofNat 32 (512 * j + q)), s3)) ∧
  (∀ (s : State) (op lane word h g p : Nat) (t : Task) (x : LoadOp) (l : LoadLane) (v : Word), s.task h = some t →
    s.loads.find? (fun y => y.id == op) = some x → x.owner = .gang h g → x.uniform = false → lane < 32 →
    x.lanes.find? (fun y => y.lane == lane && !y.landed) = some l → x.fixed.find? (fun q => q.1 == lane) = some (lane, some v) →
    l.dst = [p] → ∃ s' t', exec (.loadDataLands op ⟨lane, word⟩) s = .next s' ∧ s'.task h = some t' ∧ s'.mem = s.mem ∧
      AList.get 0 ((t'.gang g).thread lane).stack p = v ∧ AList.get .full ((t'.gang g).thread lane).rstate p = .full ∧
      ∀ e, (∀ m ∈ x.lanes, (m.lane = lane ∨ m.landed = true) ∧ m.poisoned = false) →
        (t.gang g).frontier.filter (fun y => y.st == .stall (.load op)) = [e] → e.mask ≠ 0 → e.pc.toNat % 8192 ≠ 0x1FFC →
        readyAt (e.pc + 4) e.pri e.mask ∈ (t'.gang g).frontier) ∧
  ∀ (w : LM) (sel : Bool) (s : State) (h g : Nat) (e : Entry) (t : Task) (act : LaneMask) (vs : List (Nat × Word)) (s1 : State),
    IssuesFreely s h g e t → act = (t.gang g).active e.mask w.g.toNat → act ≠ 0 → (t.gang g).counters.ld < 63 →
    w.a.toNat < 28 → w.d.toNat < 28 → Good t.variant.depth (t.gang g) act w.a.toNat → Full t.variant.depth (t.gang g) act w.d.toNat →
    (s.spair (.gang h g) w.sb.toNat) % 128 = 0 →
    (begun s h g).bmLanes (fun u i => if sel
        then u.bmSel h g (s.spair (.gang h g) w.sb.toNat) (((t.gang g).thread i).reg t.variant.depth w.a.toNat).toNat w.pol.toNat
        else u.bmRank h g (s.spair (.gang h g) w.sb.toNat) (((t.gang g).thread i).reg t.variant.depth w.a.toNat).toNat w.pol.toNat)
      (lanesOf act) = (vs.map (fun p => (p.1, .ok p.2)), s1) →
    ∃ s' t' op, exec (if sel then .bmsel w else .bmrank w) s = .next s' ∧ s'.task h = some t' ∧
      s'.loads = s1.loads ++ [op] ∧ op.fixed = vs.map (fun p => (p.1, some p.2)) ∧ op.owner = .gang h g ∧
      (t'.gang g).frontier = (t.gang g).frontier ++ [{ e with st := .stall (.load op.id) }] ∧
      (∀ j, laneOf act j → ((t'.gang g).thread j).regState t.variant.depth w.d.toNat = .empty) ∧
      (t'.gang g).counters.ld = (t.gang g).counters.ld + 1

/-- WAITA of one lane at core scope: while the word it reads equals v[d] the lane waits at a monitor on its line, else it goes on
with an acquire; MONITOR_WAKE makes the waiting entry ready at its word and frees the monitor. -/
def Sys2Proof.Say.MonitoredWait : Prop :=
  (∀ (w : LMS) (s : State) (h g i : Nat) (e : Entry) (t : Task) (leaf va : Nat) (v : Word), IssuesFreely s h g e t →
    i < 32 → e.mask = laneBit i → w.g = 0 → w.scope.toNat ≤ 2 → e.st = .ready → w.a.toNat < 28 → w.d.toNat < 28 →
    Good t.variant.depth (t.gang g) e.mask w.a.toNat → Good t.variant.depth (t.gang g) e.mask w.d.toNat →
    va = gea t.variant.depth (t.gang g) e w.sb w.a i → Mapped s h va 4 4 .read leaf → (s.core (hCore h)).l1Line t.ctx va = none →
    s.accessMode leaf (leafPa leaf va) 0 false = 2 → isBank (leafPa leaf va) = false →
    s.loads = [] → s.writes = [] → s.atoms = [] → (∀ k, k < 4 → s.aliasAt (leafPa leaf va + k) = none) → s.awake (leafPa leaf va) = true →
    (∀ k, k < 4 → AList.get false s.memPoison ((leafPa leaf va + k) / 4) = false) →
    v = BitVec.ofNat 32 (Memory.readNat s.mem (leafPa leaf va) 4) →
    (v = ((t.gang g).thread i).reg t.variant.depth w.d.toNat → (s.core (hCore h)).monitors.length < 16 →
      ∃ s', exec (.waita w) s = .next s' ∧
        (s'.gang h g).frontier = (t.gang g).frontier ++ [{ e with st := .monitor true, qkeep := [] }] ∧
        (s'.core (hCore h)).monitors = (s.core (hCore h)).monitors ++
          [{ h := h, g := g, mask := e.mask, point := 0, pline := leafPa leaf va / 128 }]) ∧
    (v ≠ ((t.gang g).thread i).reg t.variant.depth w.d.toNat → s.remotes = [] →
      ∃ s' t', exec (.waita w) s = .next s' ∧ s'.task h = some t' ∧ wentOn t t' g e)) ∧
  ∀ (s : State) (h g lane : Nat) (armed : Bool) (e : Entry) (t : Task), s.task h = some t →
    (t.gang g).frontier.find? (fun x => x.st == .monitor armed && x.mask.getLsbD lane) = some e →
    ∃ s' t', exec (if armed then .monitorWake h g lane else .monitorRetryTimer h g lane) s = .next s' ∧ s'.task h = some t' ∧
      (t'.gang g).frontier = (t.gang g).frontier.map (fun x => if x = e then { x with st := .ready } else x) ∧
      (s'.core (hCore h)).monitors = (s.core (hCore h)).monitors.filter fun m => !(m.h == h && m.g == g && m.mask == e.mask)

/-! ## Barriers -/

namespace Sys2Proof.Say

/-- The barrier a word names: its immediate, or register a of the lowest active lane (07 R149). -/
def BarNumber (w : LBar) (t : Task) (g : Nat) (act : LaneMask) (b : Nat) : Prop :=
  (w.imm ≠ 0xFF ∧ b = w.imm.toNat) ∨
  (w.imm = 0xFF ∧ w.a.toNat < 28 ∧ Good t.variant.depth (t.gang g) (laneBit (lowestLane act)) w.a.toNat ∧
    b = (((t.gang g).thread (lowestLane act)).reg t.variant.depth w.a.toNat).toNat)

/-- Lanes of a gang that are members of a barrier, and those that have arrived. -/
def members (t : Task) (b g : Nat) : LaneMask := AList.get 0 (t.barrier b).members g
def arrived (t : Task) (b g : Nat) : LaneMask := AList.get 0 (t.barrier b).arrived g

/-- The sets of barrier `b` for gang `g` become these; those of every other gang and barrier stand. -/
def SetsBecome (t t' : Task) (b g : Nat) (m a : LaneMask) : Prop :=
  members t' b g = m ∧ arrived t' b g = a ∧
  ∀ b' g', (b' ≠ b ∨ g' ≠ g) → members t' b' g' = members t b' g' ∧ arrived t' b' g' = arrived t b' g'

/-- Some member lane has not arrived, lanes `act` of gang `g` aside. -/
def StillOut (t : Task) (b g : Nat) (act : LaneMask) : Prop :=
  ∃ g' i, i < 32 ∧ (members t b g').getLsbD i = true ∧ (arrived t b g').getLsbD i = false ∧ ¬ (g' = g ∧ act.getLsbD i = true)

/-- The entry of the lanes left over. -/
def restEntry (e : Entry) (act : LaneMask) : List Entry :=
  if e.mask &&& ~~~act = 0 then [] else [readyAt (e.pc + 4) e.pri (e.mask &&& ~~~act)]

/-- A barrier word is issued on a barrier that its task has. -/
structure OnBarrier (w : LBar) (s : State) (h g : Nat) (e : Entry) (t : Task) (act : LaneMask) (b : Nat) : Prop
    extends IssuesInside s h g e t where
  active : act = (t.gang g).active e.mask w.g.toNat
  nonzero : act ≠ 0
  number : BarNumber w t g act b
  has : b < t.variant.nbar
  state : e.st = .ready

end Sys2Proof.Say

/-- JOIN adds the active lanes to the members, LEAVE takes them out of both sets, BARA adds them to the arrivals (each goes on), and
BARW and BARS make the arrived lanes wait, as long as the phase is not complete. -/
def Sys2Proof.Say.BarrierWords : Prop :=
  ∀ (w : LBar) (s : State) (h g : Nat) (e : Entry) (t : Task) (act : LaneMask) (b : Nat), OnBarrier w s h g e t act b →
    ((∃ i, laneOf act i ∧ (arrived t b g).getLsbD i = false) → ∃ s' t', exec (.join w) s = .next s' ∧ s'.task h = some t' ∧
      wentOn t t' g e ∧ SetsBecome t t' b g (members t b g ||| act) (arrived t b g) ∧ s' = { s with cur := none, tasks := s'.tasks }) ∧
    (StillOut t b g act → ∃ s' t', exec (.leave w) s = .next s' ∧ s'.task h = some t' ∧ wentOn t t' g e ∧
      SetsBecome t t' b g (members t b g &&& ~~~act) (arrived t b g &&& ~~~act) ∧ s' = { s with cur := none, tasks := s'.tasks }) ∧
    (StillOut t b g act → act &&& ~~~members t b g = 0 → act &&& arrived t b g = 0 →
      s.arrivalDone (.gang h g) (if t.isSpanBarrier b then 4 else 2) s.nextId = true →
      (∃ s' t', exec (.bara w) s = .next s' ∧ s'.task h = some t' ∧ wentOn t t' g e ∧
        SetsBecome t t' b g (members t b g) (arrived t b g ||| act) ∧ s' = { s with cur := none, tasks := s'.tasks }) ∧
      ∃ s' t', exec (.bars w) s = .next s' ∧ s'.task h = some t' ∧
        (t'.gang g).frontier = (t.gang g).frontier ++ [{ e with mask := act, st := .barrier b, qkeep := [] }] ++ restEntry e act ∧
        SetsBecome t t' b g (members t b g) (arrived t b g ||| act) ∧ s' = { s with cur := none, tasks := s'.tasks }) ∧
    (act &&& arrived t b g ≠ 0 → ∃ s' t', exec (.barw w) s = .next s' ∧ s'.task h = some t' ∧
      (t'.gang g).frontier = (t.gang g).frontier ++ [{ e with mask := act &&& arrived t b g, st := .barrier b, qkeep := [] }] ++
        restEntry e (act &&& arrived t b g) ∧
      SetsBecome t t' b g (members t b g) (arrived t b g) ∧ s' = { s with cur := none, tasks := s'.tasks })

/-- A barrier the task does not have: cause 3 for every barrier word. An arrival of a lane that is no member: cause 1; of one that
has arrived: cause 2; neither counts as an arrival. -/
def Sys2Proof.Say.BarrierFaults : Prop :=
  (∀ (w : LBar) (s : State) (h g : Nat) (e : Entry) (t : Task) (act : LaneMask) (b : Nat), Issues s h g e t →
    act = (t.gang g).active e.mask w.g.toNat → act ≠ 0 → e.st = .ready → BarNumber w t g act b → t.variant.nbar ≤ b →
    ∀ i ∈ [Instr.join w, .leave w, .bara w, .barw w, .bars w],
      exec i s = .next (restGoes ((begun s h g).raise h g (.lane 11 e.pc act 3 b) { e with mask := act }) h g e act)) ∧
  ∀ (w : LBar) (s : State) (h g : Nat) (e : Entry) (t : Task) (act : LaneMask) (b : Nat), OnBarrier w s h g e t act b →
    (t.gang g).record.busy = false → s.arrivalDone (.gang h g) (if t.isSpanBarrier b then 4 else 2) s.nextId = true →
    (∃ g' i, i < 32 ∧ (members t b g').getLsbD i = true ∧ (arrived t b g').getLsbD i = false ∧ g' ≠ g) →
    ∀ (c : Nat) (i : Instr), i = .bara w ∨ i = .bars w →
      (c = 1 ∧ act &&& members t b g = 0) ∨ (c = 2 ∧ act &&& ~~~(members t b g &&& arrived t b g) = 0) →
      ∃ s' t', exec i s = .next s' ∧ s'.task h = some t' ∧ (t'.gang g).record.kind = 11 ∧
        (t'.gang g).record.detail = BitVec.ofNat 32 c ∧ (t'.gang g).record.mask = act ∧ (t'.gang g).record.addr = BitVec.ofNat 64 b ∧
        SetsBecome t t' b g (members t b g) (arrived t b g)

/-- The arrival that makes the arrivals the member set of every task that shares the barrier, with the expected credits there:
the arrivals are cleared, the credits used, and no entry waits any more; with no load under way the waiting entries are ready past
their words. -/
def Sys2Proof.Say.BarrierPhaseCompletes : Prop :=
  ∀ (w : LBar) (s : State) (h g : Nat) (e : Entry) (t c : Task) (act : LaneMask) (b : Nat) (i : Instr), OnBarrier w s h g e t act b →
    (i = .bara w ∨ i = .bars w) → act &&& ~~~members t b g = 0 → act &&& arrived t b g = 0 → g < t.gangCount →
    s.arrivalDone (.gang h g) (if t.isSpanBarrier b then 4 else 2) s.nextId = true →
    AList.modify 0 (t.barrier b).arrived g (· ||| act) = (t.barrier b).members →
    (∀ m ∈ s.mates h b, ∀ u, s.task m = some u → m ≠ h → (u.barrier b).arrived = (u.barrier b).members) →
    s.task (s.creditHome h b) = some c → (c.barrier b).x ≤ (c.barrier b).y → s.loads = [] → s.remotes = [] →
    ∃ s' c', exec i s = .next s' ∧ s'.task (s.creditHome h b) = some c' ∧ (c'.barrier b).y = (c.barrier b).y - (c.barrier b).x ∧
      ∀ m ∈ s.mates h b, ∀ u, s.task m = some u → ∃ u', s'.task m = some u' ∧ (u'.barrier b).arrived = [] ∧
        (u'.barrier b).members = (u.barrier b).members ∧
        (∀ g', g' < u.gangCount → ∀ x ∈ (u'.gang g').frontier, x.st ≠ .barrier b) ∧
        ∀ g', g' < u.gangCount → ∀ x ∈ (u.gang g').frontier, x.st = .barrier b → x.mask ≠ 0 → x.pc.toNat % 8192 ≠ 0x1FFC →
          readyAt (x.pc + 4) x.pri x.mask ∈ (u'.gang g').frontier

/-! ## Accumulators -/

namespace Sys2Proof.Say

/-- The operands of a lane word that writes no register. -/
def readsRow (guard : BitVec 3) (srcs : List (Nat × Bool)) (held : Option Nat) : LaneRow :=
  { guard := guard.toNat, srcs := srcs, keeps := none, held := held, result := .preds }

def rkpushRow (w : LRk) : LaneRow :=
  readsRow w.g [(w.a.toNat, w.ea), (w.b.toNat, w.eb)] (if w.h then some w.a.toNat else none)
def acaddRow (w : LAcadd) : LaneRow := readsRow w.g [(w.a.toNat, w.ea)] (if w.h then some w.a.toNat else none)

/-- RKTEST against accumulator `r`: can_enter of the normalised value. -/
def rktestRow (w : LRktest) (r : RankAcc) : LaneRow :=
  { guard := w.g.toNat, srcs := [(w.a.toNat, false), (w.b.toNat, false)], keeps := none, held := none,
    result := .pred w.pd.toNat w.comb fun _ x y => (r.canEnter (r.norm x, y), 0) }

/-- Operands taken: the port popped, source a held. -/
def taken (k : Taken) (s : State) (h g : Nat) (t : Task) (r : LaneRow) (act : LaneMask) : State :=
  (k.popped (issued s) h t).modGang h g fun a => a.hold r.held act

/-- An accumulator declared afresh, without poison. -/
def declared (n : Nat) (a : Acc) (gg : Gang) : Gang := { gg.setAcc n a with accPoison := AList.set false gg.accPoison n false }

/-- A uniform accumulator word that runs: true guard, no insertion under way. -/
structure AccIssues (c : BitVec 3) (s : State) (h g : Nat) (e : Entry) (t : Task) : Prop extends Issues s h g e t where
  guard : (t.gang g).cbit c.toNat = true
  idle : (t.gang g).inserter = []

/-- Accumulator words by number, with the words that need a RANK accumulator. -/
def accumulatorOf : Instr → Option (BitVec 3 × Nat × Bool)
  | .acclr w => some (w.c, w.acc.toNat, false)
  | .acst w => some (w.c, w.acc.toNat, false)
  | .acrd w => some (w.c, w.acc.toNat, false)
  | .acmrg w => some (w.c, w.acc.toNat, true)
  | .acraise w => some (w.c, w.acc.toNat, true)
  | .accmp w => some (w.c, w.acc.toNat, true)
  | _ => none

/-- A list in rank order that holds no NaN. -/
def Ranked (r : RankAcc) : Prop :=
  r.list.length ≤ r.k ∧ (∀ p ∈ r.list, r.nan p.1 = false) ∧ r.list.Pairwise fun p q => r.above q p = false

end Sys2Proof.Say

/-- ACDECL, ACCLR: a declared accumulator is empty. RKPUSH counts NaN lanes and sends the others, gated where FGATE asks for it, to the
inserter, which takes eight a time; RKTEST combines can_enter into a predicate; ACADD adds in each active lane. -/
def Sys2Proof.Say.AccumulatorWords : Prop :=
  (∀ (w : UAcdecl) (s : State) (h g : Nat) (e : Entry) (t : Task), AccIssues w.c s h g e t →
    exec (.acdeclSum w) s = .next (goesOn ((issued s).modGang h g (declared w.acc.toNat (.sum []))) h g e) ∧
    exec (.acdeclRank w) s = .next (goesOn ((issued s).modGang h g (declared w.acc.toNat
      (.rank ⟨w.k.toNat + 1, w.key, w.order, w.fgate, [], none, 0⟩))) h g e)) ∧
  (∀ (w : UAcc) (s : State) (h g : Nat) (e : Entry) (t : Task), AccIssues w.c s h g e t →
    (∀ v, (t.gang g).accum w.acc.toNat = .sum v →
      exec (.acclr w) s = .next (goesOn ((issued s).modGang h g (declared w.acc.toNat (.sum []))) h g e)) ∧
    ∀ r, (t.gang g).accum w.acc.toNat = .rank r → exec (.acclr w) s = .next (goesOn ((issued s).modGang h g
      (declared w.acc.toNat (.rank { r with list := [], bound := none, nans := 0 }))) h g e)) ∧
  (∀ (w : LRk) (s : State) (h g : Nat) (e : Entry) (t : Task) (k : Taken) (act : LaneMask) (r : RankAcc) (ps : List (Word × Word)),
    Issues s h g e t → act = (t.gang g).active e.mask w.g.toNat → (rkpushRow w).Takes t g e act k →
    (t.gang g).accum w.acc.toNat = .rank r →
    ps = (lanesOf act).map (fun i => (k.value t.variant.depth (t.gang g) w.a.toNat i, k.value t.variant.depth (t.gang g) w.b.toNat i)) →
    exec (.rkpush w) s = .next (goesOn ((taken k s h g t (rkpushRow w) act).modGang h g fun gg =>
      (gg.setAcc w.acc.toNat (.rank { r with nans := min 4095 (r.nans + ps.countP fun p => r.nan p.1) })).sendCands w.acc.toNat
        (ps.filter fun p => !r.nan p.1 && (!r.fgate || r.canEnter p))) h g e)) ∧
  (∀ (s : State) (h g : Nat) (t : Task) (x : Insertion) (rest : List Insertion) (r : RankAcc), s.task h = some t →
    (t.gang g).inserter = x :: rest → (t.gang g).accum x.acc = .rank r →
    ∃ s' t', exec (.inserterInsertion h g) s = .next s' ∧ s'.task h = some t' ∧
      (t'.gang g).accum x.acc = .rank ((x.cands.take 8).foldl RankAcc.insert r) ∧
      (t'.gang g).inserter = (if x.cands.length ≤ 8 then rest else { x with cands := x.cands.drop 8 } :: rest) ∧
      ∀ n, n ≠ x.acc → (t'.gang g).accum n = (t.gang g).accum n) ∧
  (∀ (w : LRktest) (s : State) (h g : Nat) (e : Entry) (t : Task) (k : Taken) (r : RankAcc), Issues s h g e t →
    (t.gang g).inserter = [] → (t.gang g).accum w.acc.toNat = .rank r → (t.gang g).accBad w.acc.toNat = false →
    (rktestRow w r).Takes t g e ((t.gang g).active e.mask w.g.toNat) k →
    exec (.rktest w) s = .next (goesOn ((rktestRow w r).compute (k.popped (issued s) h t) h g t
      ((t.gang g).active e.mask w.g.toNat) ((t.gang g).active e.mask w.g.toNat) k) h g e)) ∧
  ∀ (w : LAcadd) (s : State) (h g : Nat) (e : Entry) (t : Task) (k : Taken) (act : LaneMask) (v : AList Word), Issues s h g e t →
    act = (t.gang g).active e.mask w.g.toNat → (acaddRow w).Takes t g e act k → (t.gang g).accum w.acc.toNat = .sum v →
    ∃ s' t' v', exec (.acadd w) s = .next (goesOn s' h g e) ∧ s'.task h = some t' ∧ (t'.gang g).accum w.acc.toNat = .sum v' ∧
      (∀ i, AList.get 0 v' i = if i < 32 ∧ act.getLsbD i = true
        then (f32Add (AList.get 0 v i) (k.value t.variant.depth (t.gang g) w.a.toNat i)).1 else AList.get 0 v i) ∧
      (∀ i, i < 32 → ((t'.gang g).thread i).fpflags = ((t.gang g).thread i).fpflags ||| (if act.getLsbD i = true
        then (f32Add (AList.get 0 v i) (k.value t.variant.depth (t.gang g) w.a.toNat i)).2 else 0)) ∧
      ∀ i, ((t'.gang g).thread i).stack = ((t.gang g).thread i).stack

/-- ACRAISE raises the bound and drops what is worse; ACCMP compares with the floor; ACRD reads an element or the header pair; ACST
stores the accumulator as one store; ACMRG offers the pairs of a stored list it has read. -/
def Sys2Proof.Say.AccumulatorReadsAndStores : Prop :=
  (∀ (w : UAccA) (s : State) (h g : Nat) (e : Entry) (t : Task) (r : RankAcc), AccIssues w.c s h g e t →
    (t.gang g).accum w.acc.toNat = .rank r → exec (.acraise w) s = .next (goesOn ((issued s).modGang h g fun gg =>
      gg.setAcc w.acc.toNat (.rank (r.raise ((t.gang g).sreg w.a.toNat)))) h g e)) ∧
  (∀ (w : UAccmp) (s : State) (h g : Nat) (e : Entry) (t : Task) (r : RankAcc) (v : Word), AccIssues w.c s h g e t →
    (t.gang g).accum w.acc.toNat = .rank r → (t.gang g).accBad w.acc.toNat = false → v = (t.gang g).sreg w.a.toNat →
    exec (.accmp w) s = .next (goesOn ((issued s).modGang h g fun gg => gg.setC w.m.toNat
      (if r.floor = none ∨ r.nan v = true then true else !r.better (r.floor.getD 0) v)) h g e)) ∧
  (∀ (w : UAcrd) (s : State) (h g : Nat) (e : Entry) (t : Task) (i x y : Word), AccIssues w.c s h g e t →
    (t.gang g).accBad w.acc.toNat = false → i = (t.gang g).sreg w.a.toNat →
    ((∃ v, (t.gang g).accum w.acc.toNat = .sum v ∧ i.toNat < 32 ∧ x = AList.get 0 v i.toNat ∧ y = 0) ∨
      (∃ r, (t.gang g).accum w.acc.toNat = .rank r ∧ i = BitVec.allOnes 32 ∧ x = r.header ∧ y = r.floor.getD 0) ∨
      ∃ r, (t.gang g).accum w.acc.toNat = .rank r ∧ i ≠ BitVec.allOnes 32 ∧ r.list[i.toNat]? = some (x, y)) →
    exec (.acrd w) s = .next (goesOn ((issued s).modGang h g fun gg => (gg.setS w.d.toNat x).setS (w.d.toNat + 1) y) h g e)) ∧
  (∀ (w : UAccA) (s : State) (h g : Nat) (e : Entry) (t : Task) (a : Acc) (ds : List (List Byte)) (va : Nat) (leaf : Nat → Nat),
    AccIssues w.c s h g e t → e.pc.toNat % 8192 ≠ 0x1FFC → h < 3072 → s.heldBack (.gang h g) = false → (t.gang g).counters.st < 63 →
    (t.gang g).accum w.acc.toNat = a → a ≠ .undeclared → (t.gang g).accBad w.acc.toNat = false →
    va = s.spair (.gang h g) w.a.toNat →
    ds = (match a with
      | .rank r => (leBytes 4 r.header.toNat ++ leBytes 4 (r.floor.getD 0).toNat) ::
          r.list.map fun p => leBytes 4 p.1.toNat ++ leBytes 4 p.2.toNat
      | .sum v => (List.range 16).map fun j => leBytes 4 (AList.get 0 v (2 * j)).toNat ++ leBytes 4 (AList.get 0 v (2 * j + 1)).toNat
      | .undeclared => []) →
    (∀ j, j < ds.length → Mapped s h ((va + 8 * j) % 2 ^ 64) 8 8 .write (leaf j)) →
    ∃ s' t' op, exec (.acst w) s = .next s' ∧ s'.task h = some t' ∧ wentOn t t' g e ∧ s'.writes = s.writes ++ [op] ∧
      op.owner = .gang h g ∧ (op.lanes.map fun l => (l.pa, l.data)) =
        (List.range ds.length).map (fun j => (leafPa (leaf j) ((va + 8 * j) % 2 ^ 64), ds.getD j [])) ∧
      (t'.gang g).counters.st = (t.gang g).counters.st + 1 ∧ (t'.gang g).accum w.acc.toNat = a ∧ s'.mem = s.mem) ∧
  (∀ (w : UAccA) (s s1 s2 : State) (h g va : Nat) (e : Entry) (t : Task) (r : RankAcc) (hd : Word × Word) (ps : List (Word × Word)),
    AccIssues w.c s h g e t → s.heldBack (.gang h g) = false → (t.gang g).accum w.acc.toNat = .rank r →
    va = s.spair (.gang h g) w.a.toNat → (issued s).readPair h g va = (.ok hd, s1) → badHeader hd.1 hd.2 = false →
    hd.1.getLsbD 16 = r.int32 → hd.1.getLsbD 17 = r.smallest →
    s1.readPairs h g (va + 8) (hd.1.toNat % 128) = (.ok ps, s2) →
    exec (.acmrg w) s = .next (goesOn (s2.modGang h g fun gg => gg.merge w.acc.toNat r hd.1 hd.2 ps) h g e)) ∧
  ∀ i c n rank, accumulatorOf i = some (c, n, rank) → ∀ (s : State) (h g : Nat) (e : Entry) (t : Task), AccIssues c s h g e t →
    ((t.gang g).accum n = .undeclared → exec i s = .next ((issued s).raise h g (.uniform 4 e.pc e.mask (256 + 30) n) e)) ∧
    (rank = true → ∀ v, (t.gang g).accum n = .sum v →
      exec i s = .next ((issued s).raise h g (.uniform 4 e.pc e.mask (256 + 31) n) e))

/-- An insertion keeps a RANK list in rank order and within k; every pair it drops, or does not take, ranks no higher than any that
stays, and a pair that can enter does. -/
def Obligations.RankListKeepsTheBest : Prop :=
  ∀ (r : RankAcc) (p q : Word × Word), Ranked r → 0 < r.k → q = (r.norm p.1, p.2) →
    Ranked (r.insert p) ∧ (∀ x ∈ (r.insert p).list, x = q ∨ x ∈ r.list) ∧
    (r.canEnter q = true → q ∈ (r.insert p).list) ∧ (r.canEnter q = false → r.insert p = r) ∧
    (∀ x, (x = q ∧ r.canEnter q = true) ∨ x ∈ r.list → x ∉ (r.insert p).list → ∀ y ∈ (r.insert p).list, r.above x y = false) ∧
    (r.list.length < r.k → r.canEnter q = true → (r.insert p).list.length = r.list.length + 1)

/-! ## Block transfers, chunk tests, notices -/

namespace Sys2Proof.Say

/-- The transfer that a BTCOPY makes. -/
def newTransfer (id h g : Nat) (e : Entry) (d : XDesc) : Transfer :=
  { id := id, cluster := hCluster h, h := h, g := g, pc := e.pc, mask := e.mask, src := .desc d, committed := 0, spec := 0, next := 0, marked := [],
    flight := [], st := .queued, pageAddr := 0, pageDetail := 0 }

/-- A class count of a gang falls by one. -/
def lowered (s : State) (h g cls : Nat) : State :=
  s.modGang h g fun gg => { gg with counters := gg.counters.map cls (· - 1) }

/-- The lowest chunk that is not marked. -/
def lowestUnmarked (n : Nat) (marked : List Nat) : Nat := ((List.range n).find? fun c => !marked.contains c).getD n

/-- The transfers left when one ends. -/
def without (l : List Transfer) (t : Nat) : List Transfer := l.filter fun x => x.id != t

/-- Slots of a cluster's engine that its transfers occupy: those running, and those that write their completion. -/
def slotsTaken (s : State) (k : Nat) : Nat :=
  (s.transfers.filter fun y => y.cluster == k && (match y.st with
    | .running => true
    | .completing _ _ => true
    | _ => false)).length

/-- A number names one transfer. -/
def OneTransfer (s : State) (t : Nat) (x : Transfer) : Prop := ∀ y ∈ s.transfers, y.id = t → y = x

/-- A transfer takes the place of the one with its number. -/
def withTransfer (s : State) (t : Nat) (x : Transfer) : State :=
  { s with transfers := s.transfers.map fun y => if y.id = t then x else y }

/-- The bytes of a chunk in flight have been copied: its notice waits for the operations below `upto`. -/
def copied (x : Transfer) (f : Flight) (upto : Nat) : Transfer :=
  { x with flight := x.flight.map fun y => if y = f then { f with sent := some upto } else y }

/-- A chunk in flight is complete and marked: the committed chunk is the lowest that is not. -/
def marked (x : Transfer) (f : Flight) : Transfer :=
  let l := if f.chunk ∈ x.marked then x.marked else f.chunk :: x.marked
  { x with flight := x.flight.erase f, marked := l, committed := lowestUnmarked x.chunks l }

/-- The event of a transfer's fault has been dealt with, or not. -/
def pending (s : State) (t : Nat) : Prop := s.posted (.transfer t) = true

end Sys2Proof.Say

/-- BTCOPY of the producer gang with a good descriptor that passes every check queues a transfer, counts it in BT and goes on; any other
gang's raises PRODUCER. TRANSFER_START starts the oldest where the engine has a slot free. CHUNK_COMPLETE issues chunks, and takes a chunk
in flight as far as it can go: its bytes, then its bits. TRANSFER_COMPLETE writes CWORD and lowers BT. That CHUNK_COMPLETE issues chunks and
takes one as far as it can go is the model's choice (log 36). -/
def Sys2Proof.Say.TransfersRun : Prop :=
  (∀ (w : UA) (s s1 s2 : State) (h g : Nat) (e : Entry) (t : Task) (ds : List Nat) (p : Nat), IssuesFreely s h g e t →
    (t.gang g).cbit w.c.toNat = true → p = s.spair (.gang h g) w.a.toNat →
    (g ≠ t.variant.prod → exec (.btcopy w) s = .next ((issued s).raise h g (.uniform 6 e.pc e.mask (t.variant.prod % 256) 0) e)) ∧
    (g = t.variant.prod → p % 64 = 0 → (t.gang g).counters.bt < 63 → (issued s).readDwords h g p 8 = (.ok ds, s1) → xdescBad ds = none →
      s1.fresh.2.checkTransfer (newTransfer s1.nextId h g e (xdescOf ds)) = (none, s2) →
      exec (.btcopy w) s = .next (goesOn (({ s2 with transfers := s2.transfers ++ [newTransfer s1.nextId h g e (xdescOf ds)] } : State).modGang
        h g fun gg => { gg with counters := gg.counters.map 2 (· + 1) }) h g e))) ∧
  (∀ (s : State) (t : Nat) (x : Transfer) (d : XDesc), s.transfer t = some x → x.src = .desc d → x.st = .queued →
    slotsTaken s x.cluster < 8 →
    (∀ y ∈ s.transfers, y.cluster = x.cluster → y.st = .queued → x.id ≤ y.id) →
    ∃ s', exec (.transferStart t) s = .next s' ∧ s'.transfer t = some { x with st := .running, next := x.committed, flight := [] } ∧
      s' = { s with transfers := s'.transfers } ∧ ∀ u, u ≠ t → s'.transfer u = s.transfer u) ∧
  (∀ (s : State) (t c n : Nat) (x : Transfer), s.transfer t = some x → x.st = .running → c < x.next → (∀ f ∈ x.flight, f.chunk ≠ c) →
    x.next ≤ n → n ≤ x.chunks → x.flight.length + (n - x.next) ≤ 16 →
    ∃ s', exec (.chunkComplete t ⟨c, n⟩) s = .next s' ∧ s'.transfer t = some { x with
        flight := x.flight ++ (List.range (n - x.next)).map (fun j => { chunk := x.next + j, sent := none }), next := n,
        spec := max x.spec n } ∧
      s' = { s with transfers := s'.transfers }) ∧
  (∀ (s s1 s2 : State) (t c : Nat) (x y : Transfer) (f : Flight), s.transfer t = some x → OneTransfer s t x →
    x.st = .running ∨ x.st = .suspended → x.flight.find? (fun f => f.chunk == c) = some f → f.sent = none → c < x.next → x.next ≤ x.spec →
    s.tryChunk x f = .done s1 → s1.transfers = s.transfers → y = copied x f s1.nextId → s2 = withTransfer s1 t y →
    (s2.tryChunk y { f with sent := some s1.nextId } = .wait → exec (.chunkComplete t ⟨c, 0⟩) s = .next s2) ∧
    ∀ s3, s2.tryChunk y { f with sent := some s1.nextId } = .done s3 → s3.transfers = s2.transfers →
      ∃ s', exec (.chunkComplete t ⟨c, 0⟩) s = .next s' ∧ s'.transfer t = some (marked y { f with sent := some s1.nextId }) ∧
        s' = { s3 with transfers := s'.transfers } ∧ ∀ u, u ≠ t → s'.transfer u = s.transfer u) ∧
  ∀ (s s1 s2 s3 : State) (t : Nat) (x y z : Transfer), s.transfer t = some x → OneTransfer s t x → x.st = .running →
    x.committed = x.chunks → x.next = x.chunks → x.flight = [] → y = { x with st := .completing false s.nextId } →
    s1 = withTransfer s t y → s1.engineReleased y s.nextId = true → s1.tryCword y = .done s2 → s2.transfers = s1.transfers →
    z = { x with st := .completing true s2.nextId } → s3 = withTransfer s2 t z → s3.engineReleased z s2.nextId = true →
    exec (.transferComplete t) s = .next (lowered { s3 with transfers := without s3.transfers t } x.h x.g 2)

/-- A chunk in flight of a load into its task's own scratchpad: each part's bytes stand at its near address and, the release at SCOPE
done, the chunk's bit is set in the bitmap. That a chunk's bytes come at one event is the model's choice (log 34). -/
def Sys2Proof.Say.LoadChunkArrives : Prop :=
  ∀ (s s1 : State) (id c b : Nat) (x : Transfer) (f : Flight) (d : XDesc) (t : Task) (l : List (XPiece × List PByte)),
    s.transfer id = some x → OneTransfer s id x → x.src = .desc d → d.store = false → d.mc = [] → d.bmen = true → x.st = .running →
    x.flight.find? (fun f => f.chunk == c) = some f → f.sent = none → c < x.next → x.next ≤ x.spec → s.farAwake x c = true → s.task x.h = some t →
    b = 16 * d.bmap → d.near < 2 ^ 18 → b + 4 * (c / 32) + 4 ≤ t.granules.length * 4096 → t.granules.length ≤ 64 →
    s.loadPieces x (x.pieces c) = (.ok l, s1) → s1.engineReleased x s1.nextId = true →
    (∀ p ∈ l, p.2.length = p.1.n ∧ p.1.near + p.1.n ≤ t.granules.length * 4096 ∧
      (p.1.near + p.1.n ≤ b + 4 * (c / 32) ∨ b + 4 * (c / 32) + 4 ≤ p.1.near)) →
    l.Pairwise (fun p q => p.1.near + p.1.n ≤ q.1.near ∨ q.1.near + q.1.n ≤ p.1.near) →
    ∃ s' t', exec (.chunkComplete id ⟨c, 0⟩) s = .next s' ∧ s'.task x.h = some t' ∧
      (∀ p ∈ l, ∀ j, j < p.1.n → Memory.read t'.scratch (p.1.near + j) = (p.2.getD j (0, false)).1) ∧
      Memory.readNat t'.scratch (b + 4 * (c / 32)) 4 = Memory.readNat t.scratch (b + 4 * (c / 32)) 4 ||| 2 ^ (c % 32) ∧
      (∀ a, (∀ p ∈ l, a < p.1.near ∨ p.1.near + p.1.n ≤ a) → (a < b + 4 * (c / 32) ∨ b + 4 * (c / 32) + 4 ≤ a) →
        Memory.read t'.scratch a = Memory.read t.scratch a)

/-- A PAGE fault suspends a transfer and posts it; resolved, it copies again from its committed chunk; refused, or on any other fault, it
fails: the record of its gang, the BT count, no completion word. A drain that times out stops it. -/
def Sys2Proof.Say.TransferFaults : Prop :=
  (∀ (s : State) (t : Nat) (x : Transfer) (f : XFault), s.transfer t = some x → s.nextFault x = some f →
    (f.kind = 3 → ∃ s', exec (.transferPageFault t) s = .next s' ∧
      s'.transfer t = some { x with st := .suspended, pageAddr := f.addr, pageDetail := f.detail } ∧
      (s'.die (x.cluster / 8)).events = (s.die (x.cluster / 8)).events ++ [.transfer t]) ∧
    (f.kind ≠ 3 → ∃ s', exec (.transferFailed t) s = .next s' ∧ s'.transfers = without s.transfers t ∧
      (∀ k, s.task x.h = some k → (k.gang x.g).record.busy = false →
        (s'.gang x.h x.g).record.kind = f.kind ∧ (s'.gang x.h x.g).record.pc = x.pc ∧ (s'.gang x.h x.g).record.mask = x.mask ∧
        (s'.gang x.h x.g).record.detail = BitVec.ofNat 32 f.detail ∧ (s'.gang x.h x.g).record.addr = BitVec.ofNat 64 f.addr ∧
        (s'.gang x.h x.g).record.commit = x.committed ∧ (s'.gang x.h x.g).record.spec = x.spec ∧
        (s'.gang x.h x.g).counters.bt = (k.gang x.g).counters.bt - 1))) ∧
  (∀ (s : State) (t : Nat) (x : Transfer) (d : XDesc), s.transfer t = some x → x.st = .suspended → ¬ pending s t → x.src = .desc d →
    (s.resident x.h = true → slotsTaken s (hCluster x.h) < 8 → ∃ s', exec (.transferRestart t) s = .next s' ∧
      s'.transfer t = some { x with cluster := hCluster x.h, st := .running, next := x.committed, flight := [] }) ∧
    ∀ k, s.task x.h = some k → (k.gang x.g).record.busy = false → ∃ s', exec (.transferFailed t) s = .next s' ∧
      s'.transfers = without s.transfers t ∧ (s'.gang x.h x.g).record.kind = 3 ∧
      (s'.gang x.h x.g).record.detail = BitVec.ofNat 32 x.pageDetail ∧ (s'.gang x.h x.g).record.addr = BitVec.ofNat 64 x.pageAddr ∧
      (s'.gang x.h x.g).counters.bt = (k.gang x.g).counters.bt - 1) ∧
  ∀ (s : State) (t : Nat) (x : Transfer) (k : Task), s.transfer t = some x → s.task x.h = some k → k.phase = .stopping →
    x.st = .running ∨ x.st = .suspended ∨ x.st = .queued → ∃ s', exec (.transferDrainTimeout t) s = .next s' ∧
      s'.transfer t = some { x with st := .stopped, flight := [] } ∧ s' = { s with transfers := s'.transfers }

/-- BTTEST: whether bits F to F+N-1 of the bitmap are all set, which a true answer makes an acquire at die scope. -/
def Sys2Proof.Say.ChunkTest : Prop :=
  ∀ (w : UCab) (s : State) (h g base f n : Nat) (e : Entry) (t : Task) (r : Bool), IssuesFreely s h g e t →
    (t.gang g).cbit w.c.toNat = true → e.st = .ready → base = ((t.gang g).sreg w.a.toNat).toNat →
    f = ((t.gang g).sreg (w.a.toNat + 1)).toNat → n = ((t.gang g).sreg w.b.toNat).toNat → f + n ≤ 512 → OwnBytes t base 64 4 →
    (r = true ↔ ∀ i, i < n → (Memory.readNat t.scratch (base + 4 * ((f + i) / 32)) 4).testBit ((f + i) % 32) = true) →
    (r = true → s.loadsLanded (.gang h g) s.nextId = true) →
    exec (.bttest w) s = .next (goesOn (if r = true
      then ((issued s).modGang h g fun gg => gg.setC w.cd.toNat true).modCore (hCore h) fun c => { c with l1 := [] }
      else (issued s).modGang h g fun gg => gg.setC w.cd.toNat false) h g e)

/-- BARREM sets the expected credits of a barrier of its own task, a span barrier's where its credits are kept, or sends a notice, counted
in RG, once its release is done; its arrival adds credits to the target's barrier, and its acknowledgement lowers RG; a notice to a barrier
that is not there is refused and raises BARRIER cause 5 at its acknowledgement. That a notice to a span barrier awaits the die scope is the
model's reading (log 87). -/
def Sys2Proof.Say.Notices : Prop :=
  (∀ (w : UA) (s : State) (h g : Nat) (e : Entry) (t : Task) (v : Word), IssuesFreely s h g e t → (t.gang g).cbit w.c.toNat = true →
    e.st = .ready → v = (t.gang g).sreg w.a.toNat → badNotice v.toNat = false →
    (∀ b c, v.getLsbD 16 = true → b = v.toNat % 128 → b < t.variant.nbar → s.task (s.creditHome h b) = some c →
      (t.barrier b).arrived ≠ (t.barrier b).members →
      ∃ s' t' c', exec (.barrem w) s = .next s' ∧ s'.task h = some t' ∧ wentOn t t' g e ∧ s'.task (s.creditHome h b) = some c' ∧
        c'.barrier b = { c.barrier b with x := v.toNat / 256 % 256 }) ∧
    (v.getLsbD 16 = false → (t.gang g).counters.rg < 63 →
      s.arrivalDone (.gang h g) (s.noticeScope h v.toNat) (s.upto e) = true →
      ∃ s' t' x, exec (.barrem w) s = .next s' ∧ s'.task h = some t' ∧ wentOn t t' g e ∧ s'.notices = s.notices ++ [x] ∧
        x.owner = .gang h g ∧ x.operand = v ∧ x.arrived = false ∧ x.acked = false ∧ x.id = s.nextId ∧
        (t'.gang g).counters.rg = (t.gang g).counters.rg + 1)) ∧
  (∀ (s : State) (id u b : Nat) (n : Notice) (t : Task), s.notices.find? (fun x => x.id == id && !x.arrived) = some n → n.stream = false →
    s.noticeTarget (s.ownerGang n.owner).1 n.operand.toNat = some u → s.task u = some t → b = n.operand.toNat % 128 →
    t.isSpanBarrier b = false →
    (b < t.variant.nbar → (t.barrier b).arrived ≠ (t.barrier b).members → (t.barrier b).y + n.operand.toNat / 256 % 256 ≤ 65535 →
      ∃ s' t', exec (.barremNoticeArrival id) s = .next s' ∧ s'.task u = some t' ∧
        (t'.barrier b).y = (t.barrier b).y + n.operand.toNat / 256 % 256 ∧ (t'.barrier b).arrived = (t.barrier b).arrived ∧
        ∀ x ∈ s'.notices, x.id = id → x.arrived = true ∧ x.acked = true) ∧
    (t.variant.nbar ≤ b → ∃ s', exec (.barremNoticeArrival id) s = .next s' ∧ s'.tasks = s.tasks ∧
      ∀ x ∈ s'.notices, x.id = id → x.acked = true ∧ x.refused = true)) ∧
  ∀ (s : State) (id h g : Nat) (n : Notice) (t : Task), s.notices.find? (fun x => x.id == id && x.acked && s.ownerHere x.owner) = some n →
    n.owner = .gang h g → n.stream = false → n.counts = true → s.task h = some t → (t.gang g).record.busy = false →
    ∃ s', exec (.noticeAcknowledged id) s = .next s' ∧ s'.notices = s.notices.filter (fun x => x.id != id) ∧
      (s'.gang h g).counters.rg = (t.gang g).counters.rg - 1 ∧
      (s'.gang h g).record = (if n.refused = true then s.recordOf h g (.uniform 11 n.pc n.mask 5 n.operand.toNat) else (t.gang g).record)

/-! ## Launches and tasks -/

/-- LAUNCH takes a free join slot, whose token it writes to s[d] and its task keeps, and submits its packet to the die's launch unit;
with no slot free it waits, and in a context that has been torn down it is discarded. JOINL answers the child's status, an acquire for
codes 1, 2 and 4, waits for a child under way, and answers code 6 for a token that is not one. -/
def Obligations.LaunchAndJoin : Prop :=
  (∀ (w : UDA) (s s1 : State) (h g p i : Nat) (e : Entry) (t : Task) (c : Context) (ds : List Nat), IssuesFreely s h g e t →
    (t.gang g).cbit w.c.toNat = true → p = s.spair (.gang h g) w.a.toNat → p % 64 = 0 →
    e.st = .ready → s.releaseDone (.gang h g) 5 s.nextId = true → (issued s).readDwords h g p 16 = (.ok ds, s1) →
      s1.context t.ctx = some c →
    (c.torn = true → exec (.launch w) s = .next (goesOn s1 h g e)) ∧
    (c.torn = false → c.freeJoin s1.tick = some i → ∃ s' t' tok l c' j, exec (.launch w) s = .next s' ∧ s'.task h = some t' ∧ wentOn t t' g e ∧
      (t'.gang g).sreg w.d.toNat = (if w.d = 0 then 0 else tok) ∧ tok ≠ 0 ∧ tok.toNat % 4096 = i ∧ t'.tokens = tok :: t.tokens ∧
      s'.launch s1.nextLaunch = some l ∧ l.token = some tok ∧ l.ctx = t.ctx ∧ l.packet = packetOf (ds.flatMap (leBytes 8)) ∧
      (l.phase = .accept ∨ (l.phase = .merging ∧ l.packet.kind = 1 ∧ l.packet.nitems = 1 ∧ l.packet.crec = 0)) ∧
      s'.context t.ctx = some c' ∧ AList.get none c'.joins i = some j ∧ j.seq = tok.toNat / 4096 ∧ j.launch = s1.nextLaunch ∧
      j.joined = false ∧ j.status = none) ∧
    (c.torn = false → c.freeJoin s1.tick = none → exec (.launch w) s = .next (s1.putEntry h g
      { e with st := .stall (.joinSlot (packetOf (ds.flatMap (leBytes 8)))) }))) ∧
  ∀ (w : UDA) (s : State) (h g : Nat) (e : Entry) (t : Task) (tok : Word), IssuesInside s h g e t → (t.gang g).cbit w.c.toNat = true →
    e.st = .ready → tok = (t.gang g).sreg w.a.toNat →
    (s.joinOf t.ctx tok = none → exec (.joinl w) s =
      .next (goesOn ((issued s).modGang h g fun gg => gg.setS w.d.toNat 0xFFFF0006) h g e)) ∧
    (∀ j, s.joinOf t.ctx tok = some j → j.status = none →
      exec (.joinl w) s = .next ((issued s).putEntry h g { e with st := .stall (.joinl tok) })) ∧
    ∀ j v, s.joinOf t.ctx tok = some j → j.status = some v → s.loadsLanded (.gang h g) s.nextId = true →
      ∃ s' t', exec (.joinl w) s = .next s' ∧ s'.task h = some t' ∧ wentOn t t' g e ∧
        (t'.gang g).sreg w.d.toNat = (if w.d = 0 then 0 else v) ∧ s'.joinOf t.ctx tok = none ∧
        (s'.core (hCore h)).l1 = (if v.toNat % 16 ∈ [1, 2, 4] then [] else (s.core (hCore h)).l1)

/-- The launch unit: a merge window that closes releases its children; acceptance makes a good packet walk and refuses any other with its
cause; a fault of the walk that is resolved lets it read again from its committed item, a refused one stops it with cause 1. Of several
causes the lowest that can be seen is answered (log 42). -/
def Sys2Proof.Say.LaunchUnit : Prop :=
  (∀ (s : State) (d n : Nat) (w : MergeWindow) (rest : List MergeWindow) (l : Launch), (s.die d).mergeWindows = w :: rest →
    n ∈ w.children → s.launch n = some l → l.phase = .merging →
    ∃ s', exec (.mergeWindowClose d) s = .next s' ∧ s'.launch n = some { l with phase := .accept } ∧ w ∉ (s'.die d).mergeWindows) ∧
  (∀ (s : State) (n : Nat) (l : Launch), s.launch n = some l → l.phase = .accept → s.accepting = true → s.lehr.level ≠ 4 →
    l.variant = none →
    (l.packet.bad l.system = true → ∃ s', exec (.launchAcceptance n) s = .next s' ∧
      s'.launch n = some { l with phase := .done, refusal := 1 } ∧ s' = { s with launches := s'.launches }) ∧
    (∀ s1 s2 f c, s.acceptObject l = (some f, s1) → s1.acceptWork f = (.refuse c, s2) → ∃ s', exec (.launchAcceptance n) s = .next s' ∧
      s'.launch n = (s2.launch n).map fun x => { x with phase := .done, refusal := c }) ∧
    ∀ s1 s2 f l2, s.acceptObject l = (some f, s1) → s1.acceptWork f = (.ok l2, s2) → (s2.launch n).isSome = true →
      ∃ s', exec (.launchAcceptance n) s = .next s' ∧ s'.launch n = some { l2 with phase := .walking } ∧
        s' = { s2 with launches := s'.launches }) ∧
  ∀ (s : State) (n : Nat) (l : Launch), s.launch n = some l → s.walkerPosted n = false →
    (l.phase = .suspended → ∃ s', exec (.walkerResume n) s = .next s' ∧
      s'.launch n = some { l with phase := .walking, spec := l.committed }) ∧
    (l.phase = .acceptSuspended → ∃ s', exec (.walkerResume n) s = .next s' ∧ s'.launch n = some { l with phase := .accept }) ∧
    (l.phase = .suspended ∨ l.phase = .acceptSuspended → ∃ s', exec (.walkerRefused n) s = .next s' ∧
      s'.launch n = some { l with phase := .stopped, wcause := 1 })

/-- The walk: the next record or item is accepted as it is read; the committed tile, or item, is queued as a task at its home and counted,
and a tile of a record that skips makes none. That the speculative position is the greater of the committed one and FIRST + COUNT is the
model's choice (log 43). -/
def Sys2Proof.Say.LaunchWalk : Prop :=
  (∀ (s s1 : State) (n : Nat) (l : Launch) (bs : List Byte), s.launch n = some l → l.phase = .walking →
    (l.recs.any fun r => r.bad) = false →
    (∀ it, l.tensor = none → l.nread < l.packet.nitems →
      s.unitBytes none l.die l.ctx ((l.packet.work + 32 * l.nread) % 2 ^ 64) 32 = (.ok bs, s1) → itemOf l l.nread bs = some it →
      s1.launch n = some l → ∃ s', exec (.walkerAcceptRecord n) s = .next s' ∧
        s'.launch n = some { l with items := l.items ++ [it], nread := l.nread + 1, spec := l.nread + 1 }) ∧
    (∀ t, l.tensor = some t → l.nread < t.nplace → l.nread ≤ l.commitRec + 16 →
      s.homeBytesVa l.ctx ((t.place + 32 * l.nread) % 2 ^ 64) 32 = (.ok bs, s1) → s1.launch n = some l →
      (placementOf bs).gen % 2 = 0 → (placementOf bs).bad = false → l.outOfOrder (placementOf bs) = false →
      ∃ s', exec (.walkerAcceptRecord n) s = .next s' ∧ s'.launch n = some { l with
        recs := l.recs ++ [placementOf bs], nread := l.nread + 1,
        spec := max l.committed ((placementOf bs).first + (placementOf bs).count) })) ∧
  (∀ (s : State) (n : Nat) (l : Launch) (it : Ident), s.launch n = some l → l.phase = .walking → l.tensor = none → l.packet.kind = 1 →
    l.items[l.committed]? = some it → l.packet.lpri < 8 → (s.die (ownerDie it.home)).depth < 65536 →
    ∃ s' l', exec (.walkerCommitTile n) s = .next s' ∧ s'.launch n = some l' ∧ l'.committed = l.committed + 1 ∧
      l'.created = l.created + 1 ∧ l'.phase = (if l.committed + 1 = l.packet.nitems then .done else .walking) ∧
      AList.get [] (s'.die (ownerDie it.home)).homeQ l.packet.lpri =
        AList.get [] (s.die (ownerDie it.home)).homeQ l.packet.lpri ++ [⟨n, l.packet.lpri, it⟩]) ∧
  ∀ (s : State) (n : Nat) (l : Launch) (t : Tensor) (v : Variant) (r : Placement) (c : List Nat), s.launch n = some l →
    l.phase = .walking → l.tensor = some t → l.variant = some v →
    l.goodRecs.find? (fun r => decide (r.first ≤ l.committed) && decide (l.committed < r.first + r.count)) = some r →
    c = (walkOrder t.order t.ndim (tensorGrid t v.bkt)).getD l.committed [] →
    (r.flags.testBit 2 = true → ∃ s' l', exec (.walkerCommitTile n) s = .next s' ∧ s'.launch n = some l' ∧
      l'.committed = l.committed + 1 ∧ l'.skip = l.skip + 1 ∧ l'.created = l.created ∧ s'.dies = s.dies) ∧
    ∀ home, r.flags.testBit 2 = false → home = (if r.flags.testBit 0 = true then s.shortest r.rmask else r.home) →
      (s.die (ownerDie home)).depth < 65536 →
      ∃ s' l', exec (.walkerCommitTile n) s = .next s' ∧ s'.launch n = some l' ∧ l'.committed = l.committed + 1 ∧
        l'.created = l.created + 1 ∧ AList.get [] (s'.die (ownerDie home)).homeQ l.packet.lpri =
          AList.get [] (s.die (ownerDie home)).homeQ l.packet.lpri ++
            [⟨n, l.packet.lpri, placedIdent l.packet t l.committed c home false⟩]

/-- LAUNCH_COMPLETE: once the walk is over, every task has ended and every write made before stands at its home, every L1 line is
discarded, the completion record is written, and the token receives the status; until then the launch waits. That the release waits for
every write of the device, and the record is one event, is the model's reading (log 44). -/
def Sys2Proof.Say.LaunchCompletes : Prop :=
  ∀ (s s0 : State) (n upto : Nat) (l : Launch), s.launch n = some l → l.phase = .done ∨ l.phase = .stopped → l.created = l.ended →
    upto = l.release.getD s.nextId → s0 = s.modLaunch n (fun x => { x with release := some upto }) →
    (s.allHome upto = false → exec (.launchComplete n) s = .next s0) ∧
    (s.allHome upto = true → l.packet.crec = 0 → l.token = none → ∃ s', exec (.launchComplete n) s = .next s' ∧ s'.launch n = none ∧
      (∀ c, (s'.core c).l1 = []) ∧ s'.mem = s.mem) ∧
    (∀ s1 pa leaf, s.allHome upto = true → l.packet.crec ≠ 0 → l.packet.crec % 32 = 0 → l.token = none → s.asleepTable l.ctx = none →
      s0.discardAll.checkWalk l.ctx l.packet.crec 32 .write = (.ok pa leaf, s1) → s1.awake pa = true → s1.guarded pa 32 = none →
      (∀ k, k < 32 → s1.aliasAt (pa + k) = none) →
      ∃ s', exec (.launchComplete n) s = .next s' ∧ s'.launch n = none ∧
        ∀ k, k < 32 → Memory.read s'.mem (pa + k) = (leBytes 4 (l.code + 256 * l.causeByte) ++ leBytes 4 l.run ++ leBytes 4 l.skip ++
          leBytes 4 l.fault ++ leBytes 4 (l.fidx.getD (BitVec.allOnes 32)).toNat ++ leBytes 4 l.committed ++ leBytes 8 0).getD k 0) ∧
    ∀ tok c j, s.allHome upto = true → l.packet.crec = 0 → l.token = some tok → s.context l.ctx = some c →
      AList.get none c.joins (tok.toNat % 4096) = some j → j.seq = tok.toNat / 4096 → j.issuerEnded = false → j.joined = false →
      ∃ s' c', exec (.launchComplete n) s = .next s' ∧ s'.context l.ctx = some c' ∧
        AList.get none c'.joins (tok.toNat % 4096) = some { j with status := some l.joinStatus }

/-- DISPATCH_TASK places the head of a die's queue on a core that takes it; SPAN_PLACEMENT places a span at the head as one; TASK_START
fills s2-s15 of every gang and runs the task; SEGMENT_FETCH_LANDS fills the slot with the segment's words. -/
def Sys2Proof.Say.TasksStart : Prop :=
  (∀ (s : State) (d c : Nat) (q : QTask) (l : Launch) (v : Variant), (s.die d).online = true → d < 4 → s.dieAwake d = true →
    (s.die d).headTask = some q → q.isSpan = false → s.queuedLaunch q = some (l, v) → s.takes d q = some c →
    ∃ s' slot t', exec (.dispatchTask d) s = .next s' ∧ s.task (handleOf c slot) = none ∧ s'.task (handleOf c slot) = some t' ∧
      t'.ident = q.ident ∧ t'.variant = v ∧ t'.ctx = l.ctx ∧ t'.launch = q.launch ∧ t'.phase = .starting ∧
      t'.granules = (s.freeGranules c).take v.gran ∧ s.freeRun c v.blocks = some t'.block0 ∧
      (s'.core c).slotGen = AList.modify 0 (s.core c).slotGen slot (fun g => (g + 1) % 8)) ∧
  (∀ (s : State) (d : Nat) (q : QTask) (l : Launch) (v : Variant) (r : Rect), (s.die d).online = true → d < 4 →
    s.dieAwake d = true → (s.die d).headTask = some q → q.isSpan = true → s.queuedLaunch q = some (l, v) → r ∈ rectangles l.items.length →
    (∀ j, j < r.w * r.h → (s.die d).keeps (r.core d j) q = false ∧
      s.takesMany (r.core d j) q.launch l v q.ident ((l.items.length + r.w * r.h - 1) / (r.w * r.h)) = true) →
    ∃ s' r', exec (.spanPlacement d) s = .next s' ∧ r' ∈ rectangles l.items.length ∧ r'.w * r'.h ≥ r.w * r.h ∧
      s' = (s.modDie d fun x => (x.unqueue q).served q).placeSpan d q.launch l v r') ∧
  (∀ (s s1 : State) (h : Nat) (t : Task) (bs : List Byte), s.task h = some t → t.phase = .starting → t.fate = .alive →
    t.started = false → (t.gang 0).record.busy = false → (t.gang 0).held = [] → (∀ seg ∈ t.needs, s.landed h seg = true) →
    (s.discard (hCore h) (hDie h) 5).unitBytes (some (hCluster h)) (hDie h) t.ctx t.ident.args 48 = (.ok bs, s1) →
    ∃ s' t', exec (.taskStart h) s = .next s' ∧ s'.task h = some t' ∧ t'.phase = .running ∧ t'.started = true ∧
      ∀ g, t.gang g ≠ Gang.absent → (t'.gang g).sreg 2 = BitVec.ofNat 32 t.ident.args ∧
        (t'.gang g).sreg 3 = BitVec.ofNat 32 (t.ident.args / 2 ^ 32) ∧
        (∀ j, j < 12 → (t'.gang g).sreg (4 + j) = BitVec.ofNat 32 (field bs (4 * j) 4)) ∧
        (∀ j, 16 ≤ j → (t'.gang g).sreg j = 0) ∧ (t'.gang g).threads = (t.gang g).threads) ∧
  ∀ (s s1 : State) (n i : Nat) (f : Fetch) (bs : List Byte), s.fetches.find? (fun f => f.id == n && !f.suspended) = some f →
    f.matrix = false → f.slot = some i →
    s.unitBytes (some (clusterOf f.unit)) (clusterOf f.unit / 8) f.ctx f.addr f.len = (.ok bs, s1) → bs.length = f.len →
    ∃ s' x, exec (.segmentFetchLands n) s = .next s' ∧ s'.fetches = s1.fetches.filter (fun y => y.id != n) ∧
      AList.get none (s'.core f.unit).islots i = some x ∧ x.landed = true ∧ x.ctx = f.ctx ∧ x.kobj = f.kobj ∧ x.seg = f.seg ∧
      x.len = f.len ∧ ∀ j, j < f.len / 4 → AList.get 0x7FE00000 x.code j = BitVec.ofNat 32 (field bs (4 * j) 4)

/-- CFETCH: a segment outside the kernel object is SEGMISS; of a landed one it keeps a reference; another's fetch starts, once its entry
and every page of its code pass their checks. -/
def Sys2Proof.Say.SegmentFetch : Prop :=
  ∀ (w : UA) (s : State) (h g seg : Nat) (e : Entry) (t : Task), IssuesFreely s h g e t → (t.gang g).cbit w.c.toNat = true →
    seg = ((t.gang g).sreg w.a.toNat).toNat →
    (s.inObject h seg = false → exec (.cfetch w) s = .next ((issued s).raise h g (.uniform 7 e.pc e.mask 0 seg) e)) ∧
    (s.inObject h seg = true → s.landed h seg = true → ∃ s' t', exec (.cfetch w) s = .next s' ∧ s'.task h = some t' ∧ wentOn t t' g e ∧
      t'.fetchRefs = (t.fetchRefs ++ [seg]).drop (t.fetchRefs.length + 1 - 4) ∧ s'.fetches = s.fetches) ∧
    ∀ s1 s2 ds l, s.inObject h seg = true → s.landed h seg = false → s.launch t.launch = some l →
      (issued s).readDwords h g (l.segEntryVa seg) 2 = (.ok ds, s1) → (segEntryOf ds).bad = false →
      s1.checkCode (hCluster h) t.ctx (segEntryOf ds).addr (segEntryOf ds).len = (none, s2) → s2.fetches = [] →
      s2.slotFor (hCore h) t.ctx l.packet.kobj seg = none →
      ∃ s' t' f, exec (.cfetch w) s = .next s' ∧ s'.task h = some t' ∧ wentOn t t' g e ∧ s'.fetches = [f] ∧
        t'.fetchRefs = (t.fetchRefs ++ [seg]).drop (t.fetchRefs.length + 1 - 4) ∧ f.unit = hCore h ∧ f.matrix = false ∧
        f.ctx = t.ctx ∧ f.kobj = l.packet.kobj ∧ f.seg = seg ∧ f.addr = (segEntryOf ds).addr ∧ f.len = (segEntryOf ds).len

/-! ## Faults, and the end of a task -/

namespace Sys2Proof.Say

/-- A gang's record holds a fault that a handler has taken and not returned from. -/
def Handled (s : State) (h g : Nat) (t : Task) : Prop :=
  s.task h = some t ∧ t.fate = .alive ∧ (t.gang g).record.busy = true ∧ (t.gang g).record.flags.getLsbD 3 = true ∧
    (t.gang g).verdict = none

/-- A PAGE fault of a gang that the scheduler thread has taken up, with lanes or a stream parked until it is resolved. -/
def PageHeld (s : State) (h g : Nat) (t : Task) : Prop :=
  s.task h = some t ∧ t.fate = .alive ∧ (t.gang g).record.busy = true ∧ (t.gang g).record.kind = 3 ∧
    s.pageParked h g = true ∧ s.posted (.fault h g) = false

/-- The task is ending: nothing of it issues, a word already issued alone has its release to complete, and its transfers are gone. -/
def Ending (s' : State) (h : Nat) (f : Fate) : Prop :=
  (∃ u, s'.task h = some u ∧ u.fate = f ∧ u.phase = .ending ∧ ∀ g, ∀ e ∈ (u.gang g).frontier, e.st = .exited ∨ e.st.underway = true) ∧
  ∀ x ∈ s'.transfers, x.h ≠ h

/-- No lanes and no stream of a gang wait to report that they stand past the end of a full segment. -/
def NonePastEnd (s : State) (h g : Nat) : Prop :=
  (∀ e ∈ (s.gang h g).frontier, e.st ≠ .parked .pastEnd) ∧ ∀ x ∈ s.gangStreams h g, x.st ≠ .parked .pastEnd

/-- Entries of a gang. -/
def entries (s : State) (h g : Nat) : List Entry := (s.gang h g).frontier

end Sys2Proof.Say

/-- A fault raised at issue with the record free writes what Table 21-1 says, with bit 0 of FLAGS set, posts an event and parks the lanes
at the word; with the record busy it writes nothing and the lanes park. A fault raised after its word parks none: with the record busy it
is held until the record is free. A freed record makes the words that waited for it ready; the next held fault takes it, else that of lanes
past the end of a full segment. -/
def Obligations.RaisingAFault : Prop :=
  (∀ (s : State) (h g : Nat) (t : Task) (f : FaultInfo) (e : Entry), s.task h = some t → e.mask ≠ 0 →
    ((t.gang g).record.busy = false → ∃ s' t', s' = s.raise h g f e ∧ s'.task h = some t' ∧
      (t'.gang g).record.kind = f.kind ∧ (t'.gang g).record.flags = f.flags ||| 1 ∧ (t'.gang g).record.pc = f.pc ∧
      (t'.gang g).record.mask = f.mask ∧ (t'.gang g).record.detail = BitVec.ofNat 32 f.detail ∧
      (t'.gang g).record.addr = BitVec.ofNat 64 f.addr ∧ (t'.gang g).record.taskid = t.ident.taskid ∧ (t'.gang g).record.gang = g ∧
      (t'.gang g).record.ctx = t.ctx ∧ (∀ l, s.launch t.launch = some l → (t'.gang g).record.crec = l.packet.crec) ∧
      (s'.die (hDie h)).events = (s.die (hDie h)).events ++ [.fault h g] ∧
      (t'.gang g).frontier = (t.gang g).frontier ++
        [{ e with st := .parked (if f.kind = 3 then .page else .fault), qkeep := [], held := none }] ∧
      (t'.gang g).threads = (t.gang g).threads ∧ s'.mem = s.mem) ∧
    ((t.gang g).record.busy = true → s.raise h g f e = s.putEntry h g { e with st := .parked .noRecord })) ∧
  (∀ (s : State) (h g : Nat) (t : Task) (f : FaultInfo), s.task h = some t → ∃ t', (s.raiseLater h g f).task h = some t' ∧
    (t'.gang g).frontier = (t.gang g).frontier ∧
    ((t.gang g).record.busy = false → (t'.gang g).record = s.recordOf h g f) ∧
    ((t.gang g).record.busy = true → (t'.gang g).record = (t.gang g).record ∧ (t'.gang g).held = (t.gang g).held ++ [s.recordOf h g f])) ∧
  ∀ (s : State) (h g : Nat) (t : Task), s.task h = some t → ∃ t', (s.freeRecord h g).task h = some t' ∧
    (∀ e ∈ (t'.gang g).frontier, e.st ≠ .parked .noRecord) ∧
    match (t.gang g).held with
    | r :: rest => (t'.gang g).record = r ∧ (t'.gang g).held = rest
    | [] => (NonePastEnd s h g → (t'.gang g).record.busy = false) ∧
      ∀ e, (t.gang g).frontier.find? (fun e => e.st == .parked .pastEnd) = some e → e.mask ≠ 0 → (t'.gang g).record.busy = true ∧
        (t'.gang g).record.kind = 1 ∧ (t'.gang g).record.pc = e.pc ∧ (t'.gang g).record.mask = e.mask ∧
        (t'.gang g).record.detail = BitVec.ofNat 32 (10 + 256 * s.mapOf h)

/-- FAULT_DISPOSAL hands a kind of the context's mask to its handler, leaves a page fault to its resolution, and ends the task by any
other, whose record stands in the fault log with FLAGS bit 0 clear. A task that has not started is ended by any kind but PAGE and SEGMISS (05
R93). -/
def Sys2Proof.Say.FaultDisposal : Prop :=
  ∀ (s : State) (d h g : Nat) (t : Task) (rest : List SchedEvent), (s.die d).events = .fault h g :: rest → s.hand.st ≠ .adopting →
    s.task h = some t → t.fate = .alive → (t.gang g).record.busy = true →
    ((t.gang g).record.kind = 3 → s.pageParked h g = true →
      exec (.faultDisposal d) s = .next (s.modDie d fun x => { x with events := rest })) ∧
    ((t.gang g).record.kind ≠ 3 → t.started = true ∨ (t.gang g).record.kind = 7 →
      s.handlerTakes t.ctx (t.gang g).record.kind = true → ∃ s' t', exec (.faultDisposal d) s = .next s' ∧
      s'.task h = some t' ∧ (t'.gang g).record = { (t.gang g).record with flags := (t.gang g).record.flags ||| 8 } ∧
      (t'.gang g).frontier = (t.gang g).frontier ∧ (s'.die d).events = rest) ∧
    ∀ c, ((t.gang g).record.kind ≠ 3 ∨ s.pageParked h g = false) →
      s.handlerTakes t.ctx (t.gang g).record.kind = false ∨ (t.started = false ∧ (t.gang g).record.kind ≠ 7) →
      s.context t.ctx = some c → c.desc.logLen ≠ 0 →
      (∀ k, k < 64 → s.aliasAt (c.desc.logBase + c.fidx.toNat % c.desc.logLen * 64 + k) = none) →
      ∃ s' c', exec (.faultDisposal d) s = .next s' ∧ Ending s' h .fault ∧ (s'.die d).events = rest ∧ s'.context t.ctx = some c' ∧
        c'.fidx = c.fidx + 1 ∧ ∀ k, k < 64 → Memory.read s'.mem (c.desc.logBase + c.fidx.toNat % c.desc.logLen * 64 + k) =
          (Record.bytes { (t.gang g).record with flags := (t.gang g).record.flags &&& 0xFE }).getD k 0

/-- HANDLER_CONTINUE frees the record and moves the parked lanes past the word, or ends the task where no word is left to go on at;
HANDLER_END ends the task; the verdict on a saved task is kept until it is restored; a resolved page fault makes its lanes ready at the
word, a refused one ends the task; fetches and completion records likewise. -/
def Sys2Proof.Say.FaultResolution : Prop :=
  (∀ (s : State) (h g : Nat) (t : Task), Handled s h g t → t.phase = .saved → ∀ go,
    ∃ s' t', exec (if go then .handlerContinue h g else .handlerEnd h g) s = .next s' ∧ s'.task h = some t' ∧
      (t'.gang g).verdict = some go ∧ (t'.gang g).record = (t.gang g).record ∧ (t'.gang g).frontier = (t.gang g).frontier ∧
      t'.phase = .saved ∧ t'.fate = .alive) ∧
  (∀ (s : State) (h g : Nat) (t : Task), Handled s h g t → t.phase ≠ .saved →
    ((t.gang g).record.final = false → (t.gang g).held = [] → NonePastEnd s h g →
      (∀ x ∈ entries s h g, x.st = .parked .fault → x.pc.toNat % 8192 ≠ 0x1FFC) →
      (∀ x ∈ s.gangStreams h g, x.st = .parked .fault → x.pc.toNat % 8192 ≠ 0x1FFC) →
      ∃ s', exec (.handlerContinue h g) s = .next s' ∧ (s'.gang h g).record.busy = false ∧
        ∀ x ∈ entries s h g, x.st = .parked .fault → x.mask ≠ 0 →
          readyAt (x.pc + 4) x.pri x.mask ∈ entries s' h g) ∧
    ((((t.gang g).record.kind = 1 ∧ (t.gang g).record.detail.toNat % 256 = 10) ∨
        ((t.gang g).record.kind = 7 ∧ (t.gang g).record.detail = 3)) →
      ∃ s', exec (.handlerContinue h g) s = .next s' ∧ Ending s' h .fault) ∧
    ∃ s', exec (.handlerEnd h g) s = .next s' ∧ Ending s' h .fault) ∧
  (∀ (s : State) (h g : Nat) (t : Task), PageHeld s h g t →
    ((t.gang g).held = [] → NonePastEnd s h g → ∃ s', exec (.pageFaultResolved (.gang h g)) s = .next s' ∧
      (s'.gang h g).record.busy = false ∧
      (∀ x ∈ entries s h g, x.st = .parked .page → { x with st := .ready } ∈ entries s' h g) ∧
      ∀ x ∈ entries s' h g, x.st ≠ .parked .page) ∧
    ∃ s', exec (.pageFaultRefused (.gang h g)) s = .next s' ∧ Ending s' h .fault) ∧
  (∀ (s : State) (n : Nat) (f : Fetch), s.fetches.find? (fun x => x.id == n && x.suspended) = some f → s.fetchPosted n = false →
    (∃ s', exec (.pageFaultResolved (.fetch n)) s = .next s' ∧ ∀ x ∈ s'.fetches, x.id = n → x.suspended = false) ∧
    ∃ s', exec (.pageFaultRefused (.fetch n)) s = .next s' ∧ ∀ x ∈ s'.fetches, x.id ≠ n) ∧
  ∀ (s : State) (n : Nat) (l : Launch), s.launch n = some l → l.crecWait = true → l.phase = .complete → s.posted (.crec n) = false →
    (∃ s', exec (.pageFaultRefused (.crec n)) s = .next s' ∧ s'.launch n = none ∧
      (s'.die l.die).events = (s.die l.die).events ++ [.crecFailed n]) ∧
    ∀ s1 pa leaf, l.packet.crec ≠ 0 → l.packet.crec % 32 = 0 → s.asleepTable l.ctx = none →
      s.checkWalk l.ctx l.packet.crec 32 .write = (.ok pa leaf, s1) →
      s1.awake pa = true → s1.guarded pa 32 = none → (∀ k, k < 32 → s1.aliasAt (pa + k) = none) →
      ∃ s', exec (.pageFaultResolved (.crec n)) s = .next s' ∧
        s'.launch n = none ∧
        ∀ k, k < 32 → Memory.read s'.mem (pa + k) = l.record.getD k 0

/-- WATCHDOG raises a fault of kind 16 whose detail tells the state the entry stood in; END_TASK raises KILLED with detail 2 in every gang
and ends the task by gang 0's; SYSCALL asks the scheduler thread once its release is done; the reply gives s[d], and the word returns with
an acquire at package scope once the gang's loads have landed. That END_TASK writes its record over one that is held, and that a watchdog
may come at any step, are the model's choices (logs 51, 9). -/
def Sys2Proof.Say.WatchdogEndAndSystemCalls : Prop :=
  (∀ (s : State) (h g lane n : Nat) (t : Task) (e : Entry), s.task h = some t → t.timed = true →
    (t.gang g).frontier.find? (fun x => x.mask.getLsbD lane) = some e → (t.gang g).record.busy = false →
    (e.st = .ready ∧ n = 5) ∨ ((∃ l, e.st = .emptyReg l) ∧ n = 1) ∨ ((e.st = .rcb ∨ ∃ b, e.st = .barrier b) ∧ n = 2) ∨
      ((∃ a b, e.st = .queue a b) ∧ n = 3) ∨ ((∃ b, e.st = .monitor b) ∧ n = 4) →
    ∃ s', exec (.watchdog (.entry h g lane)) s = .next s' ∧ (s'.gang h g).record.kind = 16 ∧
      (s'.gang h g).record.detail = BitVec.ofNat 32 n ∧ (s'.gang h g).record.pc = e.pc ∧ (s'.gang h g).record.mask = e.mask ∧
      { e with st := .parked .fault, qkeep := [], held := none } ∈ entries s' h g ∧ e ∉ entries s' h g) ∧
  (∀ (s : State) (k i : Nat) (x : Stream) (t : Task), s.stream k i = some x → x.started = true → x.st = .ready →
    s.task x.h = some t → t.timed = true → t.finished = false →
    (s.gang x.h x.g).record.busy = false → ∃ s', exec (.watchdog (.stream k i)) s = .next s' ∧ (s'.gang x.h x.g).record.kind = 16 ∧
      (s'.gang x.h x.g).record.detail = 7 ∧ (s'.gang x.h x.g).record.mask = 0 ∧
      s'.stream k i = some { x with st := .parked .fault }) ∧
  (∀ (s : State) (h : Nat) (t : Task), s.task h = some t → t.fate = .alive → 0 < t.gangCount →
    ∃ s', exec (.endTask h) s = .next s' ∧ Ending s' h .fault ∧ ∀ g, g < t.gangCount → (s'.gang h g).record.kind = 17 ∧
      (s'.gang h g).record.detail = 2) ∧
  (∀ (w : UI) (s : State) (h g : Nat) (e : Entry) (t : Task), Issues s h g e t → (t.gang g).cbit w.c.toNat = true → e.st = .ready →
    s.releaseDone (.gang h g) 5 s.nextId = true → ∃ s', exec (.syscall w) s = .next s' ∧
      (s'.die (hDie h)).events = (s.die (hDie h)).events ++
        [.syscall h g (lowestLane e.mask) w.imm.toNat ((t.gang g).sreg w.a.toNat) (t.gang g).s] ∧
      entries s' h g = entries s h g ++ [{ e with st := .stall (.syscall w.d.toNat) }]) ∧
  (∀ (w : UI) (s : State) (h g n : Nat) (e : Entry) (t : Task), Issues s h g e t → e.st = .stall (.returned n) →
    s.loadsLanded (.gang h g) n = true → (t.gang g).denials = [] → exec (.syscall w) s = .next (goesOn
      (((issued s).modCore (hCore h) fun c => { c with l1 := [] }).modDie (hDie h) fun d => { d with guest := dropClean d.guest }) h g e)) ∧
  ∀ (s : State) (h g lane d : Nat) (reply : Word) (e : Entry) (t : Task), s.task h = some t →
    (t.gang g).frontier.find? (fun x => x.mask.getLsbD lane) = some e → e.st = .stall (.syscall d) →
    (∀ p ∈ s.dies, ∀ x ∈ p.2.events, ∀ l n v r, x ≠ .syscall h g l n v r) →
    ∃ s', exec (.syscallReply h g lane reply) s = .next s' ∧ (s'.gang h g).sreg d = (if d = 0 then 0 else reply) ∧
      { e with st := .stall (.returned s.nextId) } ∈ entries s' h g

/-- TASK_END: a task whose threads have all exited, with nothing of it under way and no record busy, leaves its slot and counts as run;
undelivered denials are delivered first. One that a fault ended counts as faulted. What must be over first is the model's reading
(log 44). -/
def Sys2Proof.Say.TaskEnds : Prop :=
  ∀ (s : State) (h : Nat) (t : Task) (l : Launch), s.task h = some t → s.launch t.launch = some l → t.finished = true →
    t.allExited = true → s.quiet h = true → s.noStreams h = true → s.pinsAwake t = true → t.ident.spanidx = none →
    (t.fate = .fault → ∃ s' l', exec (.taskEnd h) s = .next s' ∧ s'.task h = none ∧ s'.launch t.launch = some l' ∧
      l'.ended = l.ended + 1 ∧ l'.fault = l.fault + 1 ∧ l'.run = l.run) ∧
    (t.fate = .alive → (∀ x ∈ s.transfers, x.h ≠ h) → (∀ g, g < t.gangCount → (t.gang g).denials = []) →
      (∀ g, g < t.gangCount → (t.gang g).record.busy = false) →
      ∃ s' l', exec (.taskEnd h) s = .next s' ∧ s'.task h = none ∧ s'.launch t.launch = some l' ∧ l'.ended = l.ended + 1 ∧
        l'.run = l.run + 1 ∧ l'.fault = l.fault) ∧
    ∀ g d r, t.fate = .alive → (∀ x ∈ s.transfers, x.h ≠ h) → g < t.gangCount → (t.gang g).denials = d :: r →
      (t.gang g).record.busy = false → ∃ s' t', exec (.taskEnd h) s = .next s' ∧ s'.task h = some t' ∧ (t'.gang g).record.kind = 9 ∧
        (t'.gang g).denials = []

/-! ## Bank commands -/

namespace Sys2Proof.Say

/-- A bank command word: guard, descriptor pair, kind (BKREAD takes bit 0 of s[b]). -/
def bankWordOf (gg : Gang) : Instr → Option (BitVec 3 × BitVec 5 × BankKind)
  | .bkopAdd w => some (w.c, w.a, .op 0)
  | .bkopMul w => some (w.c, w.a, .op 1)
  | .bkopMax w => some (w.c, w.a, .op 2)
  | .bkopMin w => some (w.c, w.a, .op 3)
  | .bkopAxpy w => some (w.c, w.a, .op 4)
  | .bkopCvt w => some (w.c, w.a, .op 5)
  | .bkred w => some (w.c, w.a, .red)
  | .bkrank w => some (w.c, w.a, .rank)
  | .bkrankCommit w => some (w.c, w.a, .commit)
  | .bkread w => some (w.c, w.a, .read ((gg.sreg w.b.toNat).getLsbD 0))
  | _ => none

/-- A range of memory that no window and no guard range touches. -/
def PlainRange (s : State) (a n : Nat) : Prop :=
  (∀ j, j < n → s.aliasAt (a + j) = none) ∧ ∀ b m, a ≤ b → b + m ≤ a + n → s.guarded b m = none

/-- Two ranges that do not meet. -/
def Apart (a n b m : Nat) : Prop := a + n ≤ b ∨ b + m ≤ a

end Sys2Proof.Say

/-- A bank command with a good descriptor whose ranges pass every check is queued with their physical addresses, counts in BK, and the gang
goes on; a misaligned pair is ALIGN, a malformed descriptor PERM cause 9 at the field. Its elements are performed, then RES is written, each
notice after its release, and at the last the command is gone and BK is lower. That elements are performed at one event, that RES is
translated at completion, and that a malformed descriptor comes before a bad range, are the model's choices (logs 14, 38, 39). -/
def Sys2Proof.Say.BankCommands : Prop :=
  (∀ i (s : State) (h g p : Nat) (e : Entry) (t : Task) (c : BitVec 3) (a : BitVec 5) (k : BankKind), IssuesFreely s h g e t →
    bankWordOf (t.gang g) i = some (c, a, k) → (t.gang g).cbit c.toNat = true → (t.gang g).counters.bk < 63 →
    p = s.spair (.gang h g) a.toNat →
    (p % 64 ≠ 0 → exec i s = .next ((issued s).raise h g (.uniform 2 e.pc e.mask 0 p) e)) ∧
    ∀ ds s1, p % 64 = 0 → (issued s).readDwords h g p 7 = (.ok ds, s1) →
      (∀ off, k.malformed (bkDescOf ds) = some off → exec i s = .next (s1.raise h g (.uniform 4 e.pc e.mask 9 (p + off)) e)) ∧
      ∀ pas s2, k.malformed (bkDescOf ds) = none → s1.checkRangesBk (hCluster h) t.ctx p (k.ranges (bkDescOf ds)) = (.ok pas, s2) →
        ∃ s' t' x, exec i s = .next s' ∧ s'.task h = some t' ∧ wentOn t t' g e ∧ s'.bankCmds = s2.bankCmds ++ [x] ∧
          x.owner = .gang h g ∧ x.kind = k ∧ x.count = (bkDescOf ds).count ∧ x.dfmt = (bkDescOf ds).dfmt ∧
          x.dst = pas.getD 0 0 ∧ x.srcA = pas.getD 1 0 ∧ x.srcB = pas.getD 2 0 ∧ x.res = p + 56 ∧
          (t'.gang g).counters.bk = (t.gang g).counters.bk + 1 ∧ s'.mem = s2.mem) ∧
  ∀ (s : State) (b h g : Nat) (c : BankCmd) (t : Task), s.bankCmds.find? (fun x => x.id == b) = some c → c.owner = .gang h g →
    s.task h = some t →
    (c.fin = none → s.cmdAwake c = true → (c.perform s).2.denials = 0 →
      (c.perform s).1.unitReleased c.owner c.scope (c.perform s).1.nextId = false →
      ∃ s' t', exec (.bankCommandComplete b) s = .next s' ∧ s'.task h = some t' ∧ s'.mem = (c.perform s).1.mem ∧
        (t'.gang g).counters.bk = (t.gang g).counters.bk ∧ s'.bankCmds = s.bankCmds.map (fun x =>
          if x.id = b then { x with fin := some { stage := 0, word := (c.perform s).2.word, upto := (c.perform s).1.nextId } } else x)) ∧
    (∀ f, c.fin = some f → s.unitReleased c.owner c.scope f.upto = false →
      ∃ s', exec (.bankCommandComplete b) s = .next s' ∧ s'.mem = s.mem ∧ s'.tasks = s.tasks ∧ s'.bankCmds.length = s.bankCmds.length) ∧
    (∀ f s1 pa leaf, c.fin = some f → f.stage = 0 → c.cword = none → s.unitReleased c.owner c.scope f.upto = true →
      s.asleepTable c.ctx = none →
      s.checkWalk c.ctx c.res 4 .write = (.ok pa leaf, s1) → (ownHome (hDie h) pa = true ∨ isBank pa = true) → s1.guarded pa 4 = none →
      s1.farTakes (hDie h) [(c.res, pa, s1.accessMode leaf pa 0 true, leBytes 4 f.word, false)] = true →
      (∀ j, j < 4 → s1.aliasAt (pa + j) = none) → ∃ s', exec (.bankCommandComplete b) s = .next s' ∧
        Memory.readNat s'.mem pa 4 = f.word % 2 ^ 32) ∧
    ∀ f, c.fin = some f → f.stage = 2 → s.unitReleased c.owner c.scope f.upto = true →
      ∃ s' t', exec (.bankCommandComplete b) s = .next s' ∧ s'.task h = some t' ∧ s'.mem = s.mem ∧
        s'.bankCmds = s.bankCmds.filter (fun x => x.id != b) ∧ (t'.gang g).counters.bk = (t.gang g).counters.bk - 1

namespace Sys2Proof.Say

/-- The state and the sums after the first `i` elements of a bank command. -/
def upToElem (s : State) (c : BankCmd) (i : Nat) : State × BkSum := ({ c with count := i } : BankCmd).perform s

/-- The key of a score (13 R282). -/
def scoreKey (x : Word) : Nat :=
  if x = 0x80000000 then 0x80000000 else if x.getLsbD 31 = true then (x ^^^ 0xFFFFFFFF).toNat else (x ^^^ 0x80000000).toNat

/-- A candidate of a round: its score, as binary32, and its index. -/
structure Candidate (m : Memory) (c : BankCmd) (i : Nat) (v : Word) (idx : Nat) : Prop where
  score : v = BitVec.ofNat 32 (if c.sfmtA = 2 then Memory.readNat m (c.srcA + 2 * i) 2 * 65536 else Memory.readNat m (c.srcA + 4 * i) 4)
  index : idx = if c.hasB = true then Memory.readNat m (c.srcB + 4 * i) 4 else (c.alpha.toNat + i % c.group) % 2 ^ 32

/-- The index is that of an entry of a slot's suppression list. -/
def Suppressed (m : Memory) (slot idx : Nat) : Prop :=
  ∃ j, j < 8 ∧ j < Memory.readNat m (slot + 8) 1 ∧ Memory.readNat m (slot + 16 + 8 * j) 4 = 2 ^ 32 - 1 - idx

end Sys2Proof.Say

/-- BKOP on plain ranges that do not meet, or are the same: each element of the destination is the operation of the elements with its index,
and no other byte changes; INT32 without saturate wraps, and CVT reads source A alone. BKRED adds each source element, as it enters FX64, to
its group's cell, saturating, and skips NaN. BKREAD rounds the cells, and clears them where it is asked to. A candidate of BKRANK raises its
slot's CELL, unless it is NaN or suppressed; a commit round moves CELL to the list. Elements act in ascending order, each on what the one
before left. That a command's elements are performed at one event, and the corners inside an element, are the model's choices (logs 14, 40,
88, 95). -/
def Sys2Proof.Say.BankElements : Prop :=
  (∀ (s : State) (c : BankCmd) (m i : Nat), c.kind = .op m → i < c.count → 0 < bankSize c.dfmt →
    PlainRange s c.dst (c.count * bankSize c.dfmt) → PlainRange s c.srcA (c.count * bankSize c.sfmtA) →
    (c.hasB = true → PlainRange s c.srcB (c.count * bankSize c.dfmt) ∧
      (c.srcB = c.dst ∨ Apart c.dst (c.count * bankSize c.dfmt) c.srcB (c.count * bankSize c.dfmt))) →
    ((c.srcA = c.dst ∧ bankSize c.sfmtA = bankSize c.dfmt) ∨
      Apart c.dst (c.count * bankSize c.dfmt) c.srcA (c.count * bankSize c.sfmtA)) →
    Memory.readNat (c.perform s).1.mem (c.dst + i * bankSize c.dfmt) (bankSize c.dfmt) =
      (bkopElem m c.dfmt c.sfmtA c.frac (Rnd.ofField c.rmode) c.sat c.alpha.toNat
        (Memory.readNat s.mem (c.srcA + i * bankSize c.sfmtA) (bankSize c.sfmtA))
        (if c.hasB = true then Memory.readNat s.mem (c.srcB + i * bankSize c.dfmt) (bankSize c.dfmt) else 0)).bits %
          256 ^ bankSize c.dfmt ∧
    ∀ a, (a < c.dst ∨ c.dst + c.count * bankSize c.dfmt ≤ a) → Memory.read (c.perform s).1.mem a = Memory.read s.mem a) ∧
  (∀ (f : Nat) (rnd : Rnd) (alpha x y : Nat), (bkopElem 0 7 7 f rnd false alpha x y).bits = (x % 2 ^ 32 + y % 2 ^ 32) % 2 ^ 32 ∧
    (bkopElem 1 7 7 f rnd false alpha x y).bits = (x * y) % 2 ^ 32) ∧
  (∀ (s : State) (c : BankCmd) (i : Nat), upToElem s c 0 = (s, BkSum.zero) ∧ upToElem s c c.count = c.perform s ∧
    (c.kind = .red → i < c.count → 0 < c.group → PlainRange s c.dst (8 * groups c.count c.group) →
      PlainRange s c.srcA (c.count * bankSize c.sfmtA) → ∀ q q', q = upToElem s c i → q' = upToElem s c (i + 1) →
      (∀ a, a < c.dst + 8 * (i / c.group) ∨ c.dst + 8 * (i / c.group) + 8 ≤ a → Memory.read q'.1.mem a = Memory.read q.1.mem a) ∧
      match fxEnterBy (Rnd.ofField c.rmode) c.frac
        (elemVal c.sfmtA c.frac (Memory.readNat q.1.mem (c.srcA + i * bankSize c.sfmtA) (bankSize c.sfmtA))) with
      | none => q'.1.mem = q.1.mem ∧ q'.2.nans = q.2.nans + 1
      | some (v, _) => q'.2.nans = q.2.nans ∧ fxOf (Memory.readNat q'.1.mem (c.dst + 8 * (i / c.group)) 8) =
          max (-(2 ^ 63)) (min (2 ^ 63 - 1) (fxOf (Memory.readNat q.1.mem (c.dst + 8 * (i / c.group)) 8) + v))) ∧
    (c.kind = .rank → i < c.count → 0 < c.group → c.sfmtA = 0 ∨ c.sfmtA = 2 → PlainRange s c.dst (128 * groups c.count c.group) →
      PlainRange s c.srcA (c.count * bankSize c.sfmtA) → (c.hasB = true → PlainRange s c.srcB (4 * c.count)) →
      ∀ q q' v idx slot, q = upToElem s c i → q' = upToElem s c (i + 1) → Candidate q.1.mem c i v idx → slot = c.dst + 128 * (i / c.group) →
      (0x7F800000 < v.toNat % 2 ^ 31 → q'.1.mem = q.1.mem ∧ q'.2.nans = q.2.nans + 1) ∧
      (v.toNat % 2 ^ 31 ≤ 0x7F800000 → Suppressed q.1.mem slot idx → q'.1.mem = q.1.mem ∧ q'.2.nans = q.2.nans) ∧
      (v.toNat % 2 ^ 31 ≤ 0x7F800000 → ¬ Suppressed q.1.mem slot idx → q'.2.nans = q.2.nans ∧
        Memory.readNat q'.1.mem slot 8 = max (Memory.readNat q.1.mem slot 8) (scoreKey v * 2 ^ 32 + (2 ^ 32 - 1 - idx)) ∧
        ∀ a, a < slot ∨ slot + 8 ≤ a → Memory.read q'.1.mem a = Memory.read q.1.mem a)) ∧
    (c.kind = .commit → i < c.count → PlainRange s c.dst (128 * c.count) → ∀ q q' slot n, q = upToElem s c i → q' = upToElem s c (i + 1) →
      slot = c.dst + 128 * i → n = Memory.readNat q.1.mem (slot + 8) 1 →
      (Memory.readNat q.1.mem slot 8 = 0 → q'.1.mem = q.1.mem ∧ q'.2.full = q.2.full) ∧
      (Memory.readNat q.1.mem slot 8 ≠ 0 → n < 8 → q'.2.full = q.2.full ∧ Memory.readNat q'.1.mem slot 8 = 0 ∧
        Memory.readNat q'.1.mem (slot + 8) 1 = n + 1 ∧ Memory.readNat q'.1.mem (slot + 16 + 8 * n) 8 = Memory.readNat q.1.mem slot 8 ∧
        ∀ a, (a < slot ∨ slot + 8 < a) → (a < slot + 16 + 8 * n ∨ slot + 24 + 8 * n ≤ a) →
          Memory.read q'.1.mem a = Memory.read q.1.mem a) ∧
      (Memory.readNat q.1.mem slot 8 ≠ 0 → 8 ≤ n → q'.2.full = true ∧ Memory.readNat q'.1.mem slot 8 = 0 ∧
        ∀ a, (a < slot ∨ slot + 8 ≤ a) → Memory.read q'.1.mem a = Memory.read q.1.mem a))) ∧
  ∀ (s : State) (c : BankCmd) (clr : Bool) (i : Nat), c.kind = .read clr → i < c.count → 0 < bankSize c.dfmt →
    PlainRange s c.dst (c.count * bankSize c.dfmt) → PlainRange s c.srcA (8 * c.count) →
    Apart c.dst (c.count * bankSize c.dfmt) c.srcA (8 * c.count) →
    Memory.readNat (c.perform s).1.mem (c.srcA + 8 * i) 8 = (if clr = true then 0 else Memory.readNat s.mem (c.srcA + 8 * i) 8) ∧
    (∀ a, (a < c.dst ∨ c.dst + c.count * bankSize c.dfmt ≤ a) → (a < c.srcA ∨ c.srcA + 8 * c.count ≤ a) →
      Memory.read (c.perform s).1.mem a = Memory.read s.mem a) ∧
    Memory.readNat (c.perform s).1.mem (c.dst + i * bankSize c.dfmt) (bankSize c.dfmt) =
      (bankConvert c.dfmt c.frac (Rnd.ofField c.rmode) c.sat (fxVal c.frac (fxOf (Memory.readNat s.mem (c.srcA + 8 * i) 8)))).bits %
        256 ^ bankSize c.dfmt

/-! ## Matrix streams -/

namespace Sys2Proof.Say

/-- A matrix word of a stream that may take it: guard true, fewer than four words outstanding. -/
structure MatrixIssues (c : BitVec 3) (s : State) (k i : Nat) (e : Entry) (x : Stream) : Prop extends StreamIssues s k i e x where
  guard : streamBit x c.toNat = true
  room : (s.cluster k).outstanding i < 4

/-- The word joins the array's queue, or the post chain's, and the stream goes on. -/
def Queued (s s' : State) (k i : Nat) (e : Entry) (post : Bool) (w : MatrixWord) : Prop :=
  ∃ op, op.stream = i ∧ op.word = w ∧ op.pc = e.pc ∧ op.offered = 0 ∧
    (s'.cluster k).arrayQ = (s.cluster k).arrayQ ++ (if post then [] else [op]) ∧
    (s'.cluster k).postQ = (s.cluster k).postQ ++ (if post then [op] else []) ∧
    ∃ y, s'.stream k i = some y ∧ y.pc = e.pc + 4 ∧ y.st = .ready

/-- A physical tile of a cluster. -/
def tileOf (s : State) (k p : Nat) : Tile := AList.get Tile.free (s.cluster k).tiles p

end Sys2Proof.Say

/-- MSTART puts a stream into a free slot of its cluster, with s2:s3 the pair, at the segment's first word; with none free, or the matrix
units off, it waits with what it read at issue. It issues from STREAM_START on, and ends at MEND once every earlier word is complete, or by
STREAM_STOP with its task. -/
def Obligations.StreamsStartAndEnd : Prop :=
  (∀ (w : UAB) (s s1 : State) (h g seg : Nat) (e : Entry) (t : Task) (l : Launch) (ds : List Nat), IssuesFreely s h g e t →
    e.st = .ready → (t.gang g).cbit w.c.toNat = true → seg = ((t.gang g).sreg w.a.toNat).toNat → s.inObject h seg = true →
    s.launch t.launch = some l → (issued s).readDwords h g (l.segEntryVa seg) 2 = (.ok ds, s1) → (segEntryOf ds).bad = false →
    (segEntryOf ds).kind = 1 → s1.releaseDone (.gang h g) 3 (s1.upto e) = true →
    (∀ i, s1.freeStream (hCluster h) = some i → s1.lehr.level < 2 → (s1.mslotFor (hCluster h) t.ctx l.packet.kobj seg).isSome = true →
      ∃ s' t' x, exec (.mstart w) s = .next s' ∧ s'.task h = some t' ∧ wentOn t t' g e ∧ s'.stream (hCluster h) i = some x ∧
        x.h = h ∧ x.g = g ∧ x.seg = seg ∧ x.pc = BitVec.ofNat 32 (seg * 8192) ∧ x.started = false ∧ x.c = 1 ∧
        x.sreg 2 = (t.gang g).sreg w.b.toNat ∧ x.sreg 3 = (t.gang g).sreg (w.b.toNat + 1) ∧ x.tiles = [] ∧ x.tables = []) ∧
    ((s1.freeStream (hCluster h) = none ∨ 2 ≤ s1.lehr.level) → exec (.mstart w) s = .next (s1.putEntry h g
      { e with st := .stall (.streamSlot { seg := seg, addr := (segEntryOf ds).addr, len := (segEntryOf ds).len,
                                           lo := s1.sreg (.gang h g) w.b.toNat, hi := s1.sreg (.gang h g) (w.b.toNat + 1) }) }))) ∧
  (∀ (w : UAB) (s : State) (h g i : Nat) (m : StreamStart) (e : Entry) (t : Task), IssuesFreely s h g e t → e.st = .stall (.streamSlot m) →
    s.freeStream (hCluster h) = some i → s.lehr.level < 2 →
    (s.mslotFor (hCluster h) t.ctx (s.kobjOf t) m.seg).isSome = true →
    ∃ s' t' x, exec (.mstart w) s = .next s' ∧ s'.task h = some t' ∧ wentOn t t' g e ∧ s'.stream (hCluster h) i = some x ∧
      x.seg = m.seg ∧ x.pc = BitVec.ofNat 32 (m.seg * 8192) ∧ x.sreg 2 = m.lo ∧ x.sreg 3 = m.hi) ∧
  (∀ (s : State) (k i : Nat) (x : Stream), s.stream k i = some x → x.started = false → s.streamLanded k x = true →
    ∃ s', exec (.streamStart k i) s = .next s' ∧ s'.stream k i = some { x with started := true }) ∧
  (∀ (w : UC) (s : State) (k i : Nat) (e : Entry) (x : Stream), StreamIssues s k i e x → streamBit x w.c.toNat = true →
    s.streamDrained (.stream k i) = true → ∃ s', exec (.mend w) s = .next s' ∧ s'.stream k i = none ∧
      (∀ p, (tileOf s k p).owner = some i → (tileOf s' k p) = Tile.free) ∧ ∀ j, j ≠ i → s'.stream k j = s.stream k j) ∧
  ∀ (s : State) (h i : Nat) (x : Stream) (t : Task), s.task h = some t → t.finished = true → s.stream (hCluster h) i = some x → x.h = h →
    (s.cluster (hCluster h)).arrayQ = [] → (s.cluster (hCluster h)).postQ = [] →
    ∃ s', exec (.streamStop h) s = .next s' ∧ s'.stream (hCluster h) i = none

/-- A matrix word that passes its checks at issue joins its queue with the descriptors it has read, an unbound tile of MZERO, and of an MMA
that does not accumulate, being bound to a free one (one that accumulates is PERM cause 25); a bad command word is PERM cause 20, and an
address of either operand cause 21 before what the other holds is looked at. The order of two failing checks is the model's choice (log 39). -/
def Sys2Proof.Say.MatrixWordsIssue : Prop :=
  (∀ (w : URM) (s : State) (k i : Nat) (e : Entry) (x : Stream) (v : Word) (da db : OpDesc), MatrixIssues w.c s k i e x →
    v = x.sreg w.d.toNat →
    ((v.getLsbD 3 = true ∨ 4096 ≤ v.toNat) → (s.gang x.h x.g).record.busy = false → (s.task x.h).isSome = true →
      ∃ s', exec (.mma w) s = .next s' ∧ (s'.gang x.h x.g).record.kind = 4 ∧ (s'.gang x.h x.g).record.detail = 256 + 20) ∧
    (v.getLsbD 3 = false → v.toNat < 4096 → (s.descBytes x.h (x.sreg w.a.toNat) 16).isSome = true →
      s.descBytes x.h (x.sreg w.b.toNat) 16 = none → (s.gang x.h x.g).record.busy = false → (s.task x.h).isSome = true →
      ∃ s', exec (.mma w) s = .next s' ∧ (s'.gang x.h x.g).record.kind = 4 ∧ (s'.gang x.h x.g).record.detail = 256 + 21 ∧
        (s'.gang x.h x.g).record.addr = BitVec.ofNat 64 (x.sreg w.b.toNat).toNat) ∧
    (∀ ba bb, v.getLsbD 3 = false → v.toNat < 4096 → s.descBytes x.h (x.sreg w.a.toNat) 16 = some ba →
      s.descBytes x.h (x.sreg w.b.toNat) 16 = some bb → opDescOf ba = some da → opDescOf bb = some db → da.kb = db.kb →
        v.toNat / 16 % 16 ≤ da.n → v.toNat / 256 ≤ db.n → s.checkOp x.h da = none → s.checkOp x.h db = none →
      ((x.tile (v.toNat % 8)).isSome = true ∨
          (w.m = false ∧ x.tile (v.toNat % 8) = none ∧ ∃ p, p < 8 ∧ (tileOf s k p).owner = none) →
        ∃ s' y, exec (.mma w) s = .next s' ∧
          Queued s s' k i e false (.mma (v.toNat % 8) (v.toNat / 16 % 16) (v.toNat / 256) w.m da db) ∧ s'.stream k i = some y ∧
          (y.tile (v.toNat % 8)).isSome = true) ∧
      (w.m = true → x.tile (v.toNat % 8) = none → (s.gang x.h x.g).record.busy = false → (s.task x.h).isSome = true →
        ∃ s', exec (.mma w) s = .next s' ∧ (s'.gang x.h x.g).record.kind = 4 ∧ (s'.gang x.h x.g).record.detail = 256 + 25))) ∧
  (∀ (w : UAcc) (s : State) (k i p : Nat) (e : Entry) (x : Stream), MatrixIssues w.c s k i e x →
    (x.tile w.acc.toNat).isSome = true ∨ (x.tile w.acc.toNat = none ∧ p < 8 ∧ (tileOf s k p).owner = none) →
    ∃ s' y, exec (.mzero w) s = .next s' ∧ Queued s s' k i e false (.mzero w.acc.toNat) ∧ s'.stream k i = some y ∧
      (y.tile w.acc.toNat).isSome = true) ∧
  (∀ (w : UMpost) (s : State) (k i : Nat) (e : Entry) (x : Stream) (c : Word) (bs : List Byte) (d : PostDesc), MatrixIssues w.c s k i e x →
    c = x.sreg w.a.toNat → cmdBad c = false → s.descBytes x.h (x.sreg w.b.toNat) 32 = some bs → postDescOf c bs = some d →
    s.checkPost x.h c d = none → (x.tile w.t.toNat).isSome = true → (cmdAct c = true → s.tableLoaded k i x (cmdTbl c) = true) →
    (cmdRoute c = true → s.routeOk x.h d = true) → ∃ s', exec (.mpost w) s = .next s' ∧
      Queued s s' k i e true (.mpost w.t.toNat c d)) ∧
  ∀ (w : UAB) (s s1 : State) (k i : Nat) (e : Entry) (x : Stream) (bs : List PByte) (a : ActTable), MatrixIssues w.c s k i e x →
    (x.sreg w.b.toNat).toNat ≤ 3 → s.spair (.stream k i) w.a.toNat % 16 = 0 →
    (issued s).unitRead (some k) (k / 8) (s.ctxOf x.h) (s.spair (.stream k i) w.a.toNat) 2064 = (.ok bs, s1) →
    bs.any Prod.snd = false → actTableOf (bs.map Prod.fst) = some a → s1.stream k i = some x →
    ∃ s', exec (.mact w) s = .next s' ∧ Queued s1 s' k i e true (.mact (x.sreg w.b.toNat).toNat a)

namespace Sys2Proof.Say

/-- The words behind a queue's head, but for those of streams whose tasks are over. -/
def stillQueued (s : State) (k : Nat) (rest : List MatrixOp) : List MatrixOp :=
  rest.filter fun p => !((s.stoppedStreams k).map Prod.fst).contains p.stream

end Sys2Proof.Say

/-- MATRIX_WORD_COMPLETE: MMA gives each element of the tile its sum of block products, MZERO zeros, MACT loads its table, and a plain MPOST
stores its rows; the word leaves its queue. ROUTED_OFFER gives one element to the gang's accumulator. That a word takes effect whole
is the model's choice (log 15), and so is what a selected exponent 0xFF gives where pa or pb is 0 (log 65). -/
def Sys2Proof.Say.MatrixWordsComplete : Prop :=
  (∀ (s : State) (k p t pa pb : Nat) (acc : Bool) (da db : OpDesc) (o : MatrixOp) (rest : List MatrixOp) (x : Stream),
    (s.cluster k).arrayQ = o :: rest → (s.cluster k).postQ = [] → s.stream k o.stream = some x → o.offered = 0 →
    o.word = .mma t pa pb acc da db → x.tile t = some p → s.checkOp x.h da = none → s.checkOp x.h db = none → db.lines ≤ 128 →
    ∃ s', exec (.matrixWordComplete k false) s = .next s' ∧ (s'.cluster k).arrayQ = stillQueued s k rest ∧
      (∀ r j, r < da.lines → j < db.lines → AList.get 0 (tileOf s' k p).data (128 * r + j) =
        mmaElement da.n pa db.n pb (if acc = true then AList.get 0 (tileOf s k p).data (128 * r + j) else 0)
          (s.readBlocks x.h da (3 + pa) r) (if pb = 0 then db.unreadLine else s.readBlocks x.h db (3 + pb) j)) ∧
      ∀ r j, j < 128 → (da.lines ≤ r ∨ db.lines ≤ j) →
        AList.get 0 (tileOf s' k p).data (128 * r + j) = AList.get 0 (tileOf s k p).data (128 * r + j)) ∧
  (∀ (s : State) (k p t : Nat) (o : MatrixOp) (rest : List MatrixOp) (x : Stream), (s.cluster k).arrayQ = o :: rest →
    (s.cluster k).postQ = [] → s.stream k o.stream = some x → o.offered = 0 → o.word = .mzero t → x.tile t = some p →
    ∃ s', exec (.matrixWordComplete k false) s = .next s' ∧ (s'.cluster k).arrayQ = stillQueued s k rest ∧ (tileOf s' k p).data = [] ∧
      (tileOf s' k p).poison = []) ∧
  (∀ (s : State) (k tbl : Nat) (a : ActTable) (o : MatrixOp) (rest : List MatrixOp) (x : Stream), (s.cluster k).postQ = o :: rest →
    s.stream k o.stream = some x → o.offered = 0 → o.word = .mact tbl a → ∃ s' y, exec (.matrixWordComplete k true) s = .next s' ∧
      (s'.cluster k).postQ = stillQueued s k rest ∧ s'.stream k o.stream = some y ∧ AList.get none y.tables tbl = some a) ∧
  (∀ (s : State) (k p t : Nat) (d : PostDesc) (o : MatrixOp) (rest : List MatrixOp) (x : Stream) (u : Task),
    (s.cluster k).postQ = o :: rest → (s.cluster k).arrayQ = [] → s.stream k o.stream = some x → o.offered = 0 →
    o.word = .mpost t 0 d → x.tile t = some p → s.task x.h = some u → d.dst + d.rows * d.dstr + 4 * d.cols ≤ u.granules.length * 4096 →
    d.dst + d.rows * d.dstr + 4 * d.cols ≤ 2 ^ 28 → 4 * d.cols ≤ d.dstr →
    ∃ s' u', exec (.matrixWordComplete k true) s = .next s' ∧ (s'.cluster k).postQ = stillQueued s k rest ∧ s'.task x.h = some u' ∧
      ∀ r j, r < d.rows → j < d.cols → Memory.readNat u'.scratch (d.dst + r * d.dstr + 4 * j) 4 =
        (if isNan32 (AList.get 0 (tileOf s k p).data (128 * (d.row0 + r) + j)) = true then 0x7FC00000
          else (AList.get 0 (tileOf s k p).data (128 * (d.row0 + r) + j)).toNat)) ∧
  ∀ (s : State) (k p t : Nat) (d : PostDesc) (o : MatrixOp) (rest : List MatrixOp) (x : Stream) (u : Task) (r : RankAcc) (v : Word),
    (s.cluster k).postQ = o :: rest → (s.cluster k).arrayQ = [] → s.stream k o.stream = some x → o.word = .mpost t 8 d →
    o.offered < d.rows * d.cols → x.tile t = some p → s.task x.h = some u → (u.gang d.rgang).accum d.racc = .rank r → r.int32 = false →
    v = AList.get 0 (tileOf s k p).data (128 * (d.row0 + o.offered / d.cols) + o.offered % d.cols) →
    ∃ s' u', exec (.routedOffer k) s = .next s' ∧ s'.task x.h = some u' ∧
      (s'.cluster k).postQ = { o with offered := o.offered + 1 } :: rest ∧
      (u'.gang d.rgang).accum d.racc = .rank (if r.nan v = true then { r with nans := min 4095 (r.nans + 1) }
        else r.insert (v, BitVec.ofNat 32 (d.ridx + o.offered % d.cols)))

/-! ## Accesses to other scratchpads -/

namespace Sys2Proof.Say

/-- The lanes of a remote word that take effect with lane `l`: those still to arrive, at the same core. -/
def together (s : State) (x : RemoteOp) (l : RemoteLane) : List RemoteLane :=
  x.lanes.filter fun m => decide (m.stage = 0) && s.localCore x.owner.task.1 m.addr == s.localCore x.owner.task.1 l.addr

/-- A lane of a remote atomic acts on the word at offset `off` of a task's scratchpad. -/
def ActsOn (s : State) (x : RemoteOp) (m : RemoteLane) (u off : Nat) : Prop :=
  s.localTarget x.owner.task.1 m.addr 4 true = .scratch u off

/-- The lane that `m` has become, which has read these bytes at its scratchpad. -/
def HasRead (s' : State) (x : RemoteOp) (m : RemoteLane) (bs : List Byte) : Prop :=
  ∃ y ∈ s'.remotes, y.id = x.id ∧ ∃ q ∈ y.lanes, q.lane = m.lane ∧ q.stage = 1 ∧ q.refused = m.refused ∧ q.result = bs

/-- What a remote atomic writes over the bytes that a lane has read. -/
def latomWrites (o : Nat) (m : RemoteLane) (bs : List Byte) : List Byte :=
  leBytes 4 (latomNew o (BitVec.ofNat 32 (leNat bs)) (m.data.getD 0 0) (m.data.getD 1 0)).toNat

/-- A lane of a remote store writes a byte of a task's scratchpad. -/
def Writes (s : State) (x : RemoteOp) (m : RemoteLane) (u a : Nat) : Prop :=
  ∃ off, s.localTarget x.owner.task.1 m.addr m.bytes.length true = .scratch u off ∧ off ≤ a ∧ a < off + m.bytes.length

end Sys2Proof.Say

/-- REMOTE_SCRATCHPAD_ACCESS performs the lanes of a word that one scratchpad receives as a whole, in ascending order (each lane of an atomic
reads what the one before it on the same word wrote), or notes each one's refusal; a reply writes a load's words, or an atomic's old value, to
the registers it names, full, or leaves a refused lane's as they were, and the last raises one PERM after the word for the lanes of the first
cause (log 30). The reply of an atomic on the task's own scratchpad takes the same event (log 22). -/
def Obligations.RemoteScratchpads : Prop :=
  (∀ (s : State) (op lane : Nat) (x : RemoteOp) (l : RemoteLane), s.remotes.find? (fun y => y.id == op) = some x →
    x.lanes.find? (fun y => y.lane == lane && decide (y.stage = 0)) = some l → (x.lanes.map RemoteLane.lane).Nodup →
    (x.kind = .store → ∃ s', exec (.remoteScratchpadAccess op lane) s = .next s' ∧ s'.mem = s.mem ∧
      (∀ pre m post u off k b t, together s x l = pre ++ m :: post → s.task u = some t →
        s.localTarget x.owner.task.1 m.addr m.bytes.length true = .scratch u off → m.bytes[k]? = some b →
        (∀ q ∈ post, ¬ Writes s x q u (off + k)) → ∃ t', s'.task u = some t' ∧ Memory.read t'.scratch (off + k) = b) ∧
      (∀ u t a, s.task u = some t → (∀ m ∈ together s x l, ¬ Writes s x m u a) →
        ∃ t', s'.task u = some t' ∧ Memory.read t'.scratch a = Memory.read t.scratch a) ∧
      ∀ m c, m ∈ together s x l → s.localTarget x.owner.task.1 m.addr m.bytes.length true = .bad c →
        ∃ y ∈ s'.remotes, y.id = x.id ∧ ∃ q ∈ y.lanes, q.lane = m.lane ∧ q.stage = 1 ∧ q.refused = c) ∧
    (∀ o, x.kind = .latom o → (∀ m ∈ x.lanes, m.addr % 4 = 0) →
      ∃ s', exec (.remoteScratchpadAccess op lane) s = .next s' ∧ s'.mem = s.mem ∧
      (∀ pre m post u off t, together s x l = pre ++ m :: post → s.task u = some t → ActsOn s x m u off →
        AList.get false t.scratchPoison (off / 4) = false → ∃ bs, HasRead s' x m bs ∧
          ((∀ q ∈ pre, ¬ ActsOn s x q u off) → bs = (List.range 4).map fun j => Memory.read t.scratch (off + j)) ∧
          (∀ p1 q p2, pre = p1 ++ q :: p2 → ActsOn s x q u off → (∀ k ∈ p2, ¬ ActsOn s x k u off) →
            ∃ cs, HasRead s' x q cs ∧ bs = latomWrites o q cs) ∧
          ((∀ q ∈ post, ¬ ActsOn s x q u off) → ∃ t', s'.task u = some t' ∧
            (List.range 4).map (fun j => Memory.read t'.scratch (off + j)) = latomWrites o m bs)) ∧
      (∀ u t a, s.task u = some t → (∀ m ∈ together s x l, ¬ ActsOn s x m u (a / 4 * 4)) →
        ∃ t', s'.task u = some t' ∧ Memory.read t'.scratch a = Memory.read t.scratch a) ∧
      ∀ m c, m ∈ together s x l → s.localTarget x.owner.task.1 m.addr 4 true = .bad c →
        ∃ y ∈ s'.remotes, y.id = x.id ∧ ∃ q ∈ y.lanes, q.lane = m.lane ∧ q.stage = 1 ∧ q.refused = c) ∧
    (∀ n, x.kind = .load n → ∃ s', exec (.remoteScratchpadAccess op lane) s = .next s' ∧ s'.tasks = s.tasks ∧ s'.mem = s.mem ∧
      ∀ m u off t, m ∈ together s x l → s.localTarget x.owner.task.1 m.addr n false = .scratch u off → s.task u = some t →
        ∃ y ∈ s'.remotes, y.id = x.id ∧ ∃ q ∈ y.lanes, q.lane = m.lane ∧ q.stage = 1 ∧
          q.result = (List.range n).map (fun j => Memory.read t.scratch (off + j)))) ∧
  ∀ (s : State) (op lane h g n : Nat) (x : RemoteOp) (l : RemoteLane) (t : Task), s.remotes.find? (fun y => y.id == op) = some x →
    x.lanes.find? (fun y => y.lane == lane && decide (y.stage = 1)) = some l → x.owner = .gang h g → s.task h = some t →
    x.kind = .load n ∨ ((∃ o, x.kind = .latom o) ∧ n = 4) →
    (l.refused = 0 → l.poisoned = false → l.dst.Nodup → n % 4 = 0 → l.dst.length = n / 4 → ∃ s' t',
      exec (.remoteScratchpadReply op lane) s = .next s' ∧ s'.task h = some t' ∧
        ∀ k p, l.dst[k]? = some p →
          AList.get 0 ((t'.gang g).thread lane).stack p = BitVec.ofNat 32 (leNat ((l.result.drop (4 * k)).take 4)) ∧
          AList.get .full ((t'.gang g).thread lane).rstate p = .full) ∧
    (l.refused ≠ 0 → ∃ s' t', exec (.remoteScratchpadReply op lane) s = .next s' ∧ s'.task h = some t' ∧
      (t'.gang g).frontier = (t.gang g).frontier ∧
      ∀ p, AList.get 0 ((t'.gang g).thread lane).stack p = AList.get 0 ((t.gang g).thread lane).stack p) ∧
    ∀ m, x.lanes.find? (fun y => decide (y.refused ≠ 0)) = some m → (∀ q ∈ x.lanes, q.lane = lane ∨ q.stage = 2) →
      (t.gang g).record.busy = false → ∃ s' t', exec (.remoteScratchpadReply op lane) s = .next s' ∧ s'.task h = some t' ∧
        (t'.gang g).record.kind = 4 ∧ (t'.gang g).record.detail = BitVec.ofNat 32 (256 + m.refused) ∧
        (t'.gang g).record.addr = BitVec.ofNat 64 m.addr ∧
        ∀ j, j < 32 → ((t'.gang g).record.mask.getLsbD j = true ↔ ∃ q ∈ x.lanes, q.lane = j ∧ q.refused = m.refused)

/-! ## Experts -/

namespace Sys2Proof.Say

/-- The guard of an expert word. -/
def expertGuard : Instr → Option (BitVec 3)
  | .ecnt w => some w.c
  | .rtlook w => some w.c
  | .rtpin w => some w.c
  | .rtunpin w => some w.c
  | .rtmerge w => some w.c
  | _ => none

/-- A command has been sent: it stands in flight for its gang. -/
def Sent (s s' : State) (h g : Nat) (e : Entry) (t : Task) (op : ExpertOp) (d : Nat) : Prop :=
  ∃ x, s'.experts = s.experts ++ [x] ∧ x.owner = .gang h g ∧ x.op = op ∧ x.d = d ∧ x.ctx = t.ctx ∧ x.die = hDie h ∧ x.pc = e.pc ∧
    x.mask = e.mask ∧ x.reply = none ∧ x.id = s.nextId

/-- A command in flight whose arrival is to come, and the context slot that serves it, whose memory is awake. -/
def Arriving (s : State) (id j : Nat) (x : ExpertCmd) : Prop :=
  s.experts.find? (fun y => y.id == id && y.reply.isNone) = some x ∧ x.id = id ∧ s.placeSlot x.ctx = some j ∧ s.slotAwake j = true

/-- Its reply. -/
def Answered (s' : State) (x : ExpertCmd) (lo hi : Word) (cause : Nat) : Prop :=
  ∀ y ∈ s'.experts, y.id = x.id → y.reply = some (lo, hi, cause)

end Sys2Proof.Say

/-- ECNT, RTLOOK, RTPIN, RTUNPIN send a command, of a context with an enabled slot alone: any other is PERM cause 40; reserved operand bits
are cause 42, a ninth pin and an unpin of a generation the task does not hold cause 43. RTMERGE of a good descriptor and a live generation
starts a merge of the copies that are not withdrawn; a malformed descriptor is cause 44, a generation that is not live cause 41, and copy
records where no memory is cause 5. That these records hold address 0, and which copies a merge takes, are the model's choices (logs 47, 48,
68). -/
def Sys2Proof.Say.ExpertWords : Prop :=
  (∀ i c, expertGuard i = some c → ∀ (s : State) (h g : Nat) (e : Entry) (t : Task), IssuesFreely s h g e t →
    (t.gang g).cbit c.toNat = true → e.st.issued = false → s.placeSlot t.ctx = none →
    exec i s = .next ((issued s).raise h g (.uniform 4 e.pc e.mask 40 0) e)) ∧
  (∀ (s : State) (h g j : Nat) (e : Entry) (t : Task), IssuesFreely s h g e t → e.st = .ready → s.placeSlot t.ctx = some j →
    (∀ (w : UDA) (v : Word), (t.gang g).cbit w.c.toNat = true → v = (t.gang g).sreg w.a.toNat → if v.toNat < 2 ^ 13
      then ∃ s', exec (.ecnt w) s = .next s' ∧ Sent s s' h g e t (.ecnt (v.toNat % 4096) (v.getLsbD 12)) w.d.toNat ∧
        entries s' h g = entries s h g ++ [{ e with st := .stall (.reply s.nextId) }]
      else exec (.ecnt w) s = .next ((issued s).raise h g (.uniform 4 e.pc e.mask 42 0) e)) ∧
    (∀ (w : UR) (v u : Word), (t.gang g).cbit w.c.toNat = true → v = (t.gang g).sreg w.a.toNat → u = (t.gang g).sreg w.b.toNat →
      (v.toNat / 4096 % 16 = 0 → u.toNat < 65536 → ∃ s', exec (.rtlook w) s = .next s' ∧
        Sent s s' h g e t (.look (v.toNat % 4096) (v.toNat / 65536) u.toNat) w.d.toNat ∧
        entries s' h g = entries s h g ++ [{ e with st := .stall (.reply s.nextId) }]) ∧
      (v.toNat / 4096 % 16 ≠ 0 ∨ 65536 ≤ u.toNat → exec (.rtlook w) s =
        .next ((issued s).raise h g (.uniform 4 e.pc e.mask 42 0) e))) ∧
    (∀ (w : UD), (t.gang g).cbit w.c.toNat = true → if s.pinCount h < 8
      then ∃ s', exec (.rtpin w) s = .next s' ∧ Sent s s' h g e t .pin w.d.toNat ∧
        entries s' h g = entries s h g ++ [{ e with st := .stall (.reply s.nextId) }]
      else exec (.rtpin w) s = .next ((issued s).raise h g (.uniform 4 e.pc e.mask 43 0) e)) ∧
    ∀ (w : UA) (v : Word), (t.gang g).cbit w.c.toNat = true → v = (t.gang g).sreg w.a.toNat →
      if 65536 ≤ v.toNat then exec (.rtunpin w) s = .next ((issued s).raise h g (.uniform 4 e.pc e.mask 42 0) e)
      else if v.toNat ∈ t.pins then (t.gang g).counters.rg < 63 → ∃ s' t', exec (.rtunpin w) s = .next s' ∧
          Sent s s' h g e t (.unpin v.toNat) 0 ∧ s'.task h = some t' ∧ t'.pins = t.pins.erase v.toNat ∧ wentOn t t' g e ∧
          (t'.gang g).counters.rg = (t.gang g).counters.rg + 1
        else exec (.rtunpin w) s = .next ((issued s).raise h g (.uniform 4 e.pc e.mask 43 0) e)) ∧
  ∀ (w : UA) (s s1 : State) (h g j p i : Nat) (e : Entry) (t : Task) (ds : List Nat), IssuesFreely s h g e t →
    (t.gang g).cbit w.c.toNat = true → e.st.issued = false → s.placeSlot t.ctx = some j → s.slotAwake j = true → p = s.spair (.gang h g) w.a.toNat → p % 64 = 0 →
    (t.gang g).counters.rg < 63 → (issued s).readDwords h g p 8 = (.ok ds, s1) →
    (mergeBad (s.engine.slot j).nexp ds = true → exec (.rtmerge w) s = .next (s1.raise h g (.uniform 4 e.pc e.mask 44 p) e)) ∧
    (mergeBad (s.engine.slot j).nexp ds = false → (∀ k, k < 3 → ((s.engine.slot j).genAt k).st = .free ∨
        ((s.engine.slot j).genAt k).gen ≠ (mergeDescOf ds).gen) →
      exec (.rtmerge w) s = .next (s1.raise h g (.uniform 4 e.pc e.mask 41 0) e)) ∧
    (mergeBad (s.engine.slot j).nexp ds = false → (s.engine.slot j).liveSlotOf (mergeDescOf ds).gen = some i →
      (s.engine.slot j).recsIn i (mergeDescOf ds).expert = false →
      exec (.rtmerge w) s = .next (s1.raise h g (.uniform 4 e.pc e.mask 5 0) e)) ∧
    (mergeBad (s.engine.slot j).nexp ds = false → (s.engine.slot j).liveSlotOf (mergeDescOf ds).gen = some i →
      (s.engine.slot j).recsIn i (mergeDescOf ds).expert = true →
      ∃ s' t' m, exec (.rtmerge w) s = .next s' ∧ s'.task h = some t' ∧ wentOn t t' g e ∧ s'.merges = s1.merges ++ [m] ∧
      m.count = (mergeDescOf ds).count ∧ m.copies = ((s1.copiesOf (s.engine.slot j) i (mergeDescOf ds).expert).filter fun q =>
        !q.2.withdrawn).map (fun q => (q.2.base + (mergeDescOf ds).goff) % 2 ^ 64) ∧
      m.primary = ((s1.copyRec (s.engine.slot j) i (mergeDescOf ds).expert 0).base + (mergeDescOf ds).goff) % 2 ^ 64 ∧
      (t'.gang g).counters.rg = (t.gang g).counters.rg + 1)

/-- EXPERT_COMMAND_ARRIVAL: ECNT answers the saturated sum of LAST, or WINSEQ; RTLOOK adds its tokens to CUR, saturating, and moves the
rotation on, or is refused with cause 5 where its copy records lie where no memory is; RTPIN takes a reference on the current generation,
RTUNPIN drops one. The reply writes s[d] and goes on, or faults; a merge performs its elements, then gives its notices, each after its
release, and at the last is gone and lowers RG. Address 0 of these records, and a merge's elements at one event, are the model's choices
(logs 47, 14, 68). -/
def Sys2Proof.Say.ExpertCommands : Prop :=
  (∀ (s : State) (id j n : Nat) (x : ExpertCmd) (sel : Bool), Arriving s id j x → x.op = .ecnt n sel →
    ∃ s', exec (.expertCommandArrival id) s = .next s' ∧ s' = { s with experts := s'.experts } ∧
      (n < (s.engine.slot j).nexp → Answered s' x (if sel = true then (s.die x.die).winSeq else
        BitVec.ofNat 32 (min 0xFFFFFFFF (s.lastSum (s.engine.slot j) n))) 0 0) ∧
      ((s.engine.slot j).nexp ≤ n → Answered s' x 0 0 42)) ∧
  (∀ (s : State) (id j n k gen i : Nat) (x : ExpertCmd), Arriving s id j x → x.op = .look n k gen → n < (s.engine.slot j).nexp →
    (s.engine.slot j).slotOfGen gen = some i →
    ((s.engine.slot j).recsIn i n = false → ∃ s', exec (.expertCommandArrival id) s = .next s' ∧ s' = { s with experts := s'.experts } ∧
      Answered s' x 0 0 5) ∧
    ((s.engine.slot j).recsIn i n = true → inHome ((s.engine.slot j).cell x.die n) 4 = true →
    ∃ s', exec (.expertCommandArrival id) s = .next s' ∧ Memory.readNat s'.mem ((s.engine.slot j).cell x.die n) 4 =
        min 0xFFFFFFFF (Memory.readNat s.mem ((s.engine.slot j).cell x.die n) 4 + k) ∧
      AList.get 0 (s'.die x.die).rot (j * 4096 + n) = AList.get 0 (s.die x.die).rot (j * 4096 + n) + 1 ∧
      ∃ lo hi, Answered s' x lo hi 0)) ∧
  (∀ (s : State) (id j h g : Nat) (x : ExpertCmd) (t : Task), Arriving s id j x → x.op = .pin → x.owner = .gang h g → s.task h = some t →
    ∃ s' t', exec (.expertCommandArrival id) s = .next s' ∧ s'.task h = some t' ∧ t'.pins = t.pins ++ [(s.engine.slot j).gen] ∧
      ((s'.engine.slot j).genAt (s.engine.slot j).slot).refs = ((s.engine.slot j).genAt (s.engine.slot j).slot).refs + 1 ∧
      Answered s' x (BitVec.ofNat 32 (s.engine.slot j).gen) 0 0) ∧
  (∀ (s : State) (id j i gen : Nat) (x : ExpertCmd), Arriving s id j x → x.op = .unpin gen →
    (s.engine.slot j).slotOfGen gen = some i → 1 < ((s.engine.slot j).genAt i).refs →
    ∃ s', exec (.expertCommandArrival id) s = .next s' ∧ ((s'.engine.slot j).genAt i).refs = ((s.engine.slot j).genAt i).refs - 1 ∧
      Answered s' x 0 0 0) ∧
  (∀ (s : State) (id h g n : Nat) (sel : Bool) (x : ExpertCmd) (e : Entry) (lo hi : Word) (cause : Nat) (t : Task),
    s.experts.find? (fun y => y.id == id) = some x → x.id = id → x.owner = .gang h g → x.op = .ecnt n sel → x.reply = some (lo, hi, cause) →
    s.task h = some t → (t.gang g).frontier.find? (fun y => y.st == .stall (.reply id)) = some e → e.mask ≠ 0 →
    e.pc.toNat % 8192 ≠ 0x1FFC → (t.gang g).record.busy = false →
    ∃ s' t', exec (.expertCommandReply id) s = .next s' ∧ s'.task h = some t' ∧ s'.experts = s.experts.filter (fun y => y.id != id) ∧
      (cause = 0 → (t'.gang g).sreg x.d = (if x.d = 0 then 0 else lo) ∧ readyAt (e.pc + 4) e.pri e.mask ∈ (t'.gang g).frontier) ∧
      (cause ≠ 0 → (t'.gang g).record.kind = 4 ∧ (t'.gang g).record.detail = BitVec.ofNat 32 cause ∧ (t'.gang g).s = (t.gang g).s)) ∧
  ∀ (s s1 : State) (id h g : Nat) (m : Merge) (t : Task) (r : State × BkSum), s.merges.find? (fun y => y.id == id) = some m →
    m.owner = .gang h g → s.task h = some t →
    (m.fin = none → s.mergeAwake m = true → s.asleepTable m.ctx = none → m.check s = (none, s1) →
      r = (List.range m.count).foldl m.elem (s1, BkSum.zero) → r.2.denials = 0 →
      r.1.unitReleased m.owner 5 r.1.nextId = false → ∃ s', exec (.rtmergeComplete id) s = .next s' ∧ s'.mem = r.1.mem ∧
        s'.merges = s.merges.map (fun y => if y.id = id
          then { y with fin := some { stage := 0, word := r.2.word + m.copies.length * 2 ^ 28, upto := r.1.nextId } } else y)) ∧
    ∀ f, m.fin = some f → f.stage = 2 → s.unitReleased m.owner 5 f.upto = true →
      ∃ s' t', exec (.rtmergeComplete id) s = .next s' ∧ s'.task h = some t' ∧ s'.mem = s.mem ∧
        s'.merges = s.merges.filter (fun y => y.id != id) ∧ (t'.gang g).counters.rg = (t.gang g).counters.rg - 1

/-- The placement engine: a window's close goes to every die and there moves CUR to LAST; an evaluation closes its window; a generation
whose copies are made becomes current and PUB names it; one given up, a withdrawn replica, are counted, and reading the counts clears them.
That the two counts rise modulo 2^32 is the model's choice (log 47). -/
def Obligations.PlacementEngine : Prop :=
  (∀ s : State, s.engine.en = true → ∃ s', exec .windowClose s = .next s' ∧ s'.engine.closesSent = s.engine.closesSent + 1 ∧
    ∀ d, d < 4 → (s'.die d).closing = (s.die d).closing + 1) ∧
  (∀ (s : State) (d j n : Nat), 0 < (s.die d).closing → s.engineAwake = true → j < 16 → (s.engine.slot j).cen = true → n < (s.engine.slot j).nexp →
    (∀ i, i < 16 → i ≠ j → (s.engine.slot i).cen = false) → inHome ((s.engine.slot j).cell d n) 8 = true →
    ∃ s', exec (.windowCloseReceived d) s = .next s' ∧ (s'.die d).winSeq = (s.die d).winSeq + 1 ∧
      (s'.die d).closing = (s.die d).closing - 1 ∧ Memory.readNat s'.mem ((s.engine.slot j).cell d n) 4 = 0 ∧
      Memory.readNat s'.mem ((s.engine.slot j).cell d n + 4) 4 = Memory.readNat s.mem ((s.engine.slot j).cell d n) 4) ∧
  (∀ s : State, s.engine.en = true → s.engine.freeze = true → s.engineAwake = true →
    (∀ d, d < 4 → s.engine.evaluated + (s.die d).closing < s.engine.closesSent) → ∃ s', exec .placementEvaluation s = .next s' ∧
      s'.engine.evaluated = s.engine.evaluated + 1 ∧ s'.engine.slots = s.engine.slots ∧ s'.mem = s.mem) ∧
  (∀ (s : State) (j i : Nat) (x : PlaceSlot), x = s.engine.slot j → s.slotAwake j = true → j < 16 → i < 3 → (x.genAt i).st = .building →
    (∀ k, k < 3 → k ≠ i → (x.genAt k).st ≠ .building) → x.slot ≠ i → 1 < (x.genAt x.slot).refs →
    inHome x.tbl 8 = true → (∀ k, k < 8 → s.aliasAt (x.tbl + k) = none) → x.epoch < 65536 →
    (x.adds = [] → ∃ s', exec (.generationPublish j) s = .next s' ∧ ((s'.engine.slot j).genAt i).st = .current ∧
      ((s'.engine.slot j).genAt x.slot).st = .draining ∧ (s'.engine.slot j).gen = (x.genAt i).gen ∧ (s'.engine.slot j).slot = i ∧
      Memory.readNat s'.mem x.tbl 8 = ((x.genAt i).gen + i * 2 ^ 16 + x.epoch * 2 ^ 32) % 2 ^ 64) ∧
    (x.adds ≠ [] → ∃ s', exec (.generationCopyFail j) s = .next s' ∧ ((s'.engine.slot j).genAt i).st = .free ∧
      s'.engine.cpyfail = (s.engine.cpyfail + 1) % 2 ^ 32 ∧ (s'.engine.slot j).gen = x.gen) ∧
    (x.adds = [] → exec (.generationCopyFail j) s = .next s)) ∧
  (∀ (s : State) (j n c i : Nat) (x : PlaceSlot), x = s.engine.slot j → s.slotAwake j = true → 0 < c → c < 4 → x.cen = true → n < x.nexp → x.liveSlots = [i] →
    (s.copyRec x i n c).valid = true → (s.copyRec x i n c).withdrawn = false →
    (s.die (ownerDie (s.copyRec x i n c).home)).online = false → s.aliasAt (x.recAt i n c + 9) = none → (∀ k, k < 8 →
      s.aliasAt (x.tbl + k) = none) →
    (x.recAt i n c + 9 < x.tbl ∨ x.tbl + 8 ≤ x.recAt i n c + 9) → ∃ s', exec (.replicaWithdraw j n c) s = .next s' ∧
      s'.engine.wdraw = (s.engine.wdraw + 1) % 2 ^ 32 ∧ (s'.engine.slot j).epoch = (x.epoch + 1) % 65536 ∧
      Memory.readNat s'.mem (x.recAt i n c + 9) 1 = (s.copyRec x i n c).flags ||| 2) ∧
  ∀ s : State, (∃ s', exec .cpyfailRead s = .next s' ∧ s'.readData = BitVec.ofNat 64 s.engine.cpyfail ∧ s'.engine.cpyfail = 0 ∧
      s'.engine.wdraw = s.engine.wdraw) ∧
    ∃ s', exec .wdrawRead s = .next s' ∧ s'.readData = BitVec.ofNat 64 s.engine.wdraw ∧ s'.engine.wdraw = 0 ∧
      s'.engine.cpyfail = s.engine.cpyfail

/-! ## Rings -/

namespace Sys2Proof.Say

/-- A ring command in flight for its ring, which is open to it. -/
structure AtRing (s : State) (id d n h g : Nat) (x : RingCmd) (r : Ring) : Prop where
  found : s.ringCmds.find? (fun y => y.id == id && y.reply.isNone) = some x
  id : x.id = id
  owner : x.owner = .gang h g
  die : d = x.ring.toNat / 64 % 4
  num : n = x.ring.toNat % 64
  ring : r = s.ring d n
  enabled : r.en = true
  ctx : r.ctx = x.ctx
  alive : r.dead = false
  near : r.scope ≠ 4 ∨ x.fromDie = d

/-- The ring's reply: c[m], the value, the cause. -/
def RingSays (s' : State) (id : Nat) (ok : Bool) (v : Word) (cause : Nat) : Prop :=
  ∀ y ∈ s'.ringCmds, y.id = id → y.reply = some (ok, v, cause)

end Sys2Proof.Say

/-- RCLAIM, RTAKE, RPUB and RFREE send a command, counted in RG: the first two stall for the reply, the others are releases at the ring's
SCOPE (RFREE waits for the gang's loads too; that RPUB waits for none is the model's reading, log 27) and go on, with the ring and the
position read at issue; reserved bits of s[a] are RING cause 1. -/
def Sys2Proof.Say.RingWords : Prop :=
  (∀ (w : URing) (take : Bool) (s : State) (h g : Nat) (e : Entry) (t : Task) (v : Word), IssuesFreely s h g e t → e.st = .ready →
    (t.gang g).cbit w.c.toNat = true → v = (t.gang g).sreg w.a.toNat →
    (256 ≤ v.toNat → exec (if take then .rtake w else .rclaim w) s =
      .next ((issued s).raise h g (.uniform 13 e.pc e.mask 1 v.toNat) e)) ∧
    (v.toNat < 256 → (t.gang g).counters.rg < 63 → ∃ s' t' x, exec (if take then .rtake w else .rclaim w) s = .next s' ∧
      s'.task h = some t' ∧
      s'.ringCmds = s.ringCmds ++ [x] ∧ x.op = (if take then .take else .claim) ∧ x.ring = v ∧ x.arg = (t.gang g).sreg w.b.toNat ∧
      x.d = w.d.toNat ∧ x.m = w.m.toNat ∧ x.owner = .gang h g ∧ x.fromDie = hDie h ∧ x.reply = none ∧
      (t'.gang g).frontier = (t.gang g).frontier ++ [{ e with st := .stall (.reply x.id) }] ∧
      (t'.gang g).counters.rg = (t.gang g).counters.rg + 1)) ∧
  (∀ (w : UAB) (free : Bool) (s : State) (h g scope n : Nat) (e : Entry) (t : Task) (v arg : Word), IssuesFreely s h g e t →
    e.st = .stall (if free then .free v arg scope n else .publish v arg scope n) →
    (if free = true then s.releaseDone (.gang h g) scope n else s.writesVisible (.gang h g) (hCore h) (hDie h) scope n) = true →
    ∃ s' t' x, exec (if free then .rfree w else .rpub w) s = .next s' ∧ s'.task h = some t' ∧ wentOn t t' g e ∧
      s'.ringCmds = s.ringCmds ++ [x] ∧ x.op = (if free then .free else .pub) ∧ x.ring = v ∧ x.arg = arg ∧
      x.owner = .gang h g ∧ x.reply = none ∧ (t'.gang g).counters.rg = (t.gang g).counters.rg + 1) ∧
  ∀ (w : UAB) (free : Bool) (s : State) (h g : Nat) (e : Entry) (t : Task) (v : Word), IssuesFreely s h g e t → e.st.issued = false →
    (t.gang g).cbit w.c.toNat = true → v = (t.gang g).sreg w.a.toNat → v.toNat < 256 → (t.gang g).counters.rg < 63 →
    (if free = true then s.releaseDone (.gang h g) (s.ring (v.toNat / 64 % 4) (v.toNat % 64)).scope (s.upto e)
      else s.writesVisible (.gang h g) (hCore h) (hDie h) (s.ring (v.toNat / 64 % 4) (v.toNat % 64)).scope (s.upto e)) = true →
    ∃ s' t' x, exec (if free then .rfree w else .rpub w) s = .next s' ∧ s'.task h = some t' ∧ wentOn t t' g e ∧
      s'.ringCmds = s.ringCmds ++ [x] ∧ x.op = (if free then .free else .pub) ∧ x.ring = v ∧ x.arg = (t.gang g).sreg w.b.toNat ∧
      x.owner = .gang h g ∧ x.reply = none ∧ (t'.gang g).counters.rg = (t.gang g).counters.rg + 1

/-- RING_COMMAND_ARRIVAL: a claim of n slots that the ring has free moves CLAIM on and answers its first position, one that it has not
answers status 1, a take likewise against PUBP; a publish of the oldest claim moves PUBP over it and every published claim behind it, that
of a later one is only noted, and frees move FREEP in the same way; a ring that is disabled or another context's refuses with cause 1, a
dead one answers status 2. The order of these checks is the model's choice (log 49). -/
def Sys2Proof.Say.RingCommands : Prop :=
  (∀ (s : State) (id d n h g : Nat) (x : RingCmd) (r : Ring), AtRing s id d n h g x r → 0 < x.arg.toNat → x.arg.toNat ≤ 2 ^ r.logn →
    (x.op = .claim → r.claims.length < 64 → ((r.claim + x.arg - r.freep).toNat ≤ 2 ^ r.logn →
      ∃ s', exec (.ringCommandArrival id) s = .next s' ∧
        s'.ring d n = { r with claim := r.claim + x.arg, claims := r.claims ++ [⟨r.claim, x.arg.toNat, h, false⟩] } ∧
        RingSays s' id true r.claim 0) ∧
      (2 ^ r.logn < (r.claim + x.arg - r.freep).toNat → ∃ s', exec (.ringCommandArrival id) s = .next s' ∧
        (∀ d' n', s'.ring d' n' = s.ring d' n') ∧ RingSays s' id false 1 0)) ∧
    (x.op = .take → r.takes.length < 64 → ((r.take + x.arg - r.pubp).toInt ≤ 0 → ∃ s', exec (.ringCommandArrival id) s = .next s' ∧
        s'.ring d n = { r with take := r.take + x.arg, takes := r.takes ++ [⟨r.take, x.arg.toNat, h, false⟩] } ∧
        RingSays s' id true r.take 0) ∧
      (0 < (r.take + x.arg - r.pubp).toInt → ∃ s', exec (.ringCommandArrival id) s = .next s' ∧
        (∀ d' n', s'.ring d' n' = s.ring d' n') ∧ RingSays s' id false 1 0))) ∧
  (∀ (s : State) (id d n h g : Nat) (x : RingCmd) (r : Ring) (c : RingHold) (pre run rest : List RingHold), AtRing s id d n h g x r →
    c.done = false → c.pos = x.arg → (∀ y ∈ pre ++ run ++ rest, y.pos ≠ x.arg) → (∀ y ∈ run, y.done = true) →
    (∀ y, pre.head? = some y → y.done = false) → (∀ y, rest.head? = some y → y.done = false) →
    (x.op = .pub → r.claims = pre ++ c :: run ++ rest → ∃ s', exec (.ringCommandArrival id) s = .next s' ∧ RingSays s' id true 0 0 ∧
      s'.ring d n = (if pre = [] then { r with pubp := r.pubp + BitVec.ofNat 32 ((c :: run).map RingHold.count).sum, claims := rest }
        else { r with claims := pre ++ { c with done := true } :: run ++ rest })) ∧
    (x.op = .free → r.takes = pre ++ c :: run ++ rest → ∃ s', exec (.ringCommandArrival id) s = .next s' ∧ RingSays s' id true 0 0 ∧
      s'.ring d n = (if pre = [] then { r with freep := r.freep + BitVec.ofNat 32 ((c :: run).map RingHold.count).sum, takes := rest }
        else { r with takes := pre ++ { c with done := true } :: run ++ rest }))) ∧
  (∀ (s : State) (id : Nat) (x : RingCmd) (r : Ring), s.ringCmds.find? (fun y => y.id == id && y.reply.isNone) = some x → x.id = id →
    r = s.ring (x.ring.toNat / 64 % 4) (x.ring.toNat % 64) →
    (r.en = false ∨ r.ctx ≠ x.ctx → ∃ s', exec (.ringCommandArrival id) s = .next s' ∧ s'.dies = s.dies ∧ RingSays s' id false 0 1) ∧
    (r.en = true → r.ctx = x.ctx → r.dead = true → ∃ s', exec (.ringCommandArrival id) s = .next s' ∧ s'.dies = s.dies ∧
      RingSays s' id false 2 0)) ∧
  ∀ (s : State) (id h g cause : Nat) (ok : Bool) (v : Word) (x : RingCmd) (e : Entry) (t : Task),
    s.ringCmds.find? (fun y => y.id == id) = some x → x.id = id → x.owner = .gang h g → x.reply = some (ok, v, cause) → x.op = .claim →
    s.task h = some t → (t.gang g).frontier.find? (fun y => y.st == .stall (.reply id)) = some e → e.mask ≠ 0 →
    e.pc.toNat % 8192 ≠ 0x1FFC → (t.gang g).record.busy = false →
    ∃ s' t', exec (.ringReply id) s = .next s' ∧ s'.task h = some t' ∧ s'.ringCmds = s.ringCmds.filter (fun y => y.id != id) ∧
      (t'.gang g).counters.rg = (t.gang g).counters.rg - 1 ∧
      (cause = 0 → (t'.gang g).sreg x.d = (if x.d = 0 then 0 else v) ∧ (t'.gang g).cbit x.m = (x.m == 0 || (decide (x.m < 8) && ok)) ∧
        readyAt (e.pc + 4) e.pri e.mask ∈ (t'.gang g).frontier) ∧
      (cause ≠ 0 → (t'.gang g).record.kind = 13 ∧ (t'.gang g).record.detail = BitVec.ofNat 32 cause ∧
        (t'.gang g).record.addr = BitVec.ofNat 64 x.ring.toNat)

/-- RING_ENABLE opens a ring with every position 0, or says why not in ENERR; RING_DISABLE sets the fields it carries and closes one that
is empty or dead; RING_DEAD ends its claims and takes. That an open ring keeps its reservation when its fields are written is the
model's choice (log 49). -/
def Sys2Proof.Say.RingStates : Prop :=
  (∀ (s : State) (d r : Nat) (v : DWord) (x : Ring), s.booted = true → d < 4 → r < 64 → (s.ring d r).en = false → v.getLsbD 0 = true →
    x = (s.ring d r).withFields v.toNat →
    (s.ringValid x = false → ∃ s', exec (.ringEnable d r v) s = .next s' ∧ s'.ring d r = { s.ring d r with enerr := 1 }) ∧
    (s.ringValid x = true → 2 ^ 25 < (s.die d).pinned + x.bytes → ∃ s', exec (.ringEnable d r v) s = .next s' ∧
      s'.ring d r = { s.ring d r with enerr := 2 }) ∧
    (s.ringValid x = true → (s.die d).pinned + x.bytes ≤ 2 ^ 25 → ∃ s', exec (.ringEnable d r v) s = .next s' ∧
      s'.ring d r = { x with
        en := true, dead := false, enerr := 0, claim := 0, pubp := 0, take := 0, freep := 0, claims := [], takes := [],
        reserved := 2 ^ x.logn * 2 ^ x.logsz })) ∧
  ∀ (s : State) (d r : Nat) (v : DWord), (s.ring d r).en = true →
    (v.getLsbD 0 = false → ((s.ring d r).dead = true ∨ (s.ring d r).claim = (s.ring d r).freep) →
      ∃ s', exec (.ringDisable d ⟨r, v⟩) s = .next s' ∧
        s'.ring d r = { (s.ring d r).withFields v.toNat with en := false, dead := false, reserved := 0 }) ∧
    (v.getLsbD 0 = false → (s.ring d r).dead = false → (s.ring d r).claim ≠ (s.ring d r).freep → exec (.ringDisable d ⟨r, v⟩) s = .next s) ∧
    ((s.ring d r).dead = false → ∃ s', exec (.ringDead d r) s = .next s' ∧
      s'.ring d r = { s.ring d r with dead := true, claims := [], takes := [] })

/-! ## Pre-emption, pages, errors -/

/-- PREEMPT_REQUEST stops a task that runs alone; PREEMPT_SAVE of one that is drained frees its slot and keeps its registers, scratchpad and
frontier; TASK_RESTORE places it again, to start once its segments land. A verdict that a handler returned meanwhile takes effect then: END,
or CONTINUE where no word remains, ends the task; else the lanes stand past the faulting word and the record is free. Which commands of the
task are awaited before it is saved is the model's choice (log 52). -/
def Obligations.Preemption : Prop :=
  (∀ (s : State) (h : Nat) (t : Task), s.task h = some t → t.fate = .alive → t.finished = false → t.phase = .running →
    t.ident.spanidx = none → ∃ s' t', exec (.preemptRequest h) s = .next s' ∧ s'.task h = some t' ∧ t'.phase = .stopping ∧
      t'.scratch = t.scratch ∧ ∀ g, (t'.gang g).threads = (t.gang g).threads ∧ (t'.gang g).s = (t.gang g).s) ∧
  (∀ (s : State) (h : Nat) (t : Task), s.task h = some t → h < 3072 → t.fate = .alive → t.phase = .stopping → t.ident.spanidx = none →
    s.drainedTask h t = true → ∃ s' t', exec (.preemptSave h) s = .next s' ∧ s'.task h = none ∧
      s'.task (h + 3072 * (s.nextId + 1)) = some t' ∧ t'.phase = .saved ∧ t'.scratch = t.scratch ∧ t'.variant = t.variant ∧
      t'.barriers = t.barriers ∧ t'.queues = t.queues ∧ ∀ g, (t'.gang g).threads = (t.gang g).threads ∧
        (t'.gang g).s = (t.gang g).s ∧ (t'.gang g).acc = (t.gang g).acc ∧ (t'.gang g).record = (t.gang g).record) ∧
  ∀ (s : State) (key c slot b : Nat) (t : Task), s.task key = some t → t.phase = .saved → t.fate = .alive → t.ident.spanidx = none →
    3072 ≤ key → t.streams = [] → s.restorable c t = true → s.freeSlot c = some slot → s.freeRun c t.variant.blocks = some b →
    s.streamsOf (handleOf c slot) = [] →
    ((∀ p ∈ t.gangs, p.2.verdict = none) → ∃ s' t', exec (.taskRestore key c) s = .next s' ∧ s'.task key = none ∧
      s'.task (handleOf c slot) = some t' ∧ t'.phase = .starting ∧
      t'.block0 = b ∧ t'.scratch = t.scratch ∧ t'.variant = t.variant ∧ ∀ g, (t'.gang g).threads = (t.gang g).threads ∧
        (t'.gang g).s = (t.gang g).s ∧ (t'.gang g).frontier = (t.gang g).frontier) ∧
    ∀ (g : Nat) (q : Gang) (go : Bool), t.gangs.filter (fun p => p.2.verdict.isSome) = [(g, q)] → t.gang g = q → q.verdict = some go →
      (go = false ∨ q.record.final = true → ∃ s' t', exec (.taskRestore key c) s = .next s' ∧ s'.task (handleOf c slot) = some t' ∧
        t'.fate = .fault ∧ t'.phase = .ending) ∧
      (go = true → q.record.final = false → q.held = [] → (∀ x ∈ q.frontier, x.st ≠ .parked .pastEnd) →
        (∀ x ∈ q.frontier, x.st = .parked .fault → x.pc.toNat % 8192 ≠ 0x1FFC) →
        ∃ s' t', exec (.taskRestore key c) s = .next s' ∧ s'.task (handleOf c slot) = some t' ∧ t'.phase = .starting ∧
          (t'.gang g).record.busy = false ∧ (t'.gang g).verdict = none ∧
          ∀ x ∈ q.frontier, x.st = .parked .fault → readyAt (x.pc + 4) x.pri x.mask ∈ (t'.gang g).frontier)

/-- A shootdown that is complete leaves no TLB entry and no L1 line of its range. A page moves by MIG, a copy to the new frame, FRAME in each
slot, with MIG clear where it has one slot and cleared in each after the next shootdown where it has several, and is over after its last
shootdown; an abort clears MIG. The bytes copied are those that the old home returns at MOVE_COPY_DONE, alias bytes decoded, and the aborts of a die are counted (log 53). -/
def Obligations.ShootdownsAndMoves : Prop :=
  (∀ (s : State) (sd : Nat) (x : Shoot), s.shoots.find? (fun y => y.id == sd) = some x → s.shootWaits x = false →
    (x.reply.isSome = true → s.lehr.level ≠ 4) →
    ∃ s', exec (.shootdownComplete sd) s = .next s' ∧ s'.shoots = s.shoots.filter (fun y => y.id != sd) ∧
      (∀ k, ∀ e ∈ (s'.cluster k).tlb, x.hits e.ctx e.vbase (pageBytes e.leaf.toNat) = false) ∧
      (∀ c, ∀ l ∈ (s'.core c).l1, x.hits l.ctx (128 * l.vline) 128 = false) ∧
      ∀ a, x.reply = some a → a < 2 ^ 47 → inHome (16 * 2 ^ 47 + a) 4 = true → Memory.readNat s'.mem (16 * 2 ^ 47 + a) 4 = 0) ∧
  (∀ (s : State) (d ctx va frame e slot : Nat), s.asleepTable ctx = none → s.walk ctx va = .leaf e slot → d < 4 → ownerDie (homeOf (pteFrame e * 4096)) = d →
    homeOf (pteFrame e * 4096) ≤ 15 → pteMig e = false → frame % pageBytes e = 0 → inHome frame (pageBytes e) = true →
    (∀ y ∈ (s.die d).moves, y.id ≠ s.nextId) →
    ((s.die d).evacuating = true → s.takesPage d (pageBytes e) (homeOf frame) = true) →
    ∃ s' m, exec (.pageMoveRequest d ctx va frame) s = .next s' ∧ (s'.die d).moves = (s.die d).moves ++ [m] ∧ m.st = .protect ∧
      m.old = pteFrame e * 4096 ∧ m.new = frame ∧ m.size = pageBytes e ∧ m.slots = pageSlots e slot ∧
      ∃ x ∈ s'.shoots, x.id = m.sd ∧ x.ctx = ctx ∧ x.len = pageBytes e) ∧
  (∀ (s : State) (d m : Nat) (x : PageMove), s.pageMove d m = some x → x.id = m → s.moveAwake x = true → 1 < x.slots.length →
    x.slots.Pairwise (fun a b => Apart a 8 b 8) →
    (x.st = .copy → (∀ a ∈ x.slots, Apart a 8 x.new x.size) → x.size % 128 = 0 → (∀ j, j < x.size → s.aliasAt (x.new + j) = none) →
      ∃ s' y, exec (.moveCopyDone d m) s = .next s' ∧ s'.pageMove d m = some y ∧ y.st = .commit ∧
      ∀ a ∈ x.slots, Memory.readNat s'.mem a 8 = setFrame x.new (Memory.readNat s.mem a 8) % 2 ^ 64) ∧
    (x.st = .copy → ∃ s' y, exec (.moveCopyAbort d m) s = .next s' ∧ s'.pageMove d m = some y ∧ y.st = .abort ∧
      ∀ a ∈ x.slots, Memory.readNat s'.mem a 8 = clearMig (Memory.readNat s.mem a 8)) ∧
    (x.st = .commit → s.moveShot x = true → ∃ s' y, exec (.moveCommitDone d m) s = .next s' ∧ s'.pageMove d m = some y ∧ y.st = .release ∧
      ∀ a ∈ x.slots, Memory.readNat s'.mem a 8 = clearMig (Memory.readNat s.mem a 8))) ∧
  (∀ (s : State) (d m a : Nat) (x : PageMove), s.pageMove d m = some x → x.id = m → s.moveAwake x = true → x.slots = [a] →
    (x.st = .protect → s.moveShot x = true →
      (s.writes.any fun w => w.lanes.any fun y => decide (y.stage < 2) && meets y.pa y.data.length x.old x.size) = false →
      ∃ s', exec (.moveProtectDone d m) s = .next s' ∧ s'.pageMove d m = some { x with st := .copy } ∧ s'.mem = s.mem) ∧
    (x.st = .copy → Apart a 8 x.new x.size → Apart x.old x.size x.new x.size → x.size % 128 = 0 →
      (∀ j, j < x.size → s.aliasAt (x.new + j) = none) → (∀ j w off, j < x.size → s.aliasAt (x.old + j) = some (w, off) →
        Apart (w.blockAt (homeOf (x.old + j)) off) w.blockBytes x.new x.size) → ∃ s' y, exec (.moveCopyDone d m) s = .next s' ∧
      s'.pageMove d m = some y ∧ y.st = .commit ∧ y.new = x.new ∧
      (∀ j, j < x.size → Memory.read s'.mem (x.new + j) = (s.homeByte (x.old + j)).1) ∧
      Memory.readNat s'.mem a 8 = clearMig (setFrame x.new (Memory.readNat s.mem a 8)) % 2 ^ 64) ∧
    (x.st = .copy → ∃ s' y, exec (.moveCopyAbort d m) s = .next s' ∧ s'.pageMove d m = some y ∧ y.st = .abort ∧
      (s'.die d).aborts = (s.die d).aborts + 1 ∧ Memory.readNat s'.mem a 8 = clearMig (Memory.readNat s.mem a 8)) ∧
    (x.st = .commit → s.moveShot x = true → ∃ s' y, exec (.moveCommitDone d m) s = .next s' ∧ s'.pageMove d m = some y ∧ y.st = .release ∧
      Memory.readNat s'.mem a 8 = clearMig (Memory.readNat s.mem a 8)) ∧
    (x.st = .release ∨ x.st = .abort → s.moveShot x = true → ∃ s', exec (.moveIdle d m) s = .next s' ∧ s'.pageMove d m = none ∧
      ∀ h t g, s.task h = some t → ∀ y ∈ entries s' h g, y.st ≠ .migration))

/-- A format window opens if its ranges are good, else its EN stays 0. System software's write changes its bytes. A corrected error is
counted; an uncorrectable one poisons the word, and no data changes. Where an error strikes is the event's argument (log 57). That a refused
enable keeps the FMT written with it is the model's choice (log 50). -/
def Obligations.WindowsAndErrors : Prop :=
  (∀ (s : State) (d n : Nat) (v : DWord) (w : FmtWindow), s.booted = true → d < 4 → n < 8 →
    w = AList.get FmtWindow.reset (s.die d).windows n →
    w.en = false → v.getLsbD 0 = true → ∃ s', exec (.formatWindowEnable d n v) s = .next s' ∧
      AList.get FmtWindow.reset (s'.die d).windows n = { w with
        fmt := v.toNat / 16 % 16,
        en := FmtWindow.ok { w with fmt := v.toNat / 16 % 16 } d (((List.range 8).filter fun i => i != n).map fun i =>
          AList.get FmtWindow.reset (s.die d).windows i) }) ∧
  (∀ (s : State) (pa : Nat) (data : List Byte), inHome pa data.length = true → s.awake pa = true →
    (∀ k, k < data.length → s.aliasAt (pa + k) = none) →
    ∃ s', exec (.systemSoftwareMemoryWrite pa data) s = .next s' ∧ (∀ k b, data[k]? = some b → Memory.read s'.mem (pa + k) = b) ∧
      ∀ a, a < pa ∨ pa + data.length ≤ a → Memory.read s'.mem a = Memory.read s.mem a) ∧
  (∀ (s : State) (d : Nat), ∃ s', exec (.correctedError d) s = .next s' ∧ (s'.die d).corrected = (s.die d).corrected + 1 ∧ s'.mem = s.mem ∧
    s'.tasks = s.tasks ∧ s'.memPoison = s.memPoison) ∧
  (∀ (s : State) (n : Nat), ∃ s', exec (.uncorrectableError (.memory n)) s = .next s' ∧ AList.get false s'.memPoison n = true ∧
    s'.mem = s.mem ∧ s'.tasks = s.tasks) ∧
  ∀ (s : State) (h g lane p : Nat) (t : Task), s.task h = some t → ∃ s' t', exec (.uncorrectableError (.register h g lane p)) s = .next s' ∧
    s'.task h = some t' ∧ AList.get false ((t'.gang g).thread lane).poison p = true ∧
    ((t'.gang g).thread lane).stack = ((t.gang g).thread lane).stack ∧ (t'.gang g).record = (t.gang g).record

/-! ## Queue ports, false guards -/

/-- QBIND binds a port to a queue of the task or unbinds it, else QUEUE cause 2; QSTAT answers a queue's length, 32 more when empty, 64
more when full. That the record of a QSTAT has 0 in its port bits is the model's choice (log 41). -/
def Sys2Proof.Say.PortBinding : Prop :=
  (∀ (w : UQbind) (s : State) (h g : Nat) (e : Entry) (t : Task) (v : Word), Issues s h g e t → (t.gang g).cbit w.c.toNat = true →
    v = (t.gang g).sreg w.a.toNat →
    (v.toNat < t.variant.nq → exec (.qbind w) s = .next (goesOn ((issued s).modGang h g fun gg =>
      { gg with ports := AList.set none gg.ports w.q.toNat (some v.toNat) }) h g e)) ∧
    (t.variant.nq ≤ v.toNat → v = 0xFFFFFFFF → exec (.qbind w) s = .next (goesOn ((issued s).modGang h g fun gg =>
      { gg with ports := AList.set none gg.ports w.q.toNat none }) h g e)) ∧
    (t.variant.nq ≤ v.toNat → v ≠ 0xFFFFFFFF → exec (.qbind w) s =
      .next ((issued s).raise h g (.uniform 12 e.pc e.mask (2 + 256 * w.q.toNat) v.toNat) e))) ∧
  ∀ (w : UDA) (s : State) (h g n : Nat) (e : Entry) (t : Task) (v : Word), Issues s h g e t → (t.gang g).cbit w.c.toNat = true →
    v = (t.gang g).sreg w.a.toNat → n = (t.queue v.toNat).length →
    (v.toNat < t.variant.nq → exec (.qstat w) s = .next (goesOn ((issued s).modGang h g fun gg => gg.setS w.d.toNat
      (BitVec.ofNat 32 (n + (if n = 0 then 32 else 0) + (if n = 16 then 64 else 0)))) h g e)) ∧
    (t.variant.nq ≤ v.toNat → exec (.qstat w) s = .next ((issued s).raise h g (.uniform 12 e.pc e.mask 2 v.toNat) e))

namespace Sys2Proof.Say

/-- The guard of a uniform word, of those that only a gang issues. -/
def gangGuard : Instr → Option (BitVec 3)
  | .jmpf w => some w.c
  | .mstart w => some w.c
  | .rpub w => some w.c
  | .rfree w => some w.c
  | .bkread w => some w.c
  | .cfetch w => some w.c
  | .btcopy w => some w.c
  | .bkopAdd w => some w.c
  | .bkopMul w => some w.c
  | .bkopMax w => some w.c
  | .bkopMin w => some w.c
  | .bkopAxpy w => some w.c
  | .bkopCvt w => some w.c
  | .bkred w => some w.c
  | .bkrank w => some w.c
  | .bkrankCommit w => some w.c
  | .rtunpin w => some w.c
  | .rtmerge w => some w.c
  | .rtpin w => some w.c
  | .rtlook w => some w.c
  | .ecnt w => some w.c
  | .launch w => some w.c
  | .joinl w => some w.c
  | .qstat w => some w.c
  | .qbind w => some w.c
  | .syscall w => some w.c
  | .bttest w => some w.c
  | .csegq w => some w.c
  | .rclaim w => some w.c
  | .rtake w => some w.c
  | .acdeclSum w => some w.c
  | .acdeclRank w => some w.c
  | .acclr w => some w.c
  | .acst w => some w.c
  | .acmrg w => some w.c
  | .acraise w => some w.c
  | .accmp w => some w.c
  | .acrd w => some w.c
  | _ => none

/-- The guard of a uniform word, of those that a stream issues too. -/
def sharedGuard : Instr → Option (BitVec 3)
  | .ubra w => some w.c
  | .uld32 w => some w.c
  | .uld64 w => some w.c
  | .ust32 w => some w.c
  | .ust64 w => some w.c
  | .umovsr w => some w.c
  | .utrap w => some w.c
  | .waitc w => some w.c
  | .barrem w => some w.c
  | _ => none

/-- The guard of a word that only a stream issues. -/
def matrixGuard : Instr → Option (BitVec 3)
  | .mma w => some w.c
  | .mzero w => some w.c
  | .mpost w => some w.c
  | .mact w => some w.c
  | .mend w => some w.c
  | _ => none

end Sys2Proof.Say

/-- Under a false guard a uniform word that has not issued only moves on (03 R44). -/
def Obligations.FalseGuards : Prop :=
  (∀ i c, (gangGuard i).or (sharedGuard i) = some c → ∀ (s : State) (h g : Nat) (e : Entry) (t : Task), Issues s h g e t →
    e.st.issued = false → (t.gang g).cbit c.toNat = false → exec i s = .next (goesOn (issued s) h g e)) ∧
  ∀ i c, (sharedGuard i).or (matrixGuard i) = some c → ∀ (s : State) (k j : Nat) (e : Entry) (x : Stream), StreamIssues s k j e x →
    e.st.issued = false → streamBit x c.toNat = false → ∃ s', exec i s = .next s' ∧ s'.stream k j = some { x with pc := e.pc + 4, st := .ready } ∧
      s' = { s with cur := none, clusters := s'.clusters } ∧ ∀ k', k' ≠ k → s'.cluster k' = s.cluster k'

/-! ## The host and the resident kernel -/

namespace Sys2Proof.Say

/-- The 128 bytes of the entry at a queue's HEAD. -/
def headEntry (s : State) (q : HostQueue) : List Byte :=
  (s.physRead (16 * 2 ^ 47 + q.base + 128 * (q.head.toNat % 2 ^ q.logn)) 128).map Prod.fst

/-- Whether a word of it is poisoned. -/
def headPoisoned (s : State) (q : HostQueue) : Bool :=
  (s.physRead (16 * 2 ^ 47 + q.base + 128 * (q.head.toNat % 2 ^ q.logn)) 128).any Prod.snd

/-- Whether its word `k` is. -/
def headLost (s : State) (q : HostQueue) (k : Nat) : Bool :=
  (((s.physRead (16 * 2 ^ 47 + q.base + 128 * (q.head.toNat % 2 ^ q.logn)) 128).drop (4 * k)).take 4).any Prod.snd

/-- A queue whose entry at HEAD is taken now. -/
def Takes (s : State) (d q : Nat) : Prop :=
  (s.hostQ d q).en = true ∧ (s.hostQ d q).err = false ∧ (s.hostQ d q).head ≠ (s.hostQ d q).tail ∧ s.accepting = true ∧ s.lehr.level ≠ 4

/-- The control command is system software's own, or the next of its queue. -/
def Due (s : State) (op : Nat) (c : ControlCmd) : Prop := c.reply = none ∨ (s.findCmd op c).isSome = true

/-- The status `v` stands at the reply address. -/
def Replied (s' : State) (c : ControlCmd) (v : Nat) : Prop :=
  ∀ a, c.reply = some a → a + 4 ≤ 2 ^ 47 → Memory.readNat s'.mem (16 * 2 ^ 47 + a) 4 = v

end Sys2Proof.Say

/-- A host queue opens with good fields, or sets BADCFG; a write of TAIL beyond its length sets ERR; the entry at HEAD is a launch or a
control command, and HEAD advances. A refused enable changes nothing but BADCFG. That a launch entry with a poisoned
word is submitted with its readable fields, and that a control entry with one is skipped, with its reply where that can be read, are the
model's choices (log 69). -/
def Obligations.HostQueues : Prop :=
  (∀ (s : State) (d q : Nat) (v : DWord) (n ctx : Nat), s.booted = true → d < 4 → q < 16 → (s.hostQ d q).en = false →
    v.getLsbD 0 = true → n = v.toNat / 4 % 32 → ctx = v.toNat / 65536 % 65536 →
    ∃ s', exec (.queueEnable d q v) s = .next s' ∧ s' = { s with dies := s'.dies } ∧ (∀ d', d' ≠ d → s'.die d' = s.die d') ∧
      s'.die d = { s.die d with hostQs := (s'.die d).hostQs } ∧ (∀ q', q' ≠ q → s'.hostQ d q' = s.hostQ d q') ∧ s'.hostQ d q =
      if 1 ≤ n ∧ n ≤ 12 ∧ (s.hostQ d q).base % (128 * 2 ^ n) = 0 ∧ (ctx = 0 ∨ s.created ctx = true) then
        { en := true, err := false, logn := n, badcfg := false, ctx := ctx, base := (s.hostQ d q).base, tail := 0, head := 0 }
      else { s.hostQ d q with badcfg := true }) ∧
  (∀ (s : State) (d q : Nat) (v : DWord), (s.hostQ d q).en = true → exec (.queueEnable d q v) s = .next s) ∧
  (∀ (s : State) (d q : Nat), s.booted = true → (s.hostQ d q).en = true → ∃ s', exec (.queueDisable d q) s = .next s' ∧
    s'.hostQ d q = { s.hostQ d q with en := false }) ∧
  (∀ (s : State) (d q : Nat) (v : Word), s.booted = true → d < 4 → q < 16 → ∃ s', exec (.doorbell d q v) s = .next s' ∧
    s'.hostQ d q = { s.hostQ d q with
      tail := v, err := (s.hostQ d q).err || ((s.hostQ d q).en && decide (2 ^ (s.hostQ d q).logn < (v - (s.hostQ d q).head).toNat)) }) ∧
  (∀ (s : State) (d q : Nat) (x : HostQueue) (bs : List Byte), x = s.hostQ d q → bs = headEntry s x → Takes s d q →
    headPoisoned s x = false → field bs 0 2 ≠ 0x8001 →
    ∃ s' l, exec (.queueEntryTake d q) s = .next s' ∧ s'.hostQ d q = { x with head := x.head + 1 } ∧
      s'.launch s.nextLaunch = some l ∧ s'.nextLaunch = s.nextLaunch + 1 ∧ l.ctx = x.ctx ∧ l.die = d ∧ l.token = none ∧ l.phase = .accept ∧
      l.system = (x.ctx == 0) ∧ l.packet = { packetOf bs with crec := if x.ctx = 0 then 0 else (packetOf bs).crec }) ∧
  (∀ (s : State) (d q : Nat) (x : HostQueue), x = s.hostQ d q → Takes s d q → headPoisoned s x = true →
    (headLost s x 0 = true ∨ field (headEntry s x) 0 2 ≠ 0x8001) → ∃ s' l, exec (.queueEntryTake d q) s = .next s' ∧ s'.hostQ d q = { x with head := x.head + 1 } ∧
      s'.launch s.nextLaunch = some l ∧ l.packet.lost ≠ [] ∧ l.phase = .accept ∧ s'.cmds = s.cmds ∧
      l.packet = (let p := packetRead (s.physRead (16 * 2 ^ 47 + x.base + 128 * (x.head.toNat % 2 ^ x.logn)) 128)
        { p with crec := if x.ctx = 0 then 0 else p.crec })) ∧
  (∀ (s : State) (d q : Nat) (x : HostQueue) (bs : List Byte), x = s.hostQ d q → bs = headEntry s x → Takes s d q →
    headPoisoned s x = true → headLost s x 0 = false → field bs 0 2 = 0x8001 →
    ∃ s', exec (.queueEntryTake d q) s = .next s' ∧ s'.hostQ d q = { x with head := x.head + 1 } ∧ s'.cmds = s.cmds ∧
      s'.launches = s.launches ∧
      (headLost s x 2 = true ∨ headLost s x 3 = true → s'.mem = s.mem) ∧
      (headLost s x 2 = false → headLost s x 3 = false → field bs 8 8 % 4 = 0 → field bs 8 8 + 4 ≤ 2 ^ 47 →
        Memory.readNat s'.mem (16 * 2 ^ 47 + field bs 8 8) 4 = 0xFFFFFFFF)) ∧
  ∀ (s : State) (d q op : Nat) (x : HostQueue) (bs : List Byte) (c : ControlCmd), x = s.hostQ d q → bs = headEntry s x → Takes s d q →
    headPoisoned s x = false → field bs 0 2 = 0x8001 → op = field bs 2 2 → c = controlOf op bs → field bs 8 8 % 4 = 0 →
    (x.ctx = 0 → 1 ≤ op → op ≤ 6 → (op = 4 → c.address % 8 = 0) → (op = 5 → c.address % 4096 = 0) →
      ∃ s', exec (.queueEntryTake d q) s = .next s' ∧ s'.hostQ d q = { x with head := x.head + 1 } ∧
        s'.cmds = s.cmds ++ [⟨d * 16 + q, op, c, false⟩] ∧
        s'.mem = s.mem) ∧
    (x.ctx ≠ 0 ∨ op = 0 ∨ 6 < op → ∃ s', exec (.queueEntryTake d q) s = .next s' ∧ s'.hostQ d q = { x with head := x.head + 1 } ∧
      s'.cmds = s.cmds ∧ (field bs 8 8 + 4 ≤ 2 ^ 47 → Memory.readNat s'.mem (16 * 2 ^ 47 + field bs 8 8) 4 = 0xFFFFFFFF))

/-- The six control commands and what each replies. A die is evacuated, and its moves are over, before it goes offline, where its pages find room; a torn context's
reply follows the end of its tasks. The room for pages and the stages of an evacuation are the model's (logs 54, 72), as are the reply 2 to
an image above 256 MiB (log 69) and a KILLED record over a busy one (log 51); the image checks are free, and SHA-256 is that of FIPS 180-4
(log 13). -/
def Obligations.ControlCommands : Prop :=
  (∀ (s : State) (c : ControlCmd), Due s 1 c → (s.created c.ctx = true → ∃ s', exec (.shootdown c) s = .next s' ∧
      s'.shoots = s.shoots ++ [⟨s.nextId, c.ctx, c.vbase, c.length, c.reply⟩]) ∧
    (s.created c.ctx = false → ∃ s', exec (.shootdown c) s = .next s' ∧ s'.shoots = s.shoots ∧ Replied s' c 4)) ∧
  (∀ (s : State) (c : ControlCmd), Due s 2 c →
    (c.die < 4 → s.pagesOn c.die = [] → (s.die c.die).moves = [] →
      ∃ s', exec (.takeDieOffline c) s = .next s' ∧ (s'.die c.die).online = false ∧ Replied s' c 0) ∧
    (4 ≤ c.die ∨ ((s.pagesOn c.die ≠ [] ∨ (s.die c.die).moves ≠ []) ∧ (s.die c.die).evacuating = false ∧ s.canEvacuate c.die = false) →
      ∃ s', exec (.takeDieOffline c) s = .next s' ∧ s'.dies = s.dies ∧ Replied s' c 1) ∧
    (c.die < 4 → s.pagesOn c.die ≠ [] ∨ (s.die c.die).moves ≠ [] → (s.die c.die).evacuating = false → s.canEvacuate c.die = true →
      ∃ s', exec (.takeDieOffline c) s = .next s' ∧ s'.die c.die = { s.die c.die with evacuating := true } ∧ s'.cmds = s.cmds ∧
        s'.mem = s.mem) ∧
    (c.die < 4 → s.pagesOn c.die ≠ [] ∨ (s.die c.die).moves ≠ [] → (s.die c.die).evacuating = true → exec (.takeDieOffline c) s = .next s)) ∧
  (∀ (s : State) (c : ControlCmd), Due s 3 c → (∀ y, s.findCmd 3 c = some y → y.begun = false) →
    (s.created c.ctx = true → ∃ s' x, exec (.tearDownContext c) s = .next s' ∧
      ((∀ p ∈ s.tasks, ∀ t, p.2 = some t → t.ctx ≠ c.ctx) → Replied s' c 0) ∧ s'.context c.ctx = some x ∧ x.torn = true ∧
      (∀ h t, s.task h = some t → t.ctx = c.ctx → t.fate = .alive → ∃ t', s'.task h = some t' ∧ t'.fate = .killed ∧
        ∀ g, g < t.gangCount → (t'.gang g).record.kind = 17 ∧ (t'.gang g).record.detail = 1) ∧
      (∀ n l, s.launch n = some l → l.ctx = c.ctx → l.phase ≠ .complete →
        ∃ l', s'.launch n = some l' ∧ l'.killed = true ∧ l'.phase = (if l.phase = .done then .done else .stopped)) ∧
      ∀ d n, ∀ q ∈ AList.get [] (s'.die d).homeQ n, ∀ l, s.launch q.launch = some l → l.ctx ≠ c.ctx) ∧
    (s.created c.ctx = false → ∃ s', exec (.tearDownContext c) s = .next s' ∧ s'.tasks = s.tasks ∧ Replied s' c 4)) ∧
  (∀ (s : State) (c : ControlCmd) (y : HostCmd), s.findCmd 3 c = some y → y.begun = true → c.reply.isSome = true →
    ((∀ p ∈ s.tasks, ∀ t, p.2 = some t → t.ctx ≠ c.ctx) → ∃ s', exec (.tearDownContext c) s = .next s' ∧ s'.cmds = s.cmds.erase y ∧
      Replied s' c 0) ∧
    ∀ p t, p ∈ s.tasks → p.2 = some t → t.ctx = c.ctx → exec (.tearDownContext c) s = .next s) ∧
  (∀ (s : State) (c : ControlCmd), Due s 4 c → s.booted = true → s.hand.st ≠ .adopting →
    c.address + 384 ≤ 2 ^ 47 → (∀ a, c.reply = some a → Apart c.address 384 a 4) → ∃ s', exec (.quote c) s = .next s' ∧ Replied s' c 0 ∧
      ∀ j, j < 384 → Memory.read s'.mem (16 * 2 ^ 47 + c.address + j) = (s.quoteBytes c.nonce).getD j 0) ∧
  (∀ (s : State) (c : ControlCmd) (im : List Byte), Due s 5 c → s.hand.st = .running →
    im = (s.physRead (16 * 2 ^ 47 + c.address) (min c.imageLen (2 ^ 28))).map Prod.fst → ∃ s', exec (.stageSuccessorKernel c) s = .next s' ∧
      (2 ^ 28 < c.imageLen ∨ Config.imageValid im = false → s'.hand = { s.hand with region := im } ∧ Replied s' c 2) ∧
      (c.imageLen ≤ 2 ^ 28 → Config.imageValid im = true → s.abiRefused = true ∨ Config.imageInterfaces im = false →
        s'.hand = { s.hand with region := im } ∧ Replied s' c 3) ∧
      (c.imageLen ≤ 2 ^ 28 → Config.imageValid im = true → s.abiRefused = false → Config.imageInterfaces im = true →
        s'.hand = { s.hand with region := im, st := .staged, image := some (sha256 im) } ∧ Replied s' c 0)) ∧
  ∀ (s : State) (c : ControlCmd) (n : Nat), Due s 6 c → n ≤ 4 → lehrLatency n ≤ c.tolerance → (∀ m, n < m → m ≤ 4 →
    c.tolerance < lehrLatency m) →
    ∃ s', exec (.latencyTolerance c) s = .next s' ∧ Replied s' c 0 ∧ s'.lehr.tolerance = c.tolerance ∧
      (s.lehr.level ≤ n → s'.lehr.level = s.lehr.level) ∧ (n < s.lehr.level → s'.lehr.level = n ∧ s'.lehr.exit = none)

/-- A write to a register that answers sets the fields the spec names and no other; a misaligned one is dropped, and a 4-byte one keeps the
other half; a guard range takes its ends (at the places that log 25 leaves to Config). A read of another size, or misaligned, answers all ones. -/
def Sys2Proof.Say.RegisterWrites : Prop :=
  (∀ (s : State) (d n : Nat) (v : DWord) (w : FmtWindow), s.booted = true → d < 4 → n < 8 →
    w = AList.get FmtWindow.reset (s.die d).windows n →
    w.en = false →
    (∃ s', exec (.registerWrite d (0x10008 + 0x20 * n) 8 v) s = .next s' ∧
      AList.get FmtWindow.reset (s'.die d).windows n = { w with enc := v.toNat / 4 % 2 ^ 45 * 4 }) ∧
    (∃ s', exec (.registerWrite d (0x10010 + 0x20 * n) 8 v) s = .next s' ∧
      AList.get FmtWindow.reset (s'.die d).windows n = { w with alias_ := v.toNat / 4096 % 2 ^ 35 * 4096 }) ∧
    ∃ s', exec (.registerWrite d (0x10018 + 0x20 * n) 8 v) s = .next s' ∧
      AList.get FmtWindow.reset (s'.die d).windows n = { w with nblk := v.toNat % 2 ^ 32 }) ∧
  (∀ (s : State) (v : DWord), s.booted = true →
    (∃ s', exec (.registerWrite 0 0x20010 8 v) s = .next s' ∧ s'.engine = { s.engine with
      hot := v.toNat % 65536, cold := v.toNat / 2 ^ 16 % 65536, idle := v.toNat / 2 ^ 32 % 65536, w := v.toNat / 2 ^ 48 % 256 }) ∧
    (s.engine.hot < 65536 → s.engine.cold < 65536 → s.engine.idle < 65536 → s.engine.w < 256 →
      ∃ s', exec (.registerWrite 0 0x20010 4 v) s = .next s' ∧
        s'.engine = { s.engine with hot := v.toNat % 65536, cold := v.toNat / 2 ^ 16 % 65536 }) ∧
    ∃ s', exec (.registerWrite 0 0x20008 8 v) s = .next s' ∧
      s'.engine.win = (if 10 ≤ v.toNat % 65536 ∧ v.toNat % 65536 ≤ 10000 then v.toNat % 65536 else s.engine.win)) ∧
  (∀ (s : State) (j : Nat) (v : DWord) (p : PlaceSlot), s.booted = true → j < 16 → p = s.engine.slot j → p.cen = false →
    v.getLsbD 0 = true → ∃ s', exec (.registerWrite 0 (0x20020 + 0x20 * j) 8 v) s = .next s' ∧ (s'.engine.slot j).cen = true ∧
      (s'.engine.slot j).ctx = v.toNat / 2 ^ 16 % 65536 ∧ (s'.engine.slot j).nexp = v.toNat / 2 ^ 32 % 65536 ∧
      (s'.engine.slot j).gen = 0 ∧ (s'.engine.slot j).slot = 0 ∧ ((s'.engine.slot j).genAt 0).st = .current) ∧
  (∀ (s : State) (d r : Nat) (v : DWord), s.booted = true → d < 4 → r < 64 →
    ∃ s', exec (.registerWrite d (0x30008 + 0x40 * r) 8 v) s = .next s' ∧
    s'.ring d r = { s.ring d r with base := v.toNat % 2 ^ 56 }) ∧
  (∀ (s : State) (d o : Nat) (v : DWord), s.booted = true → d < 4 → o % 8 = 0 → 0x40400 ≤ o →
    exec (.registerWrite d o 8 v) s = .next (match Config.guardReg o with
      | some (i, top) => if i < 272 then { s with guards := AList.modify (0, 0) s.guards i fun q =>
          if top then (q.1, v.toNat % 2 ^ 48) else (v.toNat % 2 ^ 48, q.2) } else s
      | none => s)) ∧
  (∀ (s : State) (d o n : Nat), (n ≠ 4 ∧ n ≠ 8) ∨ o % n ≠ 0 → s.registerRead d o n = 2 ^ (8 * n) - 1) ∧
  (∀ (s : State) (d q : Nat) (v : DWord), s.booted = true → d < 4 → q < 16 → (s.hostQ d q).en = false →
    ∃ s', exec (.registerWrite d (0x40008 + 0x40 * q) 8 v) s = .next s' ∧
      s'.hostQ d q = { s.hostQ d q with base := v.toNat / 128 % 2 ^ 45 * 128 }) ∧
  ∀ (s : State) (d o n : Nat) (v : DWord), s.booted = false ∨ 4 ≤ d ∨ (n ≠ 4 ∧ n ≠ 8) ∨ (n = 4 ∧ o % 4 ≠ 0) ∨ (n = 8 ∧ o % 8 ≠ 0) →
    exec (.registerWrite d o n v) s = .next s

/-- The resident kernel installs a context of map 2 or 3 under a free number; its map changes only while nothing of it runs. -/
def Sys2Proof.Say.Contexts : Prop :=
  (∀ (s : State) (n : Nat) (desc : ContextDesc), 0 < n → n < 65536 → s.created n = false → s.noTasks n = true →
    (s.launchesOf n fun _ => false) = true →
    (desc.map = 2 ∨ desc.map = 3 → ∃ s', exec (.contextInstall n desc) s = .next s' ∧
      s'.context n = some { desc := desc, fidx := 0, joins := [], nextSeq := 0, torn := false } ∧
      (∀ m, m ≠ n → s'.context m = s.context m) ∧ s'.mem = s.mem) ∧
    (desc.map ≠ 2 → desc.map ≠ 3 → exec (.contextInstall n desc) s = .next s)) ∧
  ∀ (s : State) (n m : Nat) (x : Context), s.context n = some x → x.torn = false → m = 2 ∨ m = 3 →
    (s.noTasks n = true → s.launchesOf n Launch.idleMap = true → ∃ s', exec (.contextMapChange n m) s = .next s' ∧
      s'.context n = some { x with desc := { x.desc with map := m } }) ∧
    (s.noTasks n = false → exec (.contextMapChange n m) s = .next s)

/-- Boot starts on the strapped die and moves to the lowest that has not tried; a valid first-stage image is measured and runs, another
leaves the die in recovery, reported on the management port. The image check is free, and SHA-256 is that of FIPS 180-4 (log 13). -/
def Sys2Proof.Say.Boot : Prop :=
  (∀ (s : State) (d : BitVec 2), s.boot.phase = .off → ∃ s', exec (.powerOn d) s = .next s' ∧ s'.boot.phase = .rom ∧
    s'.boot.strap = d.toNat ∧ s'.boot.die = d.toNat ∧ s'.boot.tried = [d.toNat] ∧ s'.boot.mailbox = true ∧ s'.boot.log = s.boot.log) ∧
  (∀ (s : State) (d : Nat), (s.boot.phase = .rom ∨ s.boot.phase = .recovery) → d < 4 → d ∉ s.boot.tried → (∀ k, k < d → k ∈ s.boot.tried) →
    ∃ s', exec .bootReadyTimeout s = .next s' ∧ s'.boot.die = d ∧ s'.boot.tried = s.boot.tried ++ [d] ∧ s'.boot.phase = .rom) ∧
  ∀ (s : State) (im : List Byte), s.boot.phase = .rom → ∃ s', exec (.firstStageImage im) s = .next s' ∧
    (Config.imageValid im = true → s'.boot.phase = .running ∧ s'.boot.mailbox = false ∧ s'.boot.log = sha256 im :: s.boot.log ∧
      s'.booted = true) ∧
    (Config.imageValid im = false → s'.boot.phase = .recovery ∧ s'.boot.log = s.boot.log ∧ s'.boot.reports = s.boot.reports ++ [s.boot.die])

/-- A link takes the highest version in both ranges, a Viaduct edge without one is down; a CRC failure costs a retransmission and no data,
an edge that goes down one where traffic crosses it; a port that is up carries well-formed payloads of its version. Which die drives which
port, and that one collective keeps its f, are the model's reading (log 70). -/
def Sys2Proof.Say.Links : Prop :=
  (∀ (s : State) (l : LinkRef) (a b c d : Nat), linkExists l = true → s.booted = true → ∃ s', exec (.versionNegotiation l a b c d) s = .next s' ∧
    (l, if max a c ≤ min b d then some (min b d) else none) ∈ s'.versions ∧ (∀ p ∈ s'.versions, p.1 = l →
      p.2 = if max a c ≤ min b d then some (min b d) else none) ∧
    (∀ e, l = .viaduct e → min b d < max a c → e ∈ s'.edgesDown) ∧ (max a c ≤ min b d → s'.edgesDown = s.edgesDown)) ∧
  (∀ (s : State) (e : Nat), s.booted = true → e < 4 → e ∉ s.edgesDown → ∃ s', exec (.edgeDown e) s = .next s' ∧
    s'.edgesDown = s.edgesDown ++ [e] ∧ s'.retransmits = s.retransmits ++ (if s.crosses e = true then [.viaduct e] else []) ∧
      s'.mem = s.mem ∧ s'.memPoison = s.memPoison) ∧
  (∀ (s : State) (l : LinkRef), s.linkRuns l = true → ∃ s', exec (.linkCrcFailure l) s = .next s' ∧ s'.retransmits = s.retransmits ++ [l] ∧
    s'.mem = s.mem ∧ s'.memPoison = s.memPoison ∧ s'.tasks = s.tasks) ∧
  ∀ (s : State) (port v : Nat) (p : List Byte), s.versions.find? (fun x => x.1 == .fabric port) = some (.fabric port, some v) → port < 16 →
    (s.die (port / 4)).online = true → s.sameFrac p = true → payloadOk v p = true →
    (field p 14 2 = port → ∃ s', exec (.reductionPayload port true p) s = .next s' ∧ s'.fabricOut = s.fabricOut ++ [(port, p)]) ∧
    ∃ s', exec (.reductionPayload port false p) s = .next s' ∧ s'.fabricIn = s.fabricIn ++ [(port, p)]

/-- Hand-over: the staged successor takes over through paused and adopting, the generation rises when it adopts the table, and a time-out
gives the old kernel back, which adopts the table as it then stands. That a time-out may come in adopting is the model's choice (log 55), and
the versions a successor supports, the record of a revert and the table's address until a successor has looked are free (logs 13, 86). -/
def Sys2Proof.Say.HandOver : Prop :=
  (∀ (s : State), s.hand.st = .staged → ∃ s', exec .oldKernelReady s = .next s' ∧ s'.hand = { s.hand with st := .paused } ∧
    s'.accepting = false) ∧
  (∀ (s : State), s.hand.st = .reverted → ∃ s', exec .oldKernelReady s = .next s' ∧ s'.hand = { s.hand with st := .running }) ∧
  (∀ (s : State), s.hand.st = .paused → (∀ c ∈ s.cmds, c.op ≠ 4) → ∃ s', exec .oldKernelJump s = .next s' ∧
    s'.hand = { s.hand with st := .adopting, tableAt := none }) ∧
  (∀ (s : State) (a : Nat), s.hand.st = .adopting → ∃ s', exec (.successorAdopt a) s = .next s' ∧
    (s.tableOk a = true → s'.hand = { s.hand with st := .accepting, gen := s.hand.gen + 1, table := s.preserved a, tableAt := some a } ∧
      s'.accepting = true ∧ s'.boot.log = s.hand.image.toList ++ s.boot.log) ∧
    (s.tableOk a = false → s' = { s with hand := { s.hand with tableAt := some a } })) ∧
  (∀ (s : State), s.hand.st = .accepting → ∃ s', exec .successorCheckIn s = .next s' ∧
    s'.hand = { s.hand with st := .running, image := none }) ∧
  ∀ (s : State), s.hand.st = .accepting ∨ s.hand.st = .adopting → ∃ s', exec .handoverTimeout s = .next s' ∧
    s'.hand = { s.hand with st := .reverted, gen := s.hand.gen + 1, image := none,
                            table := s.preserved (s.hand.tableAt.getD (Config.tableAddress s.hand.gen.toNat)) } ∧
    s'.boot.log = Config.revertRecord s.hand.gen.toNat :: s.boot.log

/-- A Lehr state is entered only within the tolerance, and left through an exit that some work at hand needs. Which work needs which state is
the model's choice (log 71). -/
def Sys2Proof.Say.LehrStates : Prop :=
  (∀ (s : State) (n : Nat), n ≤ 4 → lehrLatency n ≤ s.lehr.tolerance → s.lehrHolds n = true → s.lehr.level < n → s.lehr.exit = none →
    ∃ s' m, exec .lehrEntry s = .next s' ∧ s'.lehr = { s.lehr with level := m } ∧ n ≤ m ∧ m ≤ 4 ∧ lehrLatency m ≤ s.lehr.tolerance ∧
      s.lehrHolds m = true) ∧
  (∀ (s : State) (n : Nat), n < s.lehr.level → s.lehr.exit = none → (n, true) ∈ s.lehrNeeds → ∃ s', exec (.lehrExit n) s = .next s' ∧
    s'.lehr = { s.lehr with exit := some n }) ∧
  ∀ (s : State) (n : Nat), s.lehr.exit = some n → ∃ s', exec .lehrExitComplete s = .next s' ∧
    s'.lehr = { s.lehr with level := n, exit := none }

/-! ## Issue, decoding, the whole machine -/

/-- When the slot that holds a chosen entry's word is landed and the word is not poisoned, a step is exec of the decoded instruction, after
the turn is used and the entry is taken out of its gang; of a word that does not decode it is ILLEGAL with its cause, the map and the word.
A word that waits for an earlier uniform word of its gang is issued again later (log 85). Which turn comes next is the model's schedule
(log 1). -/
def Obligations.StepRunsDecoded : Prop :=
  (∀ (s s1 : State) (h g : Nat) (e : Entry) (x : ISlot), s.turn = some (.gang h g) → s.tickOn.offer h g = some (e, s1) →
    s1.codeSlot (.gang h g) e.pc = some x → x.landed = true → AList.get false x.poison (e.pc.toNat % 8192 / 4) = false →
    (∀ i, decodeFor (s1.mapOf h) false (e.pc.toNat % 8192) (x.word (e.pc.toNat % 8192)) = .ok i →
      (s1.awaits (.gang h g) e (x.word (e.pc.toNat % 8192)) i = false →
        step s = exec i (s1.prepare (.gang h g) e) ∧ (s1.prepare (.gang h g) e).cur = some ⟨.gang h g, e⟩) ∧
      (s1.awaits (.gang h g) e (x.word (e.pc.toNat % 8192)) i = true →
        e.st.issued = false ∧ ∃ s', step s = .next s' ∧ entries s' h g = entries s1 h g ++ [{ e with st := .stall .held }])) ∧
    ∀ c, decodeFor (s1.mapOf h) false (e.pc.toNat % 8192) (x.word (e.pc.toNat % 8192)) = .error c →
      step s = .next (s1.raise h g { FaultInfo.lane 1 e.pc e.mask (c + 256 * s1.mapOf h) (x.word (e.pc.toNat % 8192)).toNat with
        flags := if (x.word (e.pc.toNat % 8192)).getLsbD 31 then 4 else 0 } e)) ∧
  (∀ (s : State) (k j : Nat) (e : Entry) (x : ISlot) (i : Instr), s.turn = some (.stream k j) → s.tickOn.streamOffer k j = some e →
    s.tickOn.codeSlot (.stream k j) e.pc = some x → x.landed = true → AList.get false x.poison (e.pc.toNat % 8192 / 4) = false →
    decodeFor (s.tickOn.mapOf (s.tickOn.gangOf (.stream k j)).1) true (e.pc.toNat % 8192) (x.word (e.pc.toNat % 8192)) = .ok i →
    step s = exec i (s.tickOn.prepare (.stream k j) e)) ∧
  (∀ (s : State) (k j c : Nat) (e : Entry) (x : ISlot), s.turn = some (.stream k j) → s.tickOn.streamOffer k j = some e →
    s.tickOn.codeSlot (.stream k j) e.pc = some x → x.landed = true → AList.get false x.poison (e.pc.toNat % 8192 / 4) = false →
    decodeFor (s.tickOn.mapOf (s.tickOn.gangOf (.stream k j)).1) true (e.pc.toNat % 8192) (x.word (e.pc.toNat % 8192)) = .error c →
    step s = .next (s.tickOn.raiseStream k j ((x.word (e.pc.toNat % 8192)).getLsbD 31) e.pc 1
      (c + 256 * s.tickOn.mapOf (s.tickOn.gangOf (.stream k j)).1) (x.word (e.pc.toNat % 8192)).toNat)) ∧
  ∀ (s : State) (i : Instr), s.turn = some (.event i) → i.isWord = false → step s = exec i s.tickOn

/-- A gang offers the entry of highest priority, then lowest PC, with every entry that merges into it; while that one is stalled before its
effect it offers nothing, but for an entry that stands in a SYSCALL, which holds no other back. That a stall holds lower entries back, and
which entries merge when they hold queue entries, is the model's reading (logs 23, 31). -/
def Sys2Proof.Say.EntryChoice : Prop :=
  (∀ (s s' : State) (h g : Nat) (e : Entry) (t : Task), s.task h = some t → e.stalled = none → s.offer h g = some (e, s') →
    (∀ x ∈ entries s h g, x.called = false → t.offers g x = true ∨ x.stalled.isSome = true → x.precedes e = false) ∧
    (∀ i, e.mask.getLsbD i = true ↔ ∃ x ∈ entries s h g, t.merges g e x = true ∧ x.mask.getLsbD i = true) ∧
    entries s' h g = (entries s h g).filter (fun x => !t.merges g e x)) ∧
  (∀ (s : State) (h g : Nat) (t : Task) (x : Entry), s.task h = some t → t.issues = true → x ∈ entries s h g → t.offers g x = true →
    (∀ y ∈ entries s h g, y.stalled = none) → ∃ e s', s.offer h g = some (e, s')) ∧
  ∀ (s : State) (h g : Nat) (t : Task) (x : Entry) (k : Stall), s.task h = some t → x ∈ entries s h g → x.stalled = some k →
    x.called = false →
    s.resumable (.gang h g) k = false →
    (∀ y ∈ entries s h g, y ≠ x → t.offers g y = true ∨ y.stalled.isSome = true → x.precedes y = true) → s.offer h g = none

/-- Past the last word of a segment that fills its slot an entry raises ILLEGAL with cause 10 and address 0x2000, or waits for the record;
its word has completed: a uniform word, and a lane word whose operands can be taken. A stream that issues a uniform word there raises it too, or
waits. (Branches, calls, returns, fences and the rest say the same of the lanes that go on from there.) That the record of a uniform word
has FLAGS bit 2 clear is the model's choice (log 61). -/
def Sys2Proof.Say.LastWord : Prop :=
  (∀ i r, uniformRow i = some r → ∀ (s : State) (h g : Nat) (e : Entry) (t : Task), Issues s h g e t → e.pc.toNat % 8192 = 0x1FFC →
    (t.gang g).cbit r.guard = true ∨ e.st.issued = false →
    ((t.gang g).record.busy = false →
      exec i s = .next ((if (t.gang g).cbit r.guard then (issued s).modGang h g r.effect.onGang else issued s).raise h g
        (.lane 1 e.pc e.mask (10 + 256 * s.mapOf h) 0x2000) { e with st := .ready, qkeep := [], held := none })) ∧
    ((t.gang g).record.busy = true →
      exec i s = .next ((if (t.gang g).cbit r.guard then (issued s).modGang h g r.effect.onGang else issued s).putEntry h g
        { e with st := .parked .pastEnd, qkeep := [], held := none }))) ∧
  (∀ i r, laneRow i = some r → ∀ (s v : State) (h g : Nat) (e : Entry) (t : Task) (k : Taken), Issues s h g e t →
    e.pc.toNat % 8192 = 0x1FFC → r.Takes t g e ((t.gang g).active e.mask r.guard) k →
    v = r.compute (k.popped (issued s) h t) h g t ((t.gang g).active e.mask r.guard) ((t.gang g).active e.mask r.guard) k →
    ((t.gang g).record.busy = false → exec i s = .next (v.raise h g (.lane 1 e.pc e.mask (10 + 256 * s.mapOf h) 0x2000)
      { e with st := .ready, qkeep := [], held := none })) ∧
    ((t.gang g).record.busy = true → exec i s = .next (v.putEntry h g { e with st := .parked .pastEnd, qkeep := [], held := none }))) ∧
  ∀ i r, uniformRow i = some r → ∀ (s : State) (k j : Nat) (e : Entry) (x : Stream) (t : Task), s.cur = some ⟨.stream k j, e⟩ →
    s.stream k j = some x → s.task x.h = some t → e.pc.toNat % 8192 = 0x1FFC → streamBit x r.guard = true ∨ e.st.issued = false →
    ((t.gang x.g).record.busy = false → ∃ s' t', exec i s = .next s' ∧ s'.stream k j =
        some { (if streamBit x r.guard then r.effect.onStream x else x) with pc := e.pc, st := .parked .fault } ∧
      s'.task x.h = some t' ∧ (t'.gang x.g).record.kind = 1 ∧ (t'.gang x.g).record.flags = 7 ∧ (t'.gang x.g).record.pc = e.pc ∧
      (t'.gang x.g).record.mask = 0 ∧ (t'.gang x.g).record.detail = BitVec.ofNat 32 (10 + 256 * s.mapOf x.h) ∧
      (t'.gang x.g).record.addr = 0x2000 ∧ (t'.gang x.g).frontier = (t.gang x.g).frontier) ∧
    ((t.gang x.g).record.busy = true → ∃ s', exec i s = .next s' ∧ s'.tasks = s.tasks ∧ s'.stream k j =
      some { (if streamBit x r.guard then r.effect.onStream x else x) with pc := e.pc, st := .parked .pastEnd })

/-- Every well-formed word decodes to the instruction it encodes, under the decode table it stands in. -/
def Obligations.EncodeThenDecode : Prop :=
  ∀ i : Instr, i.isWord = true → i.wellFormed = true → ∃ w, encode i = some w ∧ decodeWord (encodeMap i) w = .ok i

/-- A word that decodes gives a well-formed instruction, whose encoding is that word: no bit of it is ignored. -/
def Obligations.DecodeThenEncode : Prop :=
  ∀ (map : Nat) (w : Word) (i : Instr), decodeWord map w = .ok i → i.isWord = true ∧ i.wellFormed = true ∧ encode i = some w

/-- Words written out from the encodings of 03: iadd v1, v2, v3; ?p1 shri v4, v5, 7; ld32 v1, [s2 + v4]; atom.cas128.ar.sys v8, [s4 + v2] under
maps 3 and 2; uadd s1, s2, s3; and the filler, which no map decodes. -/
def Obligations.WordsFromTheSpec : Prop :=
  decodeWord 3 0x000110C0 = .ok (.iadd ⟨1, 2, 3, 0, false, false, false⟩) ∧
  decodeWord 3 0x08A42839 = .ok (.shri ⟨4, 5, 7, 1⟩) ∧ decodeWord 3 0x40812080 = .ok (.ld32 ⟨1, 4, 2, 0, 0⟩) ∧
  decodeWord 2 0x800110C0 = .ok (.uadd ⟨1, 2, 3, 0⟩) ∧ decodeWord 3 0x4F681106 = .ok (.atomCas128 ⟨8, 2, 4, 0, 6, 3⟩) ∧
  decodeWord 2 0x5F681106 = .ok (.atomCas128Map2 ⟨8, 2, 4, 0, 6, 3⟩) ∧
  decodeWord 2 0x4F681106 = .error .unmapped ∧ decodeWord 3 0x7FE00000 = .error .unmapped ∧ decodeWord 2 0x7FE00000 = .error .unmapped

/-- Words that compute in their lanes change only their gang: no memory, other gang or task, no uniform register, condition bit, accumulator
or counter of it; in a lane no register but d (and the empty state of a source that the word empties), no predicate unless they write
predicates, nothing in a lane that is not active. -/
def Obligations.LaneFrame : Prop :=
  ∀ i r, laneRow i = some r → ∀ (s s' : State) (h g : Nat) (e : Entry) (t : Task), s.cur = some ⟨.gang h g, e⟩ → s.task h = some t →
    exec i s = .next s' → s' = { s with cur := none, tasks := s'.tasks, dies := s'.dies } ∧ (∀ h', h' ≠ h → s'.task h' = s.task h') ∧
    (∀ d, s'.die d = { s.die d with events := (s'.die d).events }) ∧ ∃ t', s'.task h = some t' ∧
      t' = { t with gangs := t'.gangs, queues := t'.queues } ∧ (∀ g', g' ≠ g → t'.gang g' = t.gang g') ∧
      (t'.gang g).s = (t.gang g).s ∧ (t'.gang g).c = (t.gang g).c ∧ (t'.gang g).acc = (t.gang g).acc ∧
      (t'.gang g).ports = (t.gang g).ports ∧ (t'.gang g).counters = (t.gang g).counters ∧ (t'.gang g).tags = (t.gang g).tags ∧
      (t'.gang g).denials = (t.gang g).denials ∧
      ∀ j, ((t'.gang g).thread j).base = ((t.gang g).thread j).base ∧ ((t'.gang g).thread j).floor = ((t.gang g).thread j).floor ∧
        (((t.gang g).active e.mask r.guard).getLsbD j = false → (t'.gang g).thread j = (t.gang g).thread j) ∧
        (r.writesPreds = false → ((t'.gang g).thread j).preds = ((t.gang g).thread j).preds) ∧
        ∀ p, (∀ d, r.dst = some d → d < 28 → p ≠ (((t.gang g).thread j).base + d) % t.variant.depth) →
          AList.get 0 ((t'.gang g).thread j).stack p = AList.get 0 ((t.gang g).thread j).stack p ∧
          AList.get false ((t'.gang g).thread j).poison p = AList.get false ((t.gang g).thread j).poison p ∧
          ((∀ q ∈ r.srcs, q.2 = true → p ≠ (((t.gang g).thread j).base + q.1) % t.variant.depth) →
            AList.get .full ((t'.gang g).thread j).rstate p = AList.get .full ((t.gang g).thread j).rstate p)

/-- From every state whose memory is in canonical form, a step that answers a next state keeps it so. -/
def Obligations.MemoryStaysCanonical : Prop :=
  ∀ s s' : State, Memory.wf s.mem = true → step s = .next s' → Memory.wf s'.mem = true

/-- Memory at reset is canonical, with nothing listed. -/
def Sys2Proof.Say.ResetMemory : Prop := Memory.wf State.reset.mem = true ∧ ∀ a, Memory.read State.reset.mem a = 0

/-- The registers after reset at the values the spec states (19 Tables 19-1, 19-6; 23 Table 23-1; 09 Table 9-5): windows, rings and host queues
disabled, positions and counts 0, SCOPE 4, WIN 100, HOT 0x2000, COLD 0x0400, IDLE 4, W 8; FSLOT reads 0. -/
def Sys2Proof.Say.ResetValues : Prop :=
  (∀ d n, (AList.get FmtWindow.reset (State.reset.die d).windows n).en = false) ∧
  (∀ d r, (State.reset.ring d r).en = false ∧ (State.reset.ring d r).scope = 4 ∧ (State.reset.ring d r).claim = 0 ∧
    (State.reset.ring d r).pubp = 0 ∧ (State.reset.ring d r).take = 0 ∧ (State.reset.ring d r).freep = 0) ∧
  (∀ d r, r < 64 → State.reset.regValue d (0x30030 + 0x40 * r) = 0) ∧
  (∀ d q, (State.reset.hostQ d q).en = false ∧ (State.reset.hostQ d q).err = false ∧ (State.reset.hostQ d q).tail = 0 ∧
    (State.reset.hostQ d q).head = 0) ∧
  State.reset.engine.en = false ∧ State.reset.engine.freeze = false ∧ State.reset.engine.win = 100 ∧ State.reset.engine.hot = 0x2000 ∧
  State.reset.engine.cold = 0x0400 ∧ State.reset.engine.idle = 4 ∧ State.reset.engine.w = 8 ∧ State.reset.engine.cpyfail = 0 ∧
  State.reset.engine.wdraw = 0 ∧ ∀ j, (State.reset.engine.slot j).cen = false

/-! ## Statements in parts -/

/-- The parts `IntegerWords`, `ImmediateWords` together. -/
def Obligations.IntegerAndImmediateWords : Prop := Say.IntegerWords ∧ Say.ImmediateWords

/-- The parts `EmptyOperandWaits`, `EmptySourceTraps`, `PoisonedOperandFaults` together. -/
def Obligations.OperandStates : Prop := Say.EmptyOperandWaits ∧ Say.EmptySourceTraps ∧ Say.PoisonedOperandFaults

/-- The parts `QueueBlocks`, `UnboundPortFaults`, `PortBinding` together. -/
def Obligations.QueuePorts : Prop := Say.QueueBlocks ∧ Say.UnboundPortFaults ∧ Say.PortBinding

/-- The parts `SpecialRegisterMove`, `SpecialRegisterPush`, `SpecialRegisterValues`, `UniformSpecialRegisters` together. -/
def Obligations.SpecialRegisters : Prop := Say.SpecialRegisterMove ∧ Say.SpecialRegisterPush ∧ Say.SpecialRegisterValues ∧ Say.UniformSpecialRegisters

/-- The parts `UniformWords`, `UniformWordsOfStreams` together. -/
def Obligations.UniformArithmetic : Prop := Say.UniformWords ∧ Say.UniformWordsOfStreams

/-- The parts `Branch`, `RegisterJumps` together. -/
def Obligations.BranchesAndJumps : Prop := Say.Branch ∧ Say.RegisterJumps

/-- The parts `ReturnMovesWindowBack`, `ReturnUnderflows` together. -/
def Obligations.Returns : Prop := Say.ReturnMovesWindowBack ∧ Say.ReturnUnderflows

/-- The parts `Reconvergence`, `Priorities` together. -/
def Obligations.ReconvergenceAndPriorities : Prop := Say.Reconvergence ∧ Say.Priorities

/-- The parts `ExitLeavesBarriers`, `Traps` together. -/
def Obligations.ExitsAndTraps : Prop := Say.ExitLeavesBarriers ∧ Say.Traps

/-- The parts `UniformJumps`, `FarJumpFaults`, `SegmentQuery` together. -/
def Obligations.UniformControl : Prop := Say.UniformJumps ∧ Say.FarJumpFaults ∧ Say.SegmentQuery

/-- The parts `LocalLoads`, `TransposingLoads` together. -/
def Obligations.LocalMemoryLoads : Prop := Say.LocalLoads ∧ Say.TransposingLoads

/-- The parts `LocalStores`, `LocalAtomics` together. -/
def Obligations.LocalMemoryWrites : Prop := Say.LocalStores ∧ Say.LocalAtomics

/-- The parts `BitPlanes`, `BlockQuantisation` together. -/
def Obligations.BitPlanesAndBlocks : Prop := Say.BitPlanes ∧ Say.BlockQuantisation

/-- The parts `GlobalLoadsIssue`, `LoadDataLands` together. -/
def Obligations.GlobalLoads : Prop := Say.GlobalLoadsIssue ∧ Say.LoadDataLands

/-- The parts `GlobalStoresIssue`, `StoreIsPerformed`, `StoreAcknowledged` together. -/
def Obligations.GlobalStores : Prop := Say.GlobalStoresIssue ∧ Say.StoreIsPerformed ∧ Say.StoreAcknowledged

/-- The parts `GlobalAtomicsIssue`, `AtomicsExecute`, `DeniedAtomic` together. -/
def Obligations.GlobalAtomics : Prop := Say.GlobalAtomicsIssue ∧ Say.AtomicsExecute ∧ Say.DeniedAtomic

/-- The parts `PrefetchNeverFaults`, `MonitoredWait` together. -/
def Obligations.PrefetchAndMonitoredWait : Prop := Say.PrefetchNeverFaults ∧ Say.MonitoredWait

/-- The parts `Fences`, `FenceDeliversDenials`, `WaitForCounts` together. -/
def Obligations.FencesAndCounts : Prop := Say.Fences ∧ Say.FenceDeliversDenials ∧ Say.WaitForCounts

/-- The parts `UniformMemory`, `BitmapWords` together. -/
def Obligations.UniformAccesses : Prop := Say.UniformMemory ∧ Say.BitmapWords

/-- The parts `BarrierWords`, `BarrierFaults` together. -/
def Obligations.Barriers : Prop := Say.BarrierWords ∧ Say.BarrierFaults

/-- The parts `BarrierPhaseCompletes`, `Notices` together. -/
def Obligations.BarrierPhases : Prop := Say.BarrierPhaseCompletes ∧ Say.Notices

/-- The parts `AccumulatorWords`, `AccumulatorReadsAndStores` together. -/
def Obligations.Accumulators : Prop := Say.AccumulatorWords ∧ Say.AccumulatorReadsAndStores

/-- The parts `TransfersRun`, `LoadChunkArrives` together. -/
def Obligations.Transfers : Prop := Say.TransfersRun ∧ Say.LoadChunkArrives

/-- The parts `TransferFaults`, `ChunkTest` together. -/
def Obligations.TransferFaultsAndTests : Prop := Say.TransferFaults ∧ Say.ChunkTest

/-- The parts `LaunchUnit`, `LaunchWalk`, `LaunchCompletes` together. -/
def Obligations.LaunchUnits : Prop := Say.LaunchUnit ∧ Say.LaunchWalk ∧ Say.LaunchCompletes

/-- The parts `TasksStart`, `SegmentFetch` together. -/
def Obligations.TasksAndSegments : Prop := Say.TasksStart ∧ Say.SegmentFetch

/-- The parts `FaultDisposal`, `FaultResolution` together. -/
def Obligations.FaultHandling : Prop := Say.FaultDisposal ∧ Say.FaultResolution

/-- The parts `WatchdogEndAndSystemCalls`, `TaskEnds` together. -/
def Obligations.EndsAndSystemCalls : Prop := Say.WatchdogEndAndSystemCalls ∧ Say.TaskEnds

/-- The parts `BankCommands`, `BankElements` together. -/
def Obligations.Banks : Prop := Say.BankCommands ∧ Say.BankElements

/-- The parts `MatrixWordsIssue`, `MatrixWordsComplete` together. -/
def Obligations.MatrixWords : Prop := Say.MatrixWordsIssue ∧ Say.MatrixWordsComplete

/-- The parts `ExpertWords`, `ExpertCommands` together. -/
def Obligations.Experts : Prop := Say.ExpertWords ∧ Say.ExpertCommands

/-- The parts `RingWords`, `RingCommands`, `RingStates` together. -/
def Obligations.Rings : Prop := Say.RingWords ∧ Say.RingCommands ∧ Say.RingStates

/-- The parts `RegisterWrites`, `Contexts` together. -/
def Obligations.RegistersAndContexts : Prop := Say.RegisterWrites ∧ Say.Contexts

/-- The parts `Boot`, `HandOver`, `Links`, `LehrStates` together. -/
def Obligations.BootLinksAndPower : Prop := Say.Boot ∧ Say.HandOver ∧ Say.Links ∧ Say.LehrStates

/-- The parts `FloatRounding`, `Conversions`, `SpecialFunctionBounds` together. -/
def Obligations.FloatArithmetic : Prop := Say.FloatRounding ∧ Say.Conversions ∧ Say.SpecialFunctionBounds

/-- The parts `EntryChoice`, `LastWord` together. -/
def Obligations.IssueOrder : Prop := Say.EntryChoice ∧ Say.LastWord

/-- The parts `ResetMemory`, `ResetValues` together. -/
def Obligations.Reset : Prop := Say.ResetMemory ∧ Say.ResetValues
end

