-- ==== Sys2Proof/Laws/AList.lean ====
section
/-!
SUPPORT. Laws of sparse maps and memory: a read after a write, a write leaves every other place alone, every operation keeps
the canonical form.
-/
namespace Sys2Proof.Machine

variable {α : Type}

@[simp] theorem AList.get_nil (d : α) (k : Nat) : AList.get d [] k = d := rfl

@[simp] theorem AList.get_drop_same (d : α) (m : AList α) (k : Nat) : AList.get d (AList.drop m k) k = d := by
  induction m with
  | nil => rfl
  | cons p t ih =>
    obtain ⟨k', v⟩ := p
    by_cases h : k = k' <;> simp [AList.drop, AList.get, h] <;> simpa [h] using ih

theorem AList.get_drop_other (d : α) (m : AList α) {k j : Nat} (h : j ≠ k) : AList.get d (AList.drop m k) j = AList.get d m j := by
  induction m with
  | nil => rfl
  | cons p t ih =>
    obtain ⟨k', v⟩ := p
    by_cases e : k = k'
    · subst e; simp [AList.drop, AList.get, h, ih]
    · by_cases f : j = k' <;> simp [AList.drop, AList.get, e, f, ih]

/-- A read after a write to the same key gives the value written. -/
@[simp] theorem AList.get_set_same [DecidableEq α] (d : α) (m : AList α) (k : Nat) (v : α) :
    AList.get d (AList.set d m k v) k = v := by
  induction m with
  | nil => by_cases h : v = d <;> simp [AList.set, AList.get, h]
  | cons p t ih =>
    obtain ⟨k', w⟩ := p
    unfold AList.set
    split
    · split
      · rename_i h; rw [h]; exact AList.get_drop_same d _ k
      · simp [AList.get]
    · split
      · split
        · rename_i h; rw [h]; exact AList.get_drop_same d t k
        · simp [AList.get]
      · rename_i h; simp [AList.get, h, ih]

/-- A write leaves every other key alone. -/
theorem AList.get_set_other [DecidableEq α] (d : α) (m : AList α) {k j : Nat} (v : α) (h : j ≠ k) :
    AList.get d (AList.set d m k v) j = AList.get d m j := by
  induction m with
  | nil => by_cases e : v = d <;> simp [AList.set, AList.get, e, h]
  | cons p t ih =>
    obtain ⟨k', w⟩ := p
    unfold AList.set
    split
    · split
      · exact AList.get_drop_other d _ h
      · simp [AList.get, h]
    · split
      · rename_i e; subst e
        split
        · rw [AList.get_drop_other d t h]; simp [AList.get, h]
        · simp [AList.get, h]
      · by_cases f : j = k' <;> simp [AList.get, f, ih]

theorem AList.get_set [DecidableEq α] (d : α) (m : AList α) (k j : Nat) (v : α) :
    AList.get d (AList.set d m k v) j = if j = k then v else AList.get d m j := by
  split
  · rename_i h; rw [h]; exact AList.get_set_same d m k v
  · rename_i h; exact AList.get_set_other d m v h

/-! ## The canonical form -/

theorem AList.wfFrom_weaken [DecidableEq α] (d : α) (m : AList α) {a b : Option Nat}
    (h : match a, b with | none, _ => True | some x, some y => x ≤ y | some _, none => False) (w : AList.wfFrom d b m = true) :
    AList.wfFrom d a m = true := by
  cases m with
  | nil => rfl
  | cons p t =>
    obtain ⟨k, v⟩ := p
    cases a with
    | none => simp [AList.wfFrom] at w ⊢; exact ⟨w.1.2, w.2⟩
    | some x =>
      cases b with
      | none => exact absurd h id
      | some y =>
        simp [AList.wfFrom] at w ⊢ h
        exact ⟨⟨by omega, w.1.2⟩, w.2⟩

theorem AList.drop_of_below [DecidableEq α] (d : α) (m : AList α) {k : Nat} (w : AList.wfFrom d (some k) m = true) :
    AList.drop m k = m := by
  induction m with
  | nil => rfl
  | cons p t ih =>
    obtain ⟨k', v⟩ := p
    simp [AList.wfFrom] at w
    have : k ≠ k' := by omega
    simp [AList.drop, this]
    exact ih (AList.wfFrom_weaken d t (by simp; omega) w.2)

/-- A write keeps the canonical form. -/
theorem AList.wfFrom_set [DecidableEq α] (d : α) (m : AList α) (k : Nat) (v : α) {lo : Option Nat}
    (hk : match lo with | none => True | some b => b < k) (w : AList.wfFrom d lo m = true) :
    AList.wfFrom d lo (AList.set d m k v) = true := by
  induction m generalizing lo with
  | nil =>
    unfold AList.set
    split
    · rfl
    · cases lo <;> simp_all [AList.wfFrom]
  | cons p t ih =>
    obtain ⟨k', x⟩ := p
    have w0 := w
    unfold AList.set
    simp [AList.wfFrom] at w
    have hk' : AList.wfFrom d (some k') t = true := w.2
    split
    · rename_i hlt
      have below : AList.wfFrom d (some k) ((k', x) :: t) = true := by simp [AList.wfFrom]; exact ⟨⟨hlt, w.1.2⟩, hk'⟩
      split
      · rw [AList.drop_of_below d _ below]; exact w0
      · simp [AList.wfFrom] at below ⊢
        cases lo <;> simp_all
    · split
      · rename_i e; subst e
        split
        · rw [AList.drop_of_below d t hk']
          exact AList.wfFrom_weaken d t (by cases lo <;> simp_all; omega) hk'
        · cases lo <;> simp_all [AList.wfFrom]
      · have hkk : k' < k := by omega
        have := ih (lo := some k') hkk hk'
        cases lo <;> simp_all [AList.wfFrom]

theorem AList.wf_set [DecidableEq α] (d : α) (m : AList α) (k : Nat) (v : α) (w : AList.wf d m = true) :
    AList.wf d (AList.set d m k v) = true := AList.wfFrom_set d m k v trivial w

/-- Changing every value keeps the canonical form. -/
theorem AList.wf_mapVals [DecidableEq α] (d : α) (f : α → α) (m : AList α) : AList.wf d (AList.mapVals d f m) = true := by
  have go (l : List (Nat × α)) : ∀ r, AList.wf d r = true →
      AList.wf d (l.foldl (fun r p => AList.set d r p.1 (f (AList.get d m p.1))) r) = true := by
    induction l with
    | nil => exact fun _ h => h
    | cons p t ih => exact fun r h => ih _ (AList.wf_set d r p.1 _ h)
  exact go m [] rfl

theorem AList.get_of_not_listed (d : α) (m : AList α) (k : Nat) (h : ∀ p ∈ m, p.1 ≠ k) : AList.get d m k = d := by
  induction m with
  | nil => rfl
  | cons p t ih =>
    have := h p (by simp)
    simp [AList.get, Ne.symm this]
    exact ih fun q hq => h q (by simp [hq])

/-- What a key reads as after every value is changed by a function that keeps the default. -/
theorem AList.get_mapVals [DecidableEq α] (d : α) (f : α → α) (hf : f d = d) (m : AList α) (k : Nat) :
    AList.get d (AList.mapVals d f m) k = f (AList.get d m k) := by
  have go (l : List (Nat × α)) : ∀ r, AList.get d r k = f (AList.get d m k) ∨ (AList.get d r k = d ∧ (∀ p ∈ m, p.1 = k → p ∈ l)) →
      AList.get d (l.foldl (fun r p => AList.set d r p.1 (f (AList.get d m p.1))) r) k = f (AList.get d m k) := by
    induction l with
    | nil =>
      rintro r (h | ⟨h, n⟩)
      · exact h
      · rw [List.foldl_nil, h, AList.get_of_not_listed d m k (fun p hp e => by simpa using n p hp e), hf]
    | cons p t ih =>
      intro r h
      apply ih
      by_cases e : k = p.1
      · left; rw [e, AList.get_set_same]
      · rw [AList.get_set_other _ _ _ e]
        rcases h with h | ⟨h, n⟩
        · exact .inl h
        · refine .inr ⟨h, fun q hq hk => ?_⟩
          rcases List.mem_cons.1 (n q hq hk) with rfl | hm
          · exact absurd hk.symm e
          · exact hm
  exact go m [] (.inr ⟨rfl, fun _ hp _ => hp⟩)

/-! ## Memory -/

/-- A byte write keeps memory's canonical form. -/
theorem Memory.wf_write (m : Memory) (a : Nat) (v : Byte) (w : Memory.wf m = true) : Memory.wf (Memory.write m a v) = true :=
  AList.wf_set _ m a v w

/-- Writing bytes keeps memory's canonical form. -/
theorem Memory.wf_writeBytes (bs : List Byte) (m : Memory) (a : Nat) (w : Memory.wf m = true) :
    Memory.wf (Memory.writeBytes m a bs) = true := by
  induction bs generalizing m a with
  | nil => exact w
  | cons b t ih => exact ih _ _ (Memory.wf_write m a b w)

@[simp] theorem Memory.read_write_same (m : Memory) (a : Nat) (v : Byte) : Memory.read (Memory.write m a v) a = v :=
  AList.get_set_same _ m a v

theorem Memory.read_write_other (m : Memory) {a b : Nat} (v : Byte) (h : b ≠ a) :
    Memory.read (Memory.write m a v) b = Memory.read m b := AList.get_set_other _ m v h

/-- Writing bytes changes no byte outside them. -/
theorem Memory.read_writeBytes_other (bs : List Byte) (m : Memory) (a b : Nat) (h : b < a ∨ a + bs.length ≤ b) :
    Memory.read (Memory.writeBytes m a bs) b = Memory.read m b := by
  induction bs generalizing m a with
  | nil => rfl
  | cons x t ih =>
    simp only [List.length_cons] at h
    rw [Memory.writeBytes, ih _ _ (by omega), Memory.read_write_other _ _ (by omega)]

/-- A byte read after writing bytes over it is the byte written. -/
theorem Memory.read_writeBytes (bs : List Byte) (m : Memory) (a i : Nat) (h : i < bs.length) :
    Memory.read (Memory.writeBytes m a bs) (a + i) = bs[i] := by
  induction bs generalizing m a i with
  | nil => exact absurd h (by simp)
  | cons x t ih =>
    cases i with
    | zero => rw [Memory.writeBytes, Memory.read_writeBytes_other _ _ _ _ (by omega)]; simp
    | succ j =>
      have := ih (Memory.write m a x) (a + 1) j (by simpa using h)
      rw [Memory.writeBytes, show a + (j + 1) = a + 1 + j by omega, this]; rfl

/-- Bytes read after writing them are the bytes written. -/
theorem Memory.readBytes_writeBytes (bs : List Byte) (m : Memory) (a : Nat) :
    Memory.readBytes (Memory.writeBytes m a bs) a bs.length = bs := by
  apply List.ext_getElem
  · simp [Memory.readBytes]
  · intro i h1 h2
    simp [Memory.readBytes, Memory.read_writeBytes bs m a i h2]

theorem Memory.wf_nil : Memory.wf [] = true := rfl

end Sys2Proof.Machine
end

