-- ==== Sys2Proof/Laws/State.lean ====
section
/-!
SUPPORT. Laws of the updates of State: for each update and each field it does not write, that the field stands; what an accessor
reads after an update; and for each larger operation of Ops, which parts of the state it can change.
-/
namespace Sys2Proof.Machine

open Sys2Proof

/-! ## setTask -/

@[simp] theorem State.setTask_turns (s : State) (h : Nat) (t : Option Task) : (s.setTask h t).turns = s.turns := rfl
@[simp] theorem State.setTask_cur (s : State) (h : Nat) (t : Option Task) : (s.setTask h t).cur = s.cur := rfl
@[simp] theorem State.setTask_tick (s : State) (h : Nat) (t : Option Task) : (s.setTask h t).tick = s.tick := rfl
@[simp] theorem State.setTask_nextId (s : State) (h : Nat) (t : Option Task) : (s.setTask h t).nextId = s.nextId := rfl
@[simp] theorem State.setTask_mem (s : State) (h : Nat) (t : Option Task) : (s.setTask h t).mem = s.mem := rfl
@[simp] theorem State.setTask_memPoison (s : State) (h : Nat) (t : Option Task) : (s.setTask h t).memPoison = s.memPoison := rfl
@[simp] theorem State.setTask_sticky (s : State) (h : Nat) (t : Option Task) : (s.setTask h t).sticky = s.sticky := rfl
@[simp] theorem State.setTask_guards (s : State) (h : Nat) (t : Option Task) : (s.setTask h t).guards = s.guards := rfl
@[simp] theorem State.setTask_cores (s : State) (h : Nat) (t : Option Task) : (s.setTask h t).cores = s.cores := rfl
@[simp] theorem State.setTask_clusters (s : State) (h : Nat) (t : Option Task) : (s.setTask h t).clusters = s.clusters := rfl
@[simp] theorem State.setTask_dies (s : State) (h : Nat) (t : Option Task) : (s.setTask h t).dies = s.dies := rfl
@[simp] theorem State.setTask_contexts (s : State) (h : Nat) (t : Option Task) : (s.setTask h t).contexts = s.contexts := rfl
@[simp] theorem State.setTask_launches (s : State) (h : Nat) (t : Option Task) : (s.setTask h t).launches = s.launches := rfl
@[simp] theorem State.setTask_nextLaunch (s : State) (h : Nat) (t : Option Task) : (s.setTask h t).nextLaunch = s.nextLaunch := rfl
@[simp] theorem State.setTask_loads (s : State) (h : Nat) (t : Option Task) : (s.setTask h t).loads = s.loads := rfl
@[simp] theorem State.setTask_writes (s : State) (h : Nat) (t : Option Task) : (s.setTask h t).writes = s.writes := rfl
@[simp] theorem State.setTask_atoms (s : State) (h : Nat) (t : Option Task) : (s.setTask h t).atoms = s.atoms := rfl
@[simp] theorem State.setTask_remotes (s : State) (h : Nat) (t : Option Task) : (s.setTask h t).remotes = s.remotes := rfl
@[simp] theorem State.setTask_transfers (s : State) (h : Nat) (t : Option Task) : (s.setTask h t).transfers = s.transfers := rfl
@[simp] theorem State.setTask_fetches (s : State) (h : Nat) (t : Option Task) : (s.setTask h t).fetches = s.fetches := rfl
@[simp] theorem State.setTask_bankCmds (s : State) (h : Nat) (t : Option Task) : (s.setTask h t).bankCmds = s.bankCmds := rfl
@[simp] theorem State.setTask_merges (s : State) (h : Nat) (t : Option Task) : (s.setTask h t).merges = s.merges := rfl
@[simp] theorem State.setTask_engine (s : State) (h : Nat) (t : Option Task) : (s.setTask h t).engine = s.engine := rfl
@[simp] theorem State.setTask_ringCmds (s : State) (h : Nat) (t : Option Task) : (s.setTask h t).ringCmds = s.ringCmds := rfl
@[simp] theorem State.setTask_notices (s : State) (h : Nat) (t : Option Task) : (s.setTask h t).notices = s.notices := rfl
@[simp] theorem State.setTask_experts (s : State) (h : Nat) (t : Option Task) : (s.setTask h t).experts = s.experts := rfl
@[simp] theorem State.setTask_shoots (s : State) (h : Nat) (t : Option Task) : (s.setTask h t).shoots = s.shoots := rfl
@[simp] theorem State.setTask_cmds (s : State) (h : Nat) (t : Option Task) : (s.setTask h t).cmds = s.cmds := rfl
@[simp] theorem State.setTask_readData (s : State) (h : Nat) (t : Option Task) : (s.setTask h t).readData = s.readData := rfl
@[simp] theorem State.setTask_boot (s : State) (h : Nat) (t : Option Task) : (s.setTask h t).boot = s.boot := rfl
@[simp] theorem State.setTask_hand (s : State) (h : Nat) (t : Option Task) : (s.setTask h t).hand = s.hand := rfl
@[simp] theorem State.setTask_lehr (s : State) (h : Nat) (t : Option Task) : (s.setTask h t).lehr = s.lehr := rfl
@[simp] theorem State.setTask_edgesDown (s : State) (h : Nat) (t : Option Task) : (s.setTask h t).edgesDown = s.edgesDown := rfl
@[simp] theorem State.setTask_versions (s : State) (h : Nat) (t : Option Task) : (s.setTask h t).versions = s.versions := rfl
@[simp] theorem State.setTask_retransmits (s : State) (h : Nat) (t : Option Task) : (s.setTask h t).retransmits = s.retransmits := rfl
@[simp] theorem State.setTask_fabricOut (s : State) (h : Nat) (t : Option Task) : (s.setTask h t).fabricOut = s.fabricOut := rfl
@[simp] theorem State.setTask_fabricIn (s : State) (h : Nat) (t : Option Task) : (s.setTask h t).fabricIn = s.fabricIn := rfl

/-! ## modTask -/

@[simp] theorem State.modTask_turns (s : State) (h : Nat) (f : Task → Task) : (s.modTask h f).turns = s.turns := by unfold State.modTask; split <;> rfl
@[simp] theorem State.modTask_cur (s : State) (h : Nat) (f : Task → Task) : (s.modTask h f).cur = s.cur := by unfold State.modTask; split <;> rfl
@[simp] theorem State.modTask_tick (s : State) (h : Nat) (f : Task → Task) : (s.modTask h f).tick = s.tick := by unfold State.modTask; split <;> rfl
@[simp] theorem State.modTask_nextId (s : State) (h : Nat) (f : Task → Task) : (s.modTask h f).nextId = s.nextId := by unfold State.modTask; split <;> rfl
@[simp] theorem State.modTask_mem (s : State) (h : Nat) (f : Task → Task) : (s.modTask h f).mem = s.mem := by unfold State.modTask; split <;> rfl
@[simp] theorem State.modTask_memPoison (s : State) (h : Nat) (f : Task → Task) : (s.modTask h f).memPoison = s.memPoison := by unfold State.modTask; split <;> rfl
@[simp] theorem State.modTask_sticky (s : State) (h : Nat) (f : Task → Task) : (s.modTask h f).sticky = s.sticky := by unfold State.modTask; split <;> rfl
@[simp] theorem State.modTask_guards (s : State) (h : Nat) (f : Task → Task) : (s.modTask h f).guards = s.guards := by unfold State.modTask; split <;> rfl
@[simp] theorem State.modTask_cores (s : State) (h : Nat) (f : Task → Task) : (s.modTask h f).cores = s.cores := by unfold State.modTask; split <;> rfl
@[simp] theorem State.modTask_clusters (s : State) (h : Nat) (f : Task → Task) : (s.modTask h f).clusters = s.clusters := by unfold State.modTask; split <;> rfl
@[simp] theorem State.modTask_dies (s : State) (h : Nat) (f : Task → Task) : (s.modTask h f).dies = s.dies := by unfold State.modTask; split <;> rfl
@[simp] theorem State.modTask_contexts (s : State) (h : Nat) (f : Task → Task) : (s.modTask h f).contexts = s.contexts := by unfold State.modTask; split <;> rfl
@[simp] theorem State.modTask_launches (s : State) (h : Nat) (f : Task → Task) : (s.modTask h f).launches = s.launches := by unfold State.modTask; split <;> rfl
@[simp] theorem State.modTask_nextLaunch (s : State) (h : Nat) (f : Task → Task) : (s.modTask h f).nextLaunch = s.nextLaunch := by unfold State.modTask; split <;> rfl
@[simp] theorem State.modTask_loads (s : State) (h : Nat) (f : Task → Task) : (s.modTask h f).loads = s.loads := by unfold State.modTask; split <;> rfl
@[simp] theorem State.modTask_writes (s : State) (h : Nat) (f : Task → Task) : (s.modTask h f).writes = s.writes := by unfold State.modTask; split <;> rfl
@[simp] theorem State.modTask_atoms (s : State) (h : Nat) (f : Task → Task) : (s.modTask h f).atoms = s.atoms := by unfold State.modTask; split <;> rfl
@[simp] theorem State.modTask_remotes (s : State) (h : Nat) (f : Task → Task) : (s.modTask h f).remotes = s.remotes := by unfold State.modTask; split <;> rfl
@[simp] theorem State.modTask_transfers (s : State) (h : Nat) (f : Task → Task) : (s.modTask h f).transfers = s.transfers := by unfold State.modTask; split <;> rfl
@[simp] theorem State.modTask_fetches (s : State) (h : Nat) (f : Task → Task) : (s.modTask h f).fetches = s.fetches := by unfold State.modTask; split <;> rfl
@[simp] theorem State.modTask_bankCmds (s : State) (h : Nat) (f : Task → Task) : (s.modTask h f).bankCmds = s.bankCmds := by unfold State.modTask; split <;> rfl
@[simp] theorem State.modTask_merges (s : State) (h : Nat) (f : Task → Task) : (s.modTask h f).merges = s.merges := by unfold State.modTask; split <;> rfl
@[simp] theorem State.modTask_engine (s : State) (h : Nat) (f : Task → Task) : (s.modTask h f).engine = s.engine := by unfold State.modTask; split <;> rfl
@[simp] theorem State.modTask_ringCmds (s : State) (h : Nat) (f : Task → Task) : (s.modTask h f).ringCmds = s.ringCmds := by unfold State.modTask; split <;> rfl
@[simp] theorem State.modTask_notices (s : State) (h : Nat) (f : Task → Task) : (s.modTask h f).notices = s.notices := by unfold State.modTask; split <;> rfl
@[simp] theorem State.modTask_experts (s : State) (h : Nat) (f : Task → Task) : (s.modTask h f).experts = s.experts := by unfold State.modTask; split <;> rfl
@[simp] theorem State.modTask_shoots (s : State) (h : Nat) (f : Task → Task) : (s.modTask h f).shoots = s.shoots := by unfold State.modTask; split <;> rfl
@[simp] theorem State.modTask_cmds (s : State) (h : Nat) (f : Task → Task) : (s.modTask h f).cmds = s.cmds := by unfold State.modTask; split <;> rfl
@[simp] theorem State.modTask_readData (s : State) (h : Nat) (f : Task → Task) : (s.modTask h f).readData = s.readData := by unfold State.modTask; split <;> rfl
@[simp] theorem State.modTask_boot (s : State) (h : Nat) (f : Task → Task) : (s.modTask h f).boot = s.boot := by unfold State.modTask; split <;> rfl
@[simp] theorem State.modTask_hand (s : State) (h : Nat) (f : Task → Task) : (s.modTask h f).hand = s.hand := by unfold State.modTask; split <;> rfl
@[simp] theorem State.modTask_lehr (s : State) (h : Nat) (f : Task → Task) : (s.modTask h f).lehr = s.lehr := by unfold State.modTask; split <;> rfl
@[simp] theorem State.modTask_edgesDown (s : State) (h : Nat) (f : Task → Task) : (s.modTask h f).edgesDown = s.edgesDown := by unfold State.modTask; split <;> rfl
@[simp] theorem State.modTask_versions (s : State) (h : Nat) (f : Task → Task) : (s.modTask h f).versions = s.versions := by unfold State.modTask; split <;> rfl
@[simp] theorem State.modTask_retransmits (s : State) (h : Nat) (f : Task → Task) : (s.modTask h f).retransmits = s.retransmits := by unfold State.modTask; split <;> rfl
@[simp] theorem State.modTask_fabricOut (s : State) (h : Nat) (f : Task → Task) : (s.modTask h f).fabricOut = s.fabricOut := by unfold State.modTask; split <;> rfl
@[simp] theorem State.modTask_fabricIn (s : State) (h : Nat) (f : Task → Task) : (s.modTask h f).fabricIn = s.fabricIn := by unfold State.modTask; split <;> rfl

/-! ## modGang -/

@[simp] theorem State.modGang_turns (s : State) (h g : Nat) (f : Gang → Gang) : (s.modGang h g f).turns = s.turns := State.modTask_turns _ _ _
@[simp] theorem State.modGang_cur (s : State) (h g : Nat) (f : Gang → Gang) : (s.modGang h g f).cur = s.cur := State.modTask_cur _ _ _
@[simp] theorem State.modGang_tick (s : State) (h g : Nat) (f : Gang → Gang) : (s.modGang h g f).tick = s.tick := State.modTask_tick _ _ _
@[simp] theorem State.modGang_nextId (s : State) (h g : Nat) (f : Gang → Gang) : (s.modGang h g f).nextId = s.nextId := State.modTask_nextId _ _ _
@[simp] theorem State.modGang_mem (s : State) (h g : Nat) (f : Gang → Gang) : (s.modGang h g f).mem = s.mem := State.modTask_mem _ _ _
@[simp] theorem State.modGang_memPoison (s : State) (h g : Nat) (f : Gang → Gang) : (s.modGang h g f).memPoison = s.memPoison := State.modTask_memPoison _ _ _
@[simp] theorem State.modGang_sticky (s : State) (h g : Nat) (f : Gang → Gang) : (s.modGang h g f).sticky = s.sticky := State.modTask_sticky _ _ _
@[simp] theorem State.modGang_guards (s : State) (h g : Nat) (f : Gang → Gang) : (s.modGang h g f).guards = s.guards := State.modTask_guards _ _ _
@[simp] theorem State.modGang_cores (s : State) (h g : Nat) (f : Gang → Gang) : (s.modGang h g f).cores = s.cores := State.modTask_cores _ _ _
@[simp] theorem State.modGang_clusters (s : State) (h g : Nat) (f : Gang → Gang) : (s.modGang h g f).clusters = s.clusters := State.modTask_clusters _ _ _
@[simp] theorem State.modGang_dies (s : State) (h g : Nat) (f : Gang → Gang) : (s.modGang h g f).dies = s.dies := State.modTask_dies _ _ _
@[simp] theorem State.modGang_contexts (s : State) (h g : Nat) (f : Gang → Gang) : (s.modGang h g f).contexts = s.contexts := State.modTask_contexts _ _ _
@[simp] theorem State.modGang_launches (s : State) (h g : Nat) (f : Gang → Gang) : (s.modGang h g f).launches = s.launches := State.modTask_launches _ _ _
@[simp] theorem State.modGang_nextLaunch (s : State) (h g : Nat) (f : Gang → Gang) : (s.modGang h g f).nextLaunch = s.nextLaunch := State.modTask_nextLaunch _ _ _
@[simp] theorem State.modGang_loads (s : State) (h g : Nat) (f : Gang → Gang) : (s.modGang h g f).loads = s.loads := State.modTask_loads _ _ _
@[simp] theorem State.modGang_writes (s : State) (h g : Nat) (f : Gang → Gang) : (s.modGang h g f).writes = s.writes := State.modTask_writes _ _ _
@[simp] theorem State.modGang_atoms (s : State) (h g : Nat) (f : Gang → Gang) : (s.modGang h g f).atoms = s.atoms := State.modTask_atoms _ _ _
@[simp] theorem State.modGang_remotes (s : State) (h g : Nat) (f : Gang → Gang) : (s.modGang h g f).remotes = s.remotes := State.modTask_remotes _ _ _
@[simp] theorem State.modGang_transfers (s : State) (h g : Nat) (f : Gang → Gang) : (s.modGang h g f).transfers = s.transfers := State.modTask_transfers _ _ _
@[simp] theorem State.modGang_fetches (s : State) (h g : Nat) (f : Gang → Gang) : (s.modGang h g f).fetches = s.fetches := State.modTask_fetches _ _ _
@[simp] theorem State.modGang_bankCmds (s : State) (h g : Nat) (f : Gang → Gang) : (s.modGang h g f).bankCmds = s.bankCmds := State.modTask_bankCmds _ _ _
@[simp] theorem State.modGang_merges (s : State) (h g : Nat) (f : Gang → Gang) : (s.modGang h g f).merges = s.merges := State.modTask_merges _ _ _
@[simp] theorem State.modGang_engine (s : State) (h g : Nat) (f : Gang → Gang) : (s.modGang h g f).engine = s.engine := State.modTask_engine _ _ _
@[simp] theorem State.modGang_ringCmds (s : State) (h g : Nat) (f : Gang → Gang) : (s.modGang h g f).ringCmds = s.ringCmds := State.modTask_ringCmds _ _ _
@[simp] theorem State.modGang_notices (s : State) (h g : Nat) (f : Gang → Gang) : (s.modGang h g f).notices = s.notices := State.modTask_notices _ _ _
@[simp] theorem State.modGang_experts (s : State) (h g : Nat) (f : Gang → Gang) : (s.modGang h g f).experts = s.experts := State.modTask_experts _ _ _
@[simp] theorem State.modGang_shoots (s : State) (h g : Nat) (f : Gang → Gang) : (s.modGang h g f).shoots = s.shoots := State.modTask_shoots _ _ _
@[simp] theorem State.modGang_cmds (s : State) (h g : Nat) (f : Gang → Gang) : (s.modGang h g f).cmds = s.cmds := State.modTask_cmds _ _ _
@[simp] theorem State.modGang_readData (s : State) (h g : Nat) (f : Gang → Gang) : (s.modGang h g f).readData = s.readData := State.modTask_readData _ _ _
@[simp] theorem State.modGang_boot (s : State) (h g : Nat) (f : Gang → Gang) : (s.modGang h g f).boot = s.boot := State.modTask_boot _ _ _
@[simp] theorem State.modGang_hand (s : State) (h g : Nat) (f : Gang → Gang) : (s.modGang h g f).hand = s.hand := State.modTask_hand _ _ _
@[simp] theorem State.modGang_lehr (s : State) (h g : Nat) (f : Gang → Gang) : (s.modGang h g f).lehr = s.lehr := State.modTask_lehr _ _ _
@[simp] theorem State.modGang_edgesDown (s : State) (h g : Nat) (f : Gang → Gang) : (s.modGang h g f).edgesDown = s.edgesDown := State.modTask_edgesDown _ _ _
@[simp] theorem State.modGang_versions (s : State) (h g : Nat) (f : Gang → Gang) : (s.modGang h g f).versions = s.versions := State.modTask_versions _ _ _
@[simp] theorem State.modGang_retransmits (s : State) (h g : Nat) (f : Gang → Gang) : (s.modGang h g f).retransmits = s.retransmits := State.modTask_retransmits _ _ _
@[simp] theorem State.modGang_fabricOut (s : State) (h g : Nat) (f : Gang → Gang) : (s.modGang h g f).fabricOut = s.fabricOut := State.modTask_fabricOut _ _ _
@[simp] theorem State.modGang_fabricIn (s : State) (h g : Nat) (f : Gang → Gang) : (s.modGang h g f).fabricIn = s.fabricIn := State.modTask_fabricIn _ _ _

/-! ## modCore -/

@[simp] theorem State.modCore_turns (s : State) (c : Nat) (f : Core → Core) : (s.modCore c f).turns = s.turns := rfl
@[simp] theorem State.modCore_cur (s : State) (c : Nat) (f : Core → Core) : (s.modCore c f).cur = s.cur := rfl
@[simp] theorem State.modCore_tick (s : State) (c : Nat) (f : Core → Core) : (s.modCore c f).tick = s.tick := rfl
@[simp] theorem State.modCore_nextId (s : State) (c : Nat) (f : Core → Core) : (s.modCore c f).nextId = s.nextId := rfl
@[simp] theorem State.modCore_mem (s : State) (c : Nat) (f : Core → Core) : (s.modCore c f).mem = s.mem := rfl
@[simp] theorem State.modCore_memPoison (s : State) (c : Nat) (f : Core → Core) : (s.modCore c f).memPoison = s.memPoison := rfl
@[simp] theorem State.modCore_sticky (s : State) (c : Nat) (f : Core → Core) : (s.modCore c f).sticky = s.sticky := rfl
@[simp] theorem State.modCore_guards (s : State) (c : Nat) (f : Core → Core) : (s.modCore c f).guards = s.guards := rfl
@[simp] theorem State.modCore_tasks (s : State) (c : Nat) (f : Core → Core) : (s.modCore c f).tasks = s.tasks := rfl
@[simp] theorem State.modCore_clusters (s : State) (c : Nat) (f : Core → Core) : (s.modCore c f).clusters = s.clusters := rfl
@[simp] theorem State.modCore_dies (s : State) (c : Nat) (f : Core → Core) : (s.modCore c f).dies = s.dies := rfl
@[simp] theorem State.modCore_contexts (s : State) (c : Nat) (f : Core → Core) : (s.modCore c f).contexts = s.contexts := rfl
@[simp] theorem State.modCore_launches (s : State) (c : Nat) (f : Core → Core) : (s.modCore c f).launches = s.launches := rfl
@[simp] theorem State.modCore_nextLaunch (s : State) (c : Nat) (f : Core → Core) : (s.modCore c f).nextLaunch = s.nextLaunch := rfl
@[simp] theorem State.modCore_loads (s : State) (c : Nat) (f : Core → Core) : (s.modCore c f).loads = s.loads := rfl
@[simp] theorem State.modCore_writes (s : State) (c : Nat) (f : Core → Core) : (s.modCore c f).writes = s.writes := rfl
@[simp] theorem State.modCore_atoms (s : State) (c : Nat) (f : Core → Core) : (s.modCore c f).atoms = s.atoms := rfl
@[simp] theorem State.modCore_remotes (s : State) (c : Nat) (f : Core → Core) : (s.modCore c f).remotes = s.remotes := rfl
@[simp] theorem State.modCore_transfers (s : State) (c : Nat) (f : Core → Core) : (s.modCore c f).transfers = s.transfers := rfl
@[simp] theorem State.modCore_fetches (s : State) (c : Nat) (f : Core → Core) : (s.modCore c f).fetches = s.fetches := rfl
@[simp] theorem State.modCore_bankCmds (s : State) (c : Nat) (f : Core → Core) : (s.modCore c f).bankCmds = s.bankCmds := rfl
@[simp] theorem State.modCore_merges (s : State) (c : Nat) (f : Core → Core) : (s.modCore c f).merges = s.merges := rfl
@[simp] theorem State.modCore_engine (s : State) (c : Nat) (f : Core → Core) : (s.modCore c f).engine = s.engine := rfl
@[simp] theorem State.modCore_ringCmds (s : State) (c : Nat) (f : Core → Core) : (s.modCore c f).ringCmds = s.ringCmds := rfl
@[simp] theorem State.modCore_notices (s : State) (c : Nat) (f : Core → Core) : (s.modCore c f).notices = s.notices := rfl
@[simp] theorem State.modCore_experts (s : State) (c : Nat) (f : Core → Core) : (s.modCore c f).experts = s.experts := rfl
@[simp] theorem State.modCore_shoots (s : State) (c : Nat) (f : Core → Core) : (s.modCore c f).shoots = s.shoots := rfl
@[simp] theorem State.modCore_cmds (s : State) (c : Nat) (f : Core → Core) : (s.modCore c f).cmds = s.cmds := rfl
@[simp] theorem State.modCore_readData (s : State) (c : Nat) (f : Core → Core) : (s.modCore c f).readData = s.readData := rfl
@[simp] theorem State.modCore_boot (s : State) (c : Nat) (f : Core → Core) : (s.modCore c f).boot = s.boot := rfl
@[simp] theorem State.modCore_hand (s : State) (c : Nat) (f : Core → Core) : (s.modCore c f).hand = s.hand := rfl
@[simp] theorem State.modCore_lehr (s : State) (c : Nat) (f : Core → Core) : (s.modCore c f).lehr = s.lehr := rfl
@[simp] theorem State.modCore_edgesDown (s : State) (c : Nat) (f : Core → Core) : (s.modCore c f).edgesDown = s.edgesDown := rfl
@[simp] theorem State.modCore_versions (s : State) (c : Nat) (f : Core → Core) : (s.modCore c f).versions = s.versions := rfl
@[simp] theorem State.modCore_retransmits (s : State) (c : Nat) (f : Core → Core) : (s.modCore c f).retransmits = s.retransmits := rfl
@[simp] theorem State.modCore_fabricOut (s : State) (c : Nat) (f : Core → Core) : (s.modCore c f).fabricOut = s.fabricOut := rfl
@[simp] theorem State.modCore_fabricIn (s : State) (c : Nat) (f : Core → Core) : (s.modCore c f).fabricIn = s.fabricIn := rfl

/-! ## modCluster -/

@[simp] theorem State.modCluster_turns (s : State) (k : Nat) (f : Cluster → Cluster) : (s.modCluster k f).turns = s.turns := rfl
@[simp] theorem State.modCluster_cur (s : State) (k : Nat) (f : Cluster → Cluster) : (s.modCluster k f).cur = s.cur := rfl
@[simp] theorem State.modCluster_tick (s : State) (k : Nat) (f : Cluster → Cluster) : (s.modCluster k f).tick = s.tick := rfl
@[simp] theorem State.modCluster_nextId (s : State) (k : Nat) (f : Cluster → Cluster) : (s.modCluster k f).nextId = s.nextId := rfl
@[simp] theorem State.modCluster_mem (s : State) (k : Nat) (f : Cluster → Cluster) : (s.modCluster k f).mem = s.mem := rfl
@[simp] theorem State.modCluster_memPoison (s : State) (k : Nat) (f : Cluster → Cluster) : (s.modCluster k f).memPoison = s.memPoison := rfl
@[simp] theorem State.modCluster_sticky (s : State) (k : Nat) (f : Cluster → Cluster) : (s.modCluster k f).sticky = s.sticky := rfl
@[simp] theorem State.modCluster_guards (s : State) (k : Nat) (f : Cluster → Cluster) : (s.modCluster k f).guards = s.guards := rfl
@[simp] theorem State.modCluster_tasks (s : State) (k : Nat) (f : Cluster → Cluster) : (s.modCluster k f).tasks = s.tasks := rfl
@[simp] theorem State.modCluster_cores (s : State) (k : Nat) (f : Cluster → Cluster) : (s.modCluster k f).cores = s.cores := rfl
@[simp] theorem State.modCluster_dies (s : State) (k : Nat) (f : Cluster → Cluster) : (s.modCluster k f).dies = s.dies := rfl
@[simp] theorem State.modCluster_contexts (s : State) (k : Nat) (f : Cluster → Cluster) : (s.modCluster k f).contexts = s.contexts := rfl
@[simp] theorem State.modCluster_launches (s : State) (k : Nat) (f : Cluster → Cluster) : (s.modCluster k f).launches = s.launches := rfl
@[simp] theorem State.modCluster_nextLaunch (s : State) (k : Nat) (f : Cluster → Cluster) : (s.modCluster k f).nextLaunch = s.nextLaunch := rfl
@[simp] theorem State.modCluster_loads (s : State) (k : Nat) (f : Cluster → Cluster) : (s.modCluster k f).loads = s.loads := rfl
@[simp] theorem State.modCluster_writes (s : State) (k : Nat) (f : Cluster → Cluster) : (s.modCluster k f).writes = s.writes := rfl
@[simp] theorem State.modCluster_atoms (s : State) (k : Nat) (f : Cluster → Cluster) : (s.modCluster k f).atoms = s.atoms := rfl
@[simp] theorem State.modCluster_remotes (s : State) (k : Nat) (f : Cluster → Cluster) : (s.modCluster k f).remotes = s.remotes := rfl
@[simp] theorem State.modCluster_transfers (s : State) (k : Nat) (f : Cluster → Cluster) : (s.modCluster k f).transfers = s.transfers := rfl
@[simp] theorem State.modCluster_fetches (s : State) (k : Nat) (f : Cluster → Cluster) : (s.modCluster k f).fetches = s.fetches := rfl
@[simp] theorem State.modCluster_bankCmds (s : State) (k : Nat) (f : Cluster → Cluster) : (s.modCluster k f).bankCmds = s.bankCmds := rfl
@[simp] theorem State.modCluster_merges (s : State) (k : Nat) (f : Cluster → Cluster) : (s.modCluster k f).merges = s.merges := rfl
@[simp] theorem State.modCluster_engine (s : State) (k : Nat) (f : Cluster → Cluster) : (s.modCluster k f).engine = s.engine := rfl
@[simp] theorem State.modCluster_ringCmds (s : State) (k : Nat) (f : Cluster → Cluster) : (s.modCluster k f).ringCmds = s.ringCmds := rfl
@[simp] theorem State.modCluster_notices (s : State) (k : Nat) (f : Cluster → Cluster) : (s.modCluster k f).notices = s.notices := rfl
@[simp] theorem State.modCluster_experts (s : State) (k : Nat) (f : Cluster → Cluster) : (s.modCluster k f).experts = s.experts := rfl
@[simp] theorem State.modCluster_shoots (s : State) (k : Nat) (f : Cluster → Cluster) : (s.modCluster k f).shoots = s.shoots := rfl
@[simp] theorem State.modCluster_cmds (s : State) (k : Nat) (f : Cluster → Cluster) : (s.modCluster k f).cmds = s.cmds := rfl
@[simp] theorem State.modCluster_readData (s : State) (k : Nat) (f : Cluster → Cluster) : (s.modCluster k f).readData = s.readData := rfl
@[simp] theorem State.modCluster_boot (s : State) (k : Nat) (f : Cluster → Cluster) : (s.modCluster k f).boot = s.boot := rfl
@[simp] theorem State.modCluster_hand (s : State) (k : Nat) (f : Cluster → Cluster) : (s.modCluster k f).hand = s.hand := rfl
@[simp] theorem State.modCluster_lehr (s : State) (k : Nat) (f : Cluster → Cluster) : (s.modCluster k f).lehr = s.lehr := rfl
@[simp] theorem State.modCluster_edgesDown (s : State) (k : Nat) (f : Cluster → Cluster) : (s.modCluster k f).edgesDown = s.edgesDown := rfl
@[simp] theorem State.modCluster_versions (s : State) (k : Nat) (f : Cluster → Cluster) : (s.modCluster k f).versions = s.versions := rfl
@[simp] theorem State.modCluster_retransmits (s : State) (k : Nat) (f : Cluster → Cluster) : (s.modCluster k f).retransmits = s.retransmits := rfl
@[simp] theorem State.modCluster_fabricOut (s : State) (k : Nat) (f : Cluster → Cluster) : (s.modCluster k f).fabricOut = s.fabricOut := rfl
@[simp] theorem State.modCluster_fabricIn (s : State) (k : Nat) (f : Cluster → Cluster) : (s.modCluster k f).fabricIn = s.fabricIn := rfl

/-! ## modStream -/

@[simp] theorem State.modStream_turns (s : State) (k i : Nat) (f : Stream → Stream) : (s.modStream k i f).turns = s.turns := rfl
@[simp] theorem State.modStream_cur (s : State) (k i : Nat) (f : Stream → Stream) : (s.modStream k i f).cur = s.cur := rfl
@[simp] theorem State.modStream_tick (s : State) (k i : Nat) (f : Stream → Stream) : (s.modStream k i f).tick = s.tick := rfl
@[simp] theorem State.modStream_nextId (s : State) (k i : Nat) (f : Stream → Stream) : (s.modStream k i f).nextId = s.nextId := rfl
@[simp] theorem State.modStream_mem (s : State) (k i : Nat) (f : Stream → Stream) : (s.modStream k i f).mem = s.mem := rfl
@[simp] theorem State.modStream_memPoison (s : State) (k i : Nat) (f : Stream → Stream) : (s.modStream k i f).memPoison = s.memPoison := rfl
@[simp] theorem State.modStream_sticky (s : State) (k i : Nat) (f : Stream → Stream) : (s.modStream k i f).sticky = s.sticky := rfl
@[simp] theorem State.modStream_guards (s : State) (k i : Nat) (f : Stream → Stream) : (s.modStream k i f).guards = s.guards := rfl
@[simp] theorem State.modStream_tasks (s : State) (k i : Nat) (f : Stream → Stream) : (s.modStream k i f).tasks = s.tasks := rfl
@[simp] theorem State.modStream_cores (s : State) (k i : Nat) (f : Stream → Stream) : (s.modStream k i f).cores = s.cores := rfl
@[simp] theorem State.modStream_dies (s : State) (k i : Nat) (f : Stream → Stream) : (s.modStream k i f).dies = s.dies := rfl
@[simp] theorem State.modStream_contexts (s : State) (k i : Nat) (f : Stream → Stream) : (s.modStream k i f).contexts = s.contexts := rfl
@[simp] theorem State.modStream_launches (s : State) (k i : Nat) (f : Stream → Stream) : (s.modStream k i f).launches = s.launches := rfl
@[simp] theorem State.modStream_nextLaunch (s : State) (k i : Nat) (f : Stream → Stream) : (s.modStream k i f).nextLaunch = s.nextLaunch := rfl
@[simp] theorem State.modStream_loads (s : State) (k i : Nat) (f : Stream → Stream) : (s.modStream k i f).loads = s.loads := rfl
@[simp] theorem State.modStream_writes (s : State) (k i : Nat) (f : Stream → Stream) : (s.modStream k i f).writes = s.writes := rfl
@[simp] theorem State.modStream_atoms (s : State) (k i : Nat) (f : Stream → Stream) : (s.modStream k i f).atoms = s.atoms := rfl
@[simp] theorem State.modStream_remotes (s : State) (k i : Nat) (f : Stream → Stream) : (s.modStream k i f).remotes = s.remotes := rfl
@[simp] theorem State.modStream_transfers (s : State) (k i : Nat) (f : Stream → Stream) : (s.modStream k i f).transfers = s.transfers := rfl
@[simp] theorem State.modStream_fetches (s : State) (k i : Nat) (f : Stream → Stream) : (s.modStream k i f).fetches = s.fetches := rfl
@[simp] theorem State.modStream_bankCmds (s : State) (k i : Nat) (f : Stream → Stream) : (s.modStream k i f).bankCmds = s.bankCmds := rfl
@[simp] theorem State.modStream_merges (s : State) (k i : Nat) (f : Stream → Stream) : (s.modStream k i f).merges = s.merges := rfl
@[simp] theorem State.modStream_engine (s : State) (k i : Nat) (f : Stream → Stream) : (s.modStream k i f).engine = s.engine := rfl
@[simp] theorem State.modStream_ringCmds (s : State) (k i : Nat) (f : Stream → Stream) : (s.modStream k i f).ringCmds = s.ringCmds := rfl
@[simp] theorem State.modStream_notices (s : State) (k i : Nat) (f : Stream → Stream) : (s.modStream k i f).notices = s.notices := rfl
@[simp] theorem State.modStream_experts (s : State) (k i : Nat) (f : Stream → Stream) : (s.modStream k i f).experts = s.experts := rfl
@[simp] theorem State.modStream_shoots (s : State) (k i : Nat) (f : Stream → Stream) : (s.modStream k i f).shoots = s.shoots := rfl
@[simp] theorem State.modStream_cmds (s : State) (k i : Nat) (f : Stream → Stream) : (s.modStream k i f).cmds = s.cmds := rfl
@[simp] theorem State.modStream_readData (s : State) (k i : Nat) (f : Stream → Stream) : (s.modStream k i f).readData = s.readData := rfl
@[simp] theorem State.modStream_boot (s : State) (k i : Nat) (f : Stream → Stream) : (s.modStream k i f).boot = s.boot := rfl
@[simp] theorem State.modStream_hand (s : State) (k i : Nat) (f : Stream → Stream) : (s.modStream k i f).hand = s.hand := rfl
@[simp] theorem State.modStream_lehr (s : State) (k i : Nat) (f : Stream → Stream) : (s.modStream k i f).lehr = s.lehr := rfl
@[simp] theorem State.modStream_edgesDown (s : State) (k i : Nat) (f : Stream → Stream) : (s.modStream k i f).edgesDown = s.edgesDown := rfl
@[simp] theorem State.modStream_versions (s : State) (k i : Nat) (f : Stream → Stream) : (s.modStream k i f).versions = s.versions := rfl
@[simp] theorem State.modStream_retransmits (s : State) (k i : Nat) (f : Stream → Stream) : (s.modStream k i f).retransmits = s.retransmits := rfl
@[simp] theorem State.modStream_fabricOut (s : State) (k i : Nat) (f : Stream → Stream) : (s.modStream k i f).fabricOut = s.fabricOut := rfl
@[simp] theorem State.modStream_fabricIn (s : State) (k i : Nat) (f : Stream → Stream) : (s.modStream k i f).fabricIn = s.fabricIn := rfl

/-! ## modDie -/

@[simp] theorem State.modDie_turns (s : State) (d : Nat) (f : Die → Die) : (s.modDie d f).turns = s.turns := rfl
@[simp] theorem State.modDie_cur (s : State) (d : Nat) (f : Die → Die) : (s.modDie d f).cur = s.cur := rfl
@[simp] theorem State.modDie_tick (s : State) (d : Nat) (f : Die → Die) : (s.modDie d f).tick = s.tick := rfl
@[simp] theorem State.modDie_nextId (s : State) (d : Nat) (f : Die → Die) : (s.modDie d f).nextId = s.nextId := rfl
@[simp] theorem State.modDie_mem (s : State) (d : Nat) (f : Die → Die) : (s.modDie d f).mem = s.mem := rfl
@[simp] theorem State.modDie_memPoison (s : State) (d : Nat) (f : Die → Die) : (s.modDie d f).memPoison = s.memPoison := rfl
@[simp] theorem State.modDie_sticky (s : State) (d : Nat) (f : Die → Die) : (s.modDie d f).sticky = s.sticky := rfl
@[simp] theorem State.modDie_guards (s : State) (d : Nat) (f : Die → Die) : (s.modDie d f).guards = s.guards := rfl
@[simp] theorem State.modDie_tasks (s : State) (d : Nat) (f : Die → Die) : (s.modDie d f).tasks = s.tasks := rfl
@[simp] theorem State.modDie_cores (s : State) (d : Nat) (f : Die → Die) : (s.modDie d f).cores = s.cores := rfl
@[simp] theorem State.modDie_clusters (s : State) (d : Nat) (f : Die → Die) : (s.modDie d f).clusters = s.clusters := rfl
@[simp] theorem State.modDie_contexts (s : State) (d : Nat) (f : Die → Die) : (s.modDie d f).contexts = s.contexts := rfl
@[simp] theorem State.modDie_launches (s : State) (d : Nat) (f : Die → Die) : (s.modDie d f).launches = s.launches := rfl
@[simp] theorem State.modDie_nextLaunch (s : State) (d : Nat) (f : Die → Die) : (s.modDie d f).nextLaunch = s.nextLaunch := rfl
@[simp] theorem State.modDie_loads (s : State) (d : Nat) (f : Die → Die) : (s.modDie d f).loads = s.loads := rfl
@[simp] theorem State.modDie_writes (s : State) (d : Nat) (f : Die → Die) : (s.modDie d f).writes = s.writes := rfl
@[simp] theorem State.modDie_atoms (s : State) (d : Nat) (f : Die → Die) : (s.modDie d f).atoms = s.atoms := rfl
@[simp] theorem State.modDie_remotes (s : State) (d : Nat) (f : Die → Die) : (s.modDie d f).remotes = s.remotes := rfl
@[simp] theorem State.modDie_transfers (s : State) (d : Nat) (f : Die → Die) : (s.modDie d f).transfers = s.transfers := rfl
@[simp] theorem State.modDie_fetches (s : State) (d : Nat) (f : Die → Die) : (s.modDie d f).fetches = s.fetches := rfl
@[simp] theorem State.modDie_bankCmds (s : State) (d : Nat) (f : Die → Die) : (s.modDie d f).bankCmds = s.bankCmds := rfl
@[simp] theorem State.modDie_merges (s : State) (d : Nat) (f : Die → Die) : (s.modDie d f).merges = s.merges := rfl
@[simp] theorem State.modDie_engine (s : State) (d : Nat) (f : Die → Die) : (s.modDie d f).engine = s.engine := rfl
@[simp] theorem State.modDie_ringCmds (s : State) (d : Nat) (f : Die → Die) : (s.modDie d f).ringCmds = s.ringCmds := rfl
@[simp] theorem State.modDie_notices (s : State) (d : Nat) (f : Die → Die) : (s.modDie d f).notices = s.notices := rfl
@[simp] theorem State.modDie_experts (s : State) (d : Nat) (f : Die → Die) : (s.modDie d f).experts = s.experts := rfl
@[simp] theorem State.modDie_shoots (s : State) (d : Nat) (f : Die → Die) : (s.modDie d f).shoots = s.shoots := rfl
@[simp] theorem State.modDie_cmds (s : State) (d : Nat) (f : Die → Die) : (s.modDie d f).cmds = s.cmds := rfl
@[simp] theorem State.modDie_readData (s : State) (d : Nat) (f : Die → Die) : (s.modDie d f).readData = s.readData := rfl
@[simp] theorem State.modDie_boot (s : State) (d : Nat) (f : Die → Die) : (s.modDie d f).boot = s.boot := rfl
@[simp] theorem State.modDie_hand (s : State) (d : Nat) (f : Die → Die) : (s.modDie d f).hand = s.hand := rfl
@[simp] theorem State.modDie_lehr (s : State) (d : Nat) (f : Die → Die) : (s.modDie d f).lehr = s.lehr := rfl
@[simp] theorem State.modDie_edgesDown (s : State) (d : Nat) (f : Die → Die) : (s.modDie d f).edgesDown = s.edgesDown := rfl
@[simp] theorem State.modDie_versions (s : State) (d : Nat) (f : Die → Die) : (s.modDie d f).versions = s.versions := rfl
@[simp] theorem State.modDie_retransmits (s : State) (d : Nat) (f : Die → Die) : (s.modDie d f).retransmits = s.retransmits := rfl
@[simp] theorem State.modDie_fabricOut (s : State) (d : Nat) (f : Die → Die) : (s.modDie d f).fabricOut = s.fabricOut := rfl
@[simp] theorem State.modDie_fabricIn (s : State) (d : Nat) (f : Die → Die) : (s.modDie d f).fabricIn = s.fabricIn := rfl

/-! ## post -/

@[simp] theorem State.post_turns (s : State) (d : Nat) (e : SchedEvent) : (s.post d e).turns = s.turns := rfl
@[simp] theorem State.post_cur (s : State) (d : Nat) (e : SchedEvent) : (s.post d e).cur = s.cur := rfl
@[simp] theorem State.post_tick (s : State) (d : Nat) (e : SchedEvent) : (s.post d e).tick = s.tick := rfl
@[simp] theorem State.post_nextId (s : State) (d : Nat) (e : SchedEvent) : (s.post d e).nextId = s.nextId := rfl
@[simp] theorem State.post_mem (s : State) (d : Nat) (e : SchedEvent) : (s.post d e).mem = s.mem := rfl
@[simp] theorem State.post_memPoison (s : State) (d : Nat) (e : SchedEvent) : (s.post d e).memPoison = s.memPoison := rfl
@[simp] theorem State.post_sticky (s : State) (d : Nat) (e : SchedEvent) : (s.post d e).sticky = s.sticky := rfl
@[simp] theorem State.post_guards (s : State) (d : Nat) (e : SchedEvent) : (s.post d e).guards = s.guards := rfl
@[simp] theorem State.post_tasks (s : State) (d : Nat) (e : SchedEvent) : (s.post d e).tasks = s.tasks := rfl
@[simp] theorem State.post_cores (s : State) (d : Nat) (e : SchedEvent) : (s.post d e).cores = s.cores := rfl
@[simp] theorem State.post_clusters (s : State) (d : Nat) (e : SchedEvent) : (s.post d e).clusters = s.clusters := rfl
@[simp] theorem State.post_contexts (s : State) (d : Nat) (e : SchedEvent) : (s.post d e).contexts = s.contexts := rfl
@[simp] theorem State.post_launches (s : State) (d : Nat) (e : SchedEvent) : (s.post d e).launches = s.launches := rfl
@[simp] theorem State.post_nextLaunch (s : State) (d : Nat) (e : SchedEvent) : (s.post d e).nextLaunch = s.nextLaunch := rfl
@[simp] theorem State.post_loads (s : State) (d : Nat) (e : SchedEvent) : (s.post d e).loads = s.loads := rfl
@[simp] theorem State.post_writes (s : State) (d : Nat) (e : SchedEvent) : (s.post d e).writes = s.writes := rfl
@[simp] theorem State.post_atoms (s : State) (d : Nat) (e : SchedEvent) : (s.post d e).atoms = s.atoms := rfl
@[simp] theorem State.post_remotes (s : State) (d : Nat) (e : SchedEvent) : (s.post d e).remotes = s.remotes := rfl
@[simp] theorem State.post_transfers (s : State) (d : Nat) (e : SchedEvent) : (s.post d e).transfers = s.transfers := rfl
@[simp] theorem State.post_fetches (s : State) (d : Nat) (e : SchedEvent) : (s.post d e).fetches = s.fetches := rfl
@[simp] theorem State.post_bankCmds (s : State) (d : Nat) (e : SchedEvent) : (s.post d e).bankCmds = s.bankCmds := rfl
@[simp] theorem State.post_merges (s : State) (d : Nat) (e : SchedEvent) : (s.post d e).merges = s.merges := rfl
@[simp] theorem State.post_engine (s : State) (d : Nat) (e : SchedEvent) : (s.post d e).engine = s.engine := rfl
@[simp] theorem State.post_ringCmds (s : State) (d : Nat) (e : SchedEvent) : (s.post d e).ringCmds = s.ringCmds := rfl
@[simp] theorem State.post_notices (s : State) (d : Nat) (e : SchedEvent) : (s.post d e).notices = s.notices := rfl
@[simp] theorem State.post_experts (s : State) (d : Nat) (e : SchedEvent) : (s.post d e).experts = s.experts := rfl
@[simp] theorem State.post_shoots (s : State) (d : Nat) (e : SchedEvent) : (s.post d e).shoots = s.shoots := rfl
@[simp] theorem State.post_cmds (s : State) (d : Nat) (e : SchedEvent) : (s.post d e).cmds = s.cmds := rfl
@[simp] theorem State.post_readData (s : State) (d : Nat) (e : SchedEvent) : (s.post d e).readData = s.readData := rfl
@[simp] theorem State.post_boot (s : State) (d : Nat) (e : SchedEvent) : (s.post d e).boot = s.boot := rfl
@[simp] theorem State.post_hand (s : State) (d : Nat) (e : SchedEvent) : (s.post d e).hand = s.hand := rfl
@[simp] theorem State.post_lehr (s : State) (d : Nat) (e : SchedEvent) : (s.post d e).lehr = s.lehr := rfl
@[simp] theorem State.post_edgesDown (s : State) (d : Nat) (e : SchedEvent) : (s.post d e).edgesDown = s.edgesDown := rfl
@[simp] theorem State.post_versions (s : State) (d : Nat) (e : SchedEvent) : (s.post d e).versions = s.versions := rfl
@[simp] theorem State.post_retransmits (s : State) (d : Nat) (e : SchedEvent) : (s.post d e).retransmits = s.retransmits := rfl
@[simp] theorem State.post_fabricOut (s : State) (d : Nat) (e : SchedEvent) : (s.post d e).fabricOut = s.fabricOut := rfl
@[simp] theorem State.post_fabricIn (s : State) (d : Nat) (e : SchedEvent) : (s.post d e).fabricIn = s.fabricIn := rfl

/-! ## modContext -/

@[simp] theorem State.modContext_turns (s : State) (c : Nat) (f : Context → Context) : (s.modContext c f).turns = s.turns := by unfold State.modContext; split <;> rfl
@[simp] theorem State.modContext_cur (s : State) (c : Nat) (f : Context → Context) : (s.modContext c f).cur = s.cur := by unfold State.modContext; split <;> rfl
@[simp] theorem State.modContext_tick (s : State) (c : Nat) (f : Context → Context) : (s.modContext c f).tick = s.tick := by unfold State.modContext; split <;> rfl
@[simp] theorem State.modContext_nextId (s : State) (c : Nat) (f : Context → Context) : (s.modContext c f).nextId = s.nextId := by unfold State.modContext; split <;> rfl
@[simp] theorem State.modContext_mem (s : State) (c : Nat) (f : Context → Context) : (s.modContext c f).mem = s.mem := by unfold State.modContext; split <;> rfl
@[simp] theorem State.modContext_memPoison (s : State) (c : Nat) (f : Context → Context) : (s.modContext c f).memPoison = s.memPoison := by unfold State.modContext; split <;> rfl
@[simp] theorem State.modContext_sticky (s : State) (c : Nat) (f : Context → Context) : (s.modContext c f).sticky = s.sticky := by unfold State.modContext; split <;> rfl
@[simp] theorem State.modContext_guards (s : State) (c : Nat) (f : Context → Context) : (s.modContext c f).guards = s.guards := by unfold State.modContext; split <;> rfl
@[simp] theorem State.modContext_tasks (s : State) (c : Nat) (f : Context → Context) : (s.modContext c f).tasks = s.tasks := by unfold State.modContext; split <;> rfl
@[simp] theorem State.modContext_cores (s : State) (c : Nat) (f : Context → Context) : (s.modContext c f).cores = s.cores := by unfold State.modContext; split <;> rfl
@[simp] theorem State.modContext_clusters (s : State) (c : Nat) (f : Context → Context) : (s.modContext c f).clusters = s.clusters := by unfold State.modContext; split <;> rfl
@[simp] theorem State.modContext_dies (s : State) (c : Nat) (f : Context → Context) : (s.modContext c f).dies = s.dies := by unfold State.modContext; split <;> rfl
@[simp] theorem State.modContext_launches (s : State) (c : Nat) (f : Context → Context) : (s.modContext c f).launches = s.launches := by unfold State.modContext; split <;> rfl
@[simp] theorem State.modContext_nextLaunch (s : State) (c : Nat) (f : Context → Context) : (s.modContext c f).nextLaunch = s.nextLaunch := by unfold State.modContext; split <;> rfl
@[simp] theorem State.modContext_loads (s : State) (c : Nat) (f : Context → Context) : (s.modContext c f).loads = s.loads := by unfold State.modContext; split <;> rfl
@[simp] theorem State.modContext_writes (s : State) (c : Nat) (f : Context → Context) : (s.modContext c f).writes = s.writes := by unfold State.modContext; split <;> rfl
@[simp] theorem State.modContext_atoms (s : State) (c : Nat) (f : Context → Context) : (s.modContext c f).atoms = s.atoms := by unfold State.modContext; split <;> rfl
@[simp] theorem State.modContext_remotes (s : State) (c : Nat) (f : Context → Context) : (s.modContext c f).remotes = s.remotes := by unfold State.modContext; split <;> rfl
@[simp] theorem State.modContext_transfers (s : State) (c : Nat) (f : Context → Context) : (s.modContext c f).transfers = s.transfers := by unfold State.modContext; split <;> rfl
@[simp] theorem State.modContext_fetches (s : State) (c : Nat) (f : Context → Context) : (s.modContext c f).fetches = s.fetches := by unfold State.modContext; split <;> rfl
@[simp] theorem State.modContext_bankCmds (s : State) (c : Nat) (f : Context → Context) : (s.modContext c f).bankCmds = s.bankCmds := by unfold State.modContext; split <;> rfl
@[simp] theorem State.modContext_merges (s : State) (c : Nat) (f : Context → Context) : (s.modContext c f).merges = s.merges := by unfold State.modContext; split <;> rfl
@[simp] theorem State.modContext_engine (s : State) (c : Nat) (f : Context → Context) : (s.modContext c f).engine = s.engine := by unfold State.modContext; split <;> rfl
@[simp] theorem State.modContext_ringCmds (s : State) (c : Nat) (f : Context → Context) : (s.modContext c f).ringCmds = s.ringCmds := by unfold State.modContext; split <;> rfl
@[simp] theorem State.modContext_notices (s : State) (c : Nat) (f : Context → Context) : (s.modContext c f).notices = s.notices := by unfold State.modContext; split <;> rfl
@[simp] theorem State.modContext_experts (s : State) (c : Nat) (f : Context → Context) : (s.modContext c f).experts = s.experts := by unfold State.modContext; split <;> rfl
@[simp] theorem State.modContext_shoots (s : State) (c : Nat) (f : Context → Context) : (s.modContext c f).shoots = s.shoots := by unfold State.modContext; split <;> rfl
@[simp] theorem State.modContext_cmds (s : State) (c : Nat) (f : Context → Context) : (s.modContext c f).cmds = s.cmds := by unfold State.modContext; split <;> rfl
@[simp] theorem State.modContext_readData (s : State) (c : Nat) (f : Context → Context) : (s.modContext c f).readData = s.readData := by unfold State.modContext; split <;> rfl
@[simp] theorem State.modContext_boot (s : State) (c : Nat) (f : Context → Context) : (s.modContext c f).boot = s.boot := by unfold State.modContext; split <;> rfl
@[simp] theorem State.modContext_hand (s : State) (c : Nat) (f : Context → Context) : (s.modContext c f).hand = s.hand := by unfold State.modContext; split <;> rfl
@[simp] theorem State.modContext_lehr (s : State) (c : Nat) (f : Context → Context) : (s.modContext c f).lehr = s.lehr := by unfold State.modContext; split <;> rfl
@[simp] theorem State.modContext_edgesDown (s : State) (c : Nat) (f : Context → Context) : (s.modContext c f).edgesDown = s.edgesDown := by unfold State.modContext; split <;> rfl
@[simp] theorem State.modContext_versions (s : State) (c : Nat) (f : Context → Context) : (s.modContext c f).versions = s.versions := by unfold State.modContext; split <;> rfl
@[simp] theorem State.modContext_retransmits (s : State) (c : Nat) (f : Context → Context) : (s.modContext c f).retransmits = s.retransmits := by unfold State.modContext; split <;> rfl
@[simp] theorem State.modContext_fabricOut (s : State) (c : Nat) (f : Context → Context) : (s.modContext c f).fabricOut = s.fabricOut := by unfold State.modContext; split <;> rfl
@[simp] theorem State.modContext_fabricIn (s : State) (c : Nat) (f : Context → Context) : (s.modContext c f).fabricIn = s.fabricIn := by unfold State.modContext; split <;> rfl

/-! ## modLaunch -/

@[simp] theorem State.modLaunch_turns (s : State) (l : Nat) (f : Launch → Launch) : (s.modLaunch l f).turns = s.turns := by unfold State.modLaunch; split <;> rfl
@[simp] theorem State.modLaunch_cur (s : State) (l : Nat) (f : Launch → Launch) : (s.modLaunch l f).cur = s.cur := by unfold State.modLaunch; split <;> rfl
@[simp] theorem State.modLaunch_tick (s : State) (l : Nat) (f : Launch → Launch) : (s.modLaunch l f).tick = s.tick := by unfold State.modLaunch; split <;> rfl
@[simp] theorem State.modLaunch_nextId (s : State) (l : Nat) (f : Launch → Launch) : (s.modLaunch l f).nextId = s.nextId := by unfold State.modLaunch; split <;> rfl
@[simp] theorem State.modLaunch_mem (s : State) (l : Nat) (f : Launch → Launch) : (s.modLaunch l f).mem = s.mem := by unfold State.modLaunch; split <;> rfl
@[simp] theorem State.modLaunch_memPoison (s : State) (l : Nat) (f : Launch → Launch) : (s.modLaunch l f).memPoison = s.memPoison := by unfold State.modLaunch; split <;> rfl
@[simp] theorem State.modLaunch_sticky (s : State) (l : Nat) (f : Launch → Launch) : (s.modLaunch l f).sticky = s.sticky := by unfold State.modLaunch; split <;> rfl
@[simp] theorem State.modLaunch_guards (s : State) (l : Nat) (f : Launch → Launch) : (s.modLaunch l f).guards = s.guards := by unfold State.modLaunch; split <;> rfl
@[simp] theorem State.modLaunch_tasks (s : State) (l : Nat) (f : Launch → Launch) : (s.modLaunch l f).tasks = s.tasks := by unfold State.modLaunch; split <;> rfl
@[simp] theorem State.modLaunch_cores (s : State) (l : Nat) (f : Launch → Launch) : (s.modLaunch l f).cores = s.cores := by unfold State.modLaunch; split <;> rfl
@[simp] theorem State.modLaunch_clusters (s : State) (l : Nat) (f : Launch → Launch) : (s.modLaunch l f).clusters = s.clusters := by unfold State.modLaunch; split <;> rfl
@[simp] theorem State.modLaunch_dies (s : State) (l : Nat) (f : Launch → Launch) : (s.modLaunch l f).dies = s.dies := by unfold State.modLaunch; split <;> rfl
@[simp] theorem State.modLaunch_contexts (s : State) (l : Nat) (f : Launch → Launch) : (s.modLaunch l f).contexts = s.contexts := by unfold State.modLaunch; split <;> rfl
@[simp] theorem State.modLaunch_nextLaunch (s : State) (l : Nat) (f : Launch → Launch) : (s.modLaunch l f).nextLaunch = s.nextLaunch := by unfold State.modLaunch; split <;> rfl
@[simp] theorem State.modLaunch_loads (s : State) (l : Nat) (f : Launch → Launch) : (s.modLaunch l f).loads = s.loads := by unfold State.modLaunch; split <;> rfl
@[simp] theorem State.modLaunch_writes (s : State) (l : Nat) (f : Launch → Launch) : (s.modLaunch l f).writes = s.writes := by unfold State.modLaunch; split <;> rfl
@[simp] theorem State.modLaunch_atoms (s : State) (l : Nat) (f : Launch → Launch) : (s.modLaunch l f).atoms = s.atoms := by unfold State.modLaunch; split <;> rfl
@[simp] theorem State.modLaunch_remotes (s : State) (l : Nat) (f : Launch → Launch) : (s.modLaunch l f).remotes = s.remotes := by unfold State.modLaunch; split <;> rfl
@[simp] theorem State.modLaunch_transfers (s : State) (l : Nat) (f : Launch → Launch) : (s.modLaunch l f).transfers = s.transfers := by unfold State.modLaunch; split <;> rfl
@[simp] theorem State.modLaunch_fetches (s : State) (l : Nat) (f : Launch → Launch) : (s.modLaunch l f).fetches = s.fetches := by unfold State.modLaunch; split <;> rfl
@[simp] theorem State.modLaunch_bankCmds (s : State) (l : Nat) (f : Launch → Launch) : (s.modLaunch l f).bankCmds = s.bankCmds := by unfold State.modLaunch; split <;> rfl
@[simp] theorem State.modLaunch_merges (s : State) (l : Nat) (f : Launch → Launch) : (s.modLaunch l f).merges = s.merges := by unfold State.modLaunch; split <;> rfl
@[simp] theorem State.modLaunch_engine (s : State) (l : Nat) (f : Launch → Launch) : (s.modLaunch l f).engine = s.engine := by unfold State.modLaunch; split <;> rfl
@[simp] theorem State.modLaunch_ringCmds (s : State) (l : Nat) (f : Launch → Launch) : (s.modLaunch l f).ringCmds = s.ringCmds := by unfold State.modLaunch; split <;> rfl
@[simp] theorem State.modLaunch_notices (s : State) (l : Nat) (f : Launch → Launch) : (s.modLaunch l f).notices = s.notices := by unfold State.modLaunch; split <;> rfl
@[simp] theorem State.modLaunch_experts (s : State) (l : Nat) (f : Launch → Launch) : (s.modLaunch l f).experts = s.experts := by unfold State.modLaunch; split <;> rfl
@[simp] theorem State.modLaunch_shoots (s : State) (l : Nat) (f : Launch → Launch) : (s.modLaunch l f).shoots = s.shoots := by unfold State.modLaunch; split <;> rfl
@[simp] theorem State.modLaunch_cmds (s : State) (l : Nat) (f : Launch → Launch) : (s.modLaunch l f).cmds = s.cmds := by unfold State.modLaunch; split <;> rfl
@[simp] theorem State.modLaunch_readData (s : State) (l : Nat) (f : Launch → Launch) : (s.modLaunch l f).readData = s.readData := by unfold State.modLaunch; split <;> rfl
@[simp] theorem State.modLaunch_boot (s : State) (l : Nat) (f : Launch → Launch) : (s.modLaunch l f).boot = s.boot := by unfold State.modLaunch; split <;> rfl
@[simp] theorem State.modLaunch_hand (s : State) (l : Nat) (f : Launch → Launch) : (s.modLaunch l f).hand = s.hand := by unfold State.modLaunch; split <;> rfl
@[simp] theorem State.modLaunch_lehr (s : State) (l : Nat) (f : Launch → Launch) : (s.modLaunch l f).lehr = s.lehr := by unfold State.modLaunch; split <;> rfl
@[simp] theorem State.modLaunch_edgesDown (s : State) (l : Nat) (f : Launch → Launch) : (s.modLaunch l f).edgesDown = s.edgesDown := by unfold State.modLaunch; split <;> rfl
@[simp] theorem State.modLaunch_versions (s : State) (l : Nat) (f : Launch → Launch) : (s.modLaunch l f).versions = s.versions := by unfold State.modLaunch; split <;> rfl
@[simp] theorem State.modLaunch_retransmits (s : State) (l : Nat) (f : Launch → Launch) : (s.modLaunch l f).retransmits = s.retransmits := by unfold State.modLaunch; split <;> rfl
@[simp] theorem State.modLaunch_fabricOut (s : State) (l : Nat) (f : Launch → Launch) : (s.modLaunch l f).fabricOut = s.fabricOut := by unfold State.modLaunch; split <;> rfl
@[simp] theorem State.modLaunch_fabricIn (s : State) (l : Nat) (f : Launch → Launch) : (s.modLaunch l f).fabricIn = s.fabricIn := by unfold State.modLaunch; split <;> rfl

/-! ## putEntry -/

@[simp] theorem State.putEntry_turns (s : State) (h g : Nat) (e : Entry) : (s.putEntry h g e).turns = s.turns := by unfold State.putEntry; split <;> simp
@[simp] theorem State.putEntry_cur (s : State) (h g : Nat) (e : Entry) : (s.putEntry h g e).cur = s.cur := by unfold State.putEntry; split <;> simp
@[simp] theorem State.putEntry_tick (s : State) (h g : Nat) (e : Entry) : (s.putEntry h g e).tick = s.tick := by unfold State.putEntry; split <;> simp
@[simp] theorem State.putEntry_nextId (s : State) (h g : Nat) (e : Entry) : (s.putEntry h g e).nextId = s.nextId := by unfold State.putEntry; split <;> simp
@[simp] theorem State.putEntry_mem (s : State) (h g : Nat) (e : Entry) : (s.putEntry h g e).mem = s.mem := by unfold State.putEntry; split <;> simp
@[simp] theorem State.putEntry_memPoison (s : State) (h g : Nat) (e : Entry) : (s.putEntry h g e).memPoison = s.memPoison := by unfold State.putEntry; split <;> simp
@[simp] theorem State.putEntry_sticky (s : State) (h g : Nat) (e : Entry) : (s.putEntry h g e).sticky = s.sticky := by unfold State.putEntry; split <;> simp
@[simp] theorem State.putEntry_guards (s : State) (h g : Nat) (e : Entry) : (s.putEntry h g e).guards = s.guards := by unfold State.putEntry; split <;> simp
@[simp] theorem State.putEntry_cores (s : State) (h g : Nat) (e : Entry) : (s.putEntry h g e).cores = s.cores := by unfold State.putEntry; split <;> simp
@[simp] theorem State.putEntry_clusters (s : State) (h g : Nat) (e : Entry) : (s.putEntry h g e).clusters = s.clusters := by unfold State.putEntry; split <;> simp
@[simp] theorem State.putEntry_dies (s : State) (h g : Nat) (e : Entry) : (s.putEntry h g e).dies = s.dies := by unfold State.putEntry; split <;> simp
@[simp] theorem State.putEntry_contexts (s : State) (h g : Nat) (e : Entry) : (s.putEntry h g e).contexts = s.contexts := by unfold State.putEntry; split <;> simp
@[simp] theorem State.putEntry_launches (s : State) (h g : Nat) (e : Entry) : (s.putEntry h g e).launches = s.launches := by unfold State.putEntry; split <;> simp
@[simp] theorem State.putEntry_nextLaunch (s : State) (h g : Nat) (e : Entry) : (s.putEntry h g e).nextLaunch = s.nextLaunch := by unfold State.putEntry; split <;> simp
@[simp] theorem State.putEntry_loads (s : State) (h g : Nat) (e : Entry) : (s.putEntry h g e).loads = s.loads := by unfold State.putEntry; split <;> simp
@[simp] theorem State.putEntry_writes (s : State) (h g : Nat) (e : Entry) : (s.putEntry h g e).writes = s.writes := by unfold State.putEntry; split <;> simp
@[simp] theorem State.putEntry_atoms (s : State) (h g : Nat) (e : Entry) : (s.putEntry h g e).atoms = s.atoms := by unfold State.putEntry; split <;> simp
@[simp] theorem State.putEntry_remotes (s : State) (h g : Nat) (e : Entry) : (s.putEntry h g e).remotes = s.remotes := by unfold State.putEntry; split <;> simp
@[simp] theorem State.putEntry_transfers (s : State) (h g : Nat) (e : Entry) : (s.putEntry h g e).transfers = s.transfers := by unfold State.putEntry; split <;> simp
@[simp] theorem State.putEntry_fetches (s : State) (h g : Nat) (e : Entry) : (s.putEntry h g e).fetches = s.fetches := by unfold State.putEntry; split <;> simp
@[simp] theorem State.putEntry_bankCmds (s : State) (h g : Nat) (e : Entry) : (s.putEntry h g e).bankCmds = s.bankCmds := by unfold State.putEntry; split <;> simp
@[simp] theorem State.putEntry_merges (s : State) (h g : Nat) (e : Entry) : (s.putEntry h g e).merges = s.merges := by unfold State.putEntry; split <;> simp
@[simp] theorem State.putEntry_engine (s : State) (h g : Nat) (e : Entry) : (s.putEntry h g e).engine = s.engine := by unfold State.putEntry; split <;> simp
@[simp] theorem State.putEntry_ringCmds (s : State) (h g : Nat) (e : Entry) : (s.putEntry h g e).ringCmds = s.ringCmds := by unfold State.putEntry; split <;> simp
@[simp] theorem State.putEntry_notices (s : State) (h g : Nat) (e : Entry) : (s.putEntry h g e).notices = s.notices := by unfold State.putEntry; split <;> simp
@[simp] theorem State.putEntry_experts (s : State) (h g : Nat) (e : Entry) : (s.putEntry h g e).experts = s.experts := by unfold State.putEntry; split <;> simp
@[simp] theorem State.putEntry_shoots (s : State) (h g : Nat) (e : Entry) : (s.putEntry h g e).shoots = s.shoots := by unfold State.putEntry; split <;> simp
@[simp] theorem State.putEntry_cmds (s : State) (h g : Nat) (e : Entry) : (s.putEntry h g e).cmds = s.cmds := by unfold State.putEntry; split <;> simp
@[simp] theorem State.putEntry_readData (s : State) (h g : Nat) (e : Entry) : (s.putEntry h g e).readData = s.readData := by unfold State.putEntry; split <;> simp
@[simp] theorem State.putEntry_boot (s : State) (h g : Nat) (e : Entry) : (s.putEntry h g e).boot = s.boot := by unfold State.putEntry; split <;> simp
@[simp] theorem State.putEntry_hand (s : State) (h g : Nat) (e : Entry) : (s.putEntry h g e).hand = s.hand := by unfold State.putEntry; split <;> simp
@[simp] theorem State.putEntry_lehr (s : State) (h g : Nat) (e : Entry) : (s.putEntry h g e).lehr = s.lehr := by unfold State.putEntry; split <;> simp
@[simp] theorem State.putEntry_edgesDown (s : State) (h g : Nat) (e : Entry) : (s.putEntry h g e).edgesDown = s.edgesDown := by unfold State.putEntry; split <;> simp
@[simp] theorem State.putEntry_versions (s : State) (h g : Nat) (e : Entry) : (s.putEntry h g e).versions = s.versions := by unfold State.putEntry; split <;> simp
@[simp] theorem State.putEntry_retransmits (s : State) (h g : Nat) (e : Entry) : (s.putEntry h g e).retransmits = s.retransmits := by unfold State.putEntry; split <;> simp
@[simp] theorem State.putEntry_fabricOut (s : State) (h g : Nat) (e : Entry) : (s.putEntry h g e).fabricOut = s.fabricOut := by unfold State.putEntry; split <;> simp
@[simp] theorem State.putEntry_fabricIn (s : State) (h g : Nat) (e : Entry) : (s.putEntry h g e).fabricIn = s.fabricIn := by unfold State.putEntry; split <;> simp

/-! ## Accessors after updates -/

@[simp] theorem State.task_setTask (s : State) (h : Nat) (t : Option Task) : (s.setTask h t).task h = t := AList.get_set_same _ _ _ _

theorem State.task_setTask_other (s : State) {h k : Nat} (t : Option Task) (n : k ≠ h) : (s.setTask h t).task k = s.task k :=
  AList.get_set_other _ _ _ n

theorem State.task_modTask (s : State) (h : Nat) (f : Task → Task) : (s.modTask h f).task h = (s.task h).map f := by
  unfold State.modTask
  split
  · rename_i e; rw [e]; rfl
  · rename_i e; rw [State.task_setTask, e]; rfl

theorem State.task_modTask_other (s : State) {h k : Nat} (f : Task → Task) (n : k ≠ h) : (s.modTask h f).task k = s.task k := by
  unfold State.modTask
  split
  · rfl
  · exact State.task_setTask_other s _ n

@[simp] theorem Task.gang_setGang (t : Task) (g : Nat) (v : Gang) : (t.setGang g v).gang g = v := AList.get_set_same _ _ _ _

theorem Task.gang_setGang_other (t : Task) {g k : Nat} (v : Gang) (n : k ≠ g) : (t.setGang g v).gang k = t.gang k :=
  AList.get_set_other _ _ _ n

@[simp] theorem Task.setGang_variant (t : Task) (g : Nat) (v : Gang) : (t.setGang g v).variant = t.variant := rfl
@[simp] theorem Task.setGang_queues (t : Task) (g : Nat) (v : Gang) : (t.setGang g v).queues = t.queues := rfl
@[simp] theorem Task.setGang_ctx (t : Task) (g : Nat) (v : Gang) : (t.setGang g v).ctx = t.ctx := rfl
@[simp] theorem Task.setGang_launch (t : Task) (g : Nat) (v : Gang) : (t.setGang g v).launch = t.launch := rfl
@[simp] theorem Task.setGang_ident (t : Task) (g : Nat) (v : Gang) : (t.setGang g v).ident = t.ident := rfl
@[simp] theorem Task.setGang_scratch (t : Task) (g : Nat) (v : Gang) : (t.setGang g v).scratch = t.scratch := rfl
@[simp] theorem Task.setGang_barriers (t : Task) (g : Nat) (v : Gang) : (t.setGang g v).barriers = t.barriers := rfl

theorem State.task_modGang (s : State) (h g : Nat) (f : Gang → Gang) {t : Task} (e : s.task h = some t) :
    (s.modGang h g f).task h = some (t.setGang g (f (t.gang g))) := by
  unfold State.modGang
  rw [State.task_modTask, e]; rfl

theorem State.gang_of_task (s : State) {h g : Nat} {t : Task} (e : s.task h = some t) : s.gang h g = t.gang g := by
  unfold State.gang; rw [e]

theorem State.depth_of_task (s : State) {h : Nat} {t : Task} (e : s.task h = some t) : s.depth h = t.variant.depth := by
  unfold State.depth; rw [e]

/-- Changing a gang of a task that stands in no slot changes nothing. -/
theorem State.modGang_none (s : State) {h g : Nat} (f : Gang → Gang) (e : s.task h = none) : s.modGang h g f = s := by
  unfold State.modGang State.modTask; rw [e]

@[simp] theorem State.task_core (s : State) (c : Nat) (f : Core → Core) (h : Nat) : (s.modCore c f).task h = s.task h := rfl
@[simp] theorem State.task_cluster (s : State) (k : Nat) (f : Cluster → Cluster) (h : Nat) : (s.modCluster k f).task h = s.task h := rfl
@[simp] theorem State.task_stream (s : State) (k i : Nat) (f : Stream → Stream) (h : Nat) : (s.modStream k i f).task h = s.task h := rfl
@[simp] theorem State.task_die (s : State) (d : Nat) (f : Die → Die) (h : Nat) : (s.modDie d f).task h = s.task h := rfl
@[simp] theorem State.task_post (s : State) (d : Nat) (e : SchedEvent) (h : Nat) : (s.post d e).task h = s.task h := rfl
@[simp] theorem State.task_cur (s : State) (c : Option Issuer) (h : Nat) : ({ s with cur := c } : State).task h = s.task h := rfl

@[simp] theorem State.core_modCore (s : State) (c : Nat) (f : Core → Core) : (s.modCore c f).core c = f (s.core c) :=
  AList.get_set_same _ _ _ _
@[simp] theorem State.cluster_modCluster (s : State) (k : Nat) (f : Cluster → Cluster) : (s.modCluster k f).cluster k = f (s.cluster k) :=
  AList.get_set_same _ _ _ _
@[simp] theorem State.die_modDie (s : State) (d : Nat) (f : Die → Die) : (s.modDie d f).die d = f (s.die d) :=
  AList.get_set_same _ _ _ _

theorem State.launch_modLaunch (s : State) (l : Nat) (f : Launch → Launch) : (s.modLaunch l f).launch l = (s.launch l).map f := by
  unfold State.modLaunch
  split
  · rename_i e; rw [e]; rfl
  · rename_i e; unfold State.launch at e ⊢; rw [AList.get_set_same, e]; rfl

theorem State.context_modContext (s : State) (c : Nat) (f : Context → Context) : (s.modContext c f).context c = (s.context c).map f := by
  unfold State.modContext
  split
  · rename_i e; rw [e]; rfl
  · rename_i e; unfold State.context at e ⊢; rw [AList.get_set_same, e]; rfl

theorem State.stream_modStream (s : State) (k i : Nat) (f : Stream → Stream) : (s.modStream k i f).stream k i = (s.stream k i).map f := by
  unfold State.modStream State.stream
  rw [State.cluster_modCluster]
  split
  · rename_i e; rw [e]; rfl
  · rename_i e; rw [AList.get_set_same, e]; rfl

@[simp] theorem State.modGang_id_putEntry (s : State) (h g : Nat) (e : Entry) (m : e.mask = 0) : s.putEntry h g e = s := by
  unfold State.putEntry; rw [if_pos m]

/-! ## What the larger operations can change -/

/-- Writing a record changes tasks and the events of dies only. -/
theorem State.writeRecord_only (s : State) (h g : Nat) (r : Record) :
    s.writeRecord h g r = { s with tasks := (s.writeRecord h g r).tasks, dies := (s.writeRecord h g r).dies } := by
  unfold State.writeRecord State.post State.modDie State.modGang State.modTask
  split <;> rfl

theorem State.putEntry_only (s : State) (h g : Nat) (e : Entry) : s.putEntry h g e = { s with tasks := (s.putEntry h g e).tasks } := by
  unfold State.putEntry State.modGang State.modTask
  repeat' split
  all_goals rfl

/-- Raising a fault changes tasks and the events of dies only. -/
theorem State.raise_only (s : State) (h g : Nat) (f : FaultInfo) (e : Entry) :
    s.raise h g f e = { s with tasks := (s.raise h g f e).tasks, dies := (s.raise h g f e).dies } := by
  unfold State.raise
  split
  · rfl
  · split
    · rw [State.putEntry_only]
    · rw [State.putEntry_only, State.writeRecord_only]

/-- A fault of no lanes changes nothing. -/
@[simp] theorem State.raise_none (s : State) (h g : Nat) (f : FaultInfo) (e : Entry) (m : e.mask = 0) : s.raise h g f e = s := by
  unfold State.raise; rw [if_pos m]

theorem State.raiseLater_only (s : State) (h g : Nat) (f : FaultInfo) :
    s.raiseLater h g f = { s with tasks := (s.raiseLater h g f).tasks, dies := (s.raiseLater h g f).dies } := by
  unfold State.raiseLater
  split
  · rfl
  · split
    · unfold State.modGang State.modTask; split <;> rfl
    · exact State.writeRecord_only _ _ _ _

/-- Running past the end of a segment is a fault, or a wait for the record. -/
theorem State.raisePastEnd_only (s : State) (h g : Nat) (e : Entry) :
    s.raisePastEnd h g e = { s with tasks := (s.raisePastEnd h g e).tasks, dies := (s.raisePastEnd h g e).dies } := by
  unfold State.raisePastEnd
  split
  · rw [State.putEntry_only]
  · exact State.raise_only _ _ _ _ _

theorem State.advance_only (s : State) (h g : Nat) (e : Entry) (m : LaneMask) :
    s.advance h g e m = { s with tasks := (s.advance h g e m).tasks, dies := (s.advance h g e m).dies } := by
  unfold State.advance
  split
  · rfl
  · split
    · exact State.raisePastEnd_only _ _ _ _
    · rw [State.putEntry_only]

/-- Away from the last word of a full slot, lanes that go on stand ready at the next word. -/
theorem State.advance_eq (s : State) (h g : Nat) (e : Entry) (m : LaneMask) (n : e.pc.toNat % 8192 ≠ 0x1FFC) :
    s.advance h g e m = s.putEntry h g (e.at (e.pc + 4) m) := by
  unfold State.advance
  split
  · rename_i z; unfold State.putEntry; rw [if_pos (by exact z)]
  · rfl

/-- A stream's fault changes tasks, the events of dies, and streams only. -/
theorem State.raiseStream_only (s : State) (k i : Nat) (u : Bool) (pc : Word) (kind d a : Nat) :
    s.raiseStream k i u pc kind d a =
      { s with tasks := (s.raiseStream k i u pc kind d a).tasks, dies := (s.raiseStream k i u pc kind d a).dies,
               clusters := (s.raiseStream k i u pc kind d a).clusters } := by
  unfold State.raiseStream
  split
  · rfl
  · split
    · rfl
    · rw [State.writeRecord_only]; rfl

theorem State.streamNext_only (s : State) (k i : Nat) (pc : Word) :
    s.streamNext k i pc =
      { s with tasks := (s.streamNext k i pc).tasks, dies := (s.streamNext k i pc).dies,
               clusters := (s.streamNext k i pc).clusters } := by
  unfold State.streamNext
  split
  · split
    · rfl
    · split
      · rfl
      · rw [State.writeRecord_only]; rfl
  · rfl

/-- A uniform word's fault changes tasks, the events of dies, and streams only. -/
theorem State.raiseUniform_only (s : State) (w : Who) (e : Entry) (k d a : Nat) :
    s.raiseUniform w e k d a =
      { s with tasks := (s.raiseUniform w e k d a).tasks, dies := (s.raiseUniform w e k d a).dies,
               clusters := (s.raiseUniform w e k d a).clusters } := by
  unfold State.raiseUniform
  split
  · rw [State.raise_only]
  · exact State.raiseStream_only _ _ _ _ _ _ _ _

theorem State.illegal_only (s : State) (w : Who) (e : Entry) (u : Bool) (c x : Nat) :
    s.illegal w e u c x =
      { s with tasks := (s.illegal w e u c x).tasks, dies := (s.illegal w e u c x).dies,
               clusters := (s.illegal w e u c x).clusters } := by
  unfold State.illegal
  split
  · unfold State.raiseIllegal; rw [State.raise_only]
  · exact State.raiseStream_only _ _ _ _ _ _ _ _

theorem State.nextWord_only (s : State) (w : Who) (e : Entry) :
    s.nextWord w e =
      { s with tasks := (s.nextWord w e).tasks, dies := (s.nextWord w e).dies, clusters := (s.nextWord w e).clusters } := by
  unfold State.nextWord
  split
  · rw [State.advance_only]
  · exact State.streamNext_only _ _ _ _

theorem State.stayAt_only (s : State) (w : Who) (e : Entry) (st : EState) :
    s.stayAt w e st = { s with tasks := (s.stayAt w e st).tasks, clusters := (s.stayAt w e st).clusters } := by
  unfold State.stayAt
  split
  · rw [State.putEntry_only]
  · rfl

theorem State.setS_only (s : State) (w : Who) (n : Nat) (v : Word) :
    s.setS w n v = { s with tasks := (s.setS w n v).tasks, clusters := (s.setS w n v).clusters } := by
  unfold State.setS State.modGang State.modTask
  repeat' split
  all_goals rfl

theorem State.setC_only (s : State) (w : Who) (n : Nat) (b : Bool) :
    s.setC w n b = { s with tasks := (s.setC w n b).tasks, clusters := (s.setC w n b).clusters } := by
  unfold State.setC State.modGang State.modTask
  repeat' split
  all_goals rfl

/-! ## Hard-wired registers (05 R90-R92) -/

@[simp] theorem Gang.sreg_zero (gg : Gang) : gg.sreg 0 = 0 := rfl
@[simp] theorem Gang.setS_zero (gg : Gang) (v : Word) : gg.setS 0 v = gg := rfl
theorem Gang.sreg_setS (gg : Gang) {n : Nat} (v : Word) (h : n ≠ 0) : (gg.setS n v).sreg n = v := by
  simp [Gang.sreg, Gang.setS, h]
theorem Gang.sreg_setS_other (gg : Gang) {n k : Nat} (v : Word) (h : k ≠ n) : (gg.setS n v).sreg k = gg.sreg k := by
  by_cases z : n = 0
  · simp [Gang.setS, z]
  · simp [Gang.sreg, Gang.setS, z, AList.get_set_other _ _ _ h]
@[simp] theorem Gang.cbit_zero (gg : Gang) : gg.cbit 0 = true := rfl
@[simp] theorem Gang.setC_zero (gg : Gang) (b : Bool) : gg.setC 0 b = gg := rfl
@[simp] theorem Thread.pred_zero (t : Thread) : t.pred 0 = true := rfl
@[simp] theorem Thread.setPred_zero (t : Thread) (b : Bool) : t.setPred 0 b = t := rfl

/-! ## Lane registers (05 R80, R86) -/

@[simp] theorem Thread.reg_write_same (D k : Nat) (v : Word) (t : Thread) : (t.write D k v).reg D k = v := by
  simp [Thread.write, Thread.writePhys, Thread.reg, Thread.phys]

theorem Thread.stack_write_other (D k : Nat) (v : Word) (t : Thread) {p : Nat} (h : p ≠ t.phys D k) :
    AList.get 0 (t.write D k v).stack p = AList.get 0 t.stack p := by
  simp [Thread.write, Thread.writePhys, AList.get_set_other _ _ _ h]

@[simp] theorem Thread.regState_write (D k : Nat) (v : Word) (t : Thread) : (t.write D k v).regState D k = .full := by
  simp [Thread.write, Thread.writePhys, Thread.regState, Thread.phys]

@[simp] theorem Thread.regPoison_write (D k : Nat) (v : Word) (t : Thread) : (t.write D k v).regPoison D k = false := by
  simp [Thread.write, Thread.writePhys, Thread.regPoison, Thread.phys]

end Sys2Proof.Machine
end

