-- ==== Sys2Proof/Laws/Flow.lean ====
section
/-!
SUPPORT. Laws of the operations that every word shares: who issues it, its guard, where its lanes go, what raising a fault does, and what
holds a word back.
-/
namespace Sys2Proof.Machine

open Sys2Proof

/-! ## Issuing -/

/-- A gang's word runs its meaning with the entry taken out of `cur`. -/
theorem State.issuing_gang {s : State} {h g : Nat} {e : Entry} (c : s.cur = some ⟨.gang h g, e⟩) (k : Nat → Nat → Entry → State → State) :
    s.issuing k = .next (k h g e { s with cur := none }) := by simp only [State.issuing, c]

theorem State.issuingAny_some {s : State} {w : Who} {e : Entry} (c : s.cur = some ⟨w, e⟩) (k : Who → Entry → State → State) :
    s.issuingAny k = .next (k w e { s with cur := none }) := by simp only [State.issuingAny, c]

/-- Only a gang issues a word of its own. -/
theorem State.issuing_next {s s' : State} {k : Nat → Nat → Entry → State → State} (n : s.issuing k = .next s') :
    ∃ h g e, s.cur = some ⟨.gang h g, e⟩ ∧ s' = k h g e { s with cur := none } := by
  unfold State.issuing at n
  split at n
  · rename_i h g e c
    exact ⟨h, g, e, c, (Host.Outcome.next.inj n).symm⟩
  · cases n
  · cases n

/-- A uniform word that has issued, or stands under a true guard, runs; under a false one it moves on. -/
theorem State.uniform_some {s : State} {w : Who} {e : Entry} (c : s.cur = some ⟨w, e⟩) (g : BitVec 3) (k : Who → Entry → State → State) :
    s.uniform g k = .next (if e.st.issued || ({ s with cur := none } : State).cbit w g.toNat then k w e { s with cur := none }
      else ({ s with cur := none } : State).nextWord w e) := by
  simp only [State.uniform, State.issuingAny_some c]

theorem State.uniformGang_gang {s : State} {h g : Nat} {e : Entry} (c : s.cur = some ⟨.gang h g, e⟩) (b : BitVec 3)
    (k : Nat → Nat → Entry → State → State) :
    s.uniformGang b k = .next (if e.st.issued || ({ s with cur := none } : State).cbit (.gang h g) b.toNat then k h g e { s with cur := none }
      else ({ s with cur := none } : State).advance h g e e.mask) := by
  simp only [State.uniformGang, State.issuing_gang c]

/-- An event that is enabled answers its state; one that is not changes nothing. -/
@[simp] theorem event_some (t s : State) : event (some t) s = .next t := rfl
@[simp] theorem event_none (s : State) : event none s = .next s := rfl

theorem event_next (o : Option State) (s : State) : event o s = .next (o.getD s) := by cases o <;> rfl

/-! ## Where lanes go -/

/-- What moving on does: nothing for no lane, a fault past a full segment, else a ready entry at the next word. -/
theorem State.advance_cases (s : State) (h g : Nat) (e : Entry) (m : LaneMask) :
    s.advance h g e m =
      if m = 0 then s
      else if e.pc.toNat % 8192 = 0x1FFC then s.raisePastEnd h g (e.at e.pc m)
      else s.modGang h g fun gg => { gg with frontier := gg.frontier ++ [e.at (e.pc + 4) m] } := by
  unfold State.advance
  split
  · rfl
  · split
    · rfl
    · rename_i hm _
      unfold State.putEntry; rw [if_neg (show ¬(e.at (e.pc + 4) m).mask = 0 from hm)]

/-! ## Faults -/

/-- With the record free a fault writes it and parks its lanes. -/
theorem State.raise_free {s : State} {h g : Nat} {e : Entry} (f : FaultInfo) (m : e.mask ≠ 0) (b : (s.gang h g).record.busy = false) :
    s.raise h g f e = (s.writeRecord h g (s.recordOf h g f)).putEntry h g
      { e with st := .parked (if f.kind = kPAGE then .page else .fault), qkeep := [], held := none } := by
  unfold State.raise; rw [if_neg m, if_neg (by simp [b])]

/-- With the record busy the lanes park without one. -/
theorem State.raise_busy {s : State} {h g : Nat} {e : Entry} (f : FaultInfo) (m : e.mask ≠ 0) (b : (s.gang h g).record.busy = true) :
    s.raise h g f e = s.putEntry h g { e with st := .parked .noRecord } := by
  unfold State.raise; rw [if_neg m, if_pos b]

theorem State.raise_no_lane {s : State} {h g : Nat} {e : Entry} (f : FaultInfo) (m : e.mask = 0) : s.raise h g f e = s := by
  simp [State.raise, m]

/-! ## Ordering -/

/-- Nothing holds the agent back: the word runs. -/
theorem State.gate_free {s : State} {w : Who} (b : s.heldBack w = false) (e : Entry) (k : State → State) : s.gate w e k = k s := by
  simp [State.gate, b]

/-- A release that is done lets the rest of the word run; another stalls. -/
theorem State.release_done {s : State} {w : Who} {e : Entry} {scope : Nat} (b : s.releaseDone w scope (s.upto e) = true) (base : Nat)
    (k : State → State) : s.release w e scope base k = k s := by
  simp [State.release, b]

theorem State.release_waits {s : State} {w : Who} {e : Entry} {scope : Nat} (b : s.releaseDone w scope (s.upto e) = false) (base : Nat)
    (k : State → State) : s.release w e scope base k = s.stayAt w e (.stall (.release scope (s.upto e) base)) := by
  simp [State.release, b]

/-! ## Memory -/

/-- ORing bits into a slot keeps memory's canonical form. -/
theorem State.wf_orSlot (s : State) (slot b : Nat) (w : Memory.wf s.mem = true) : Memory.wf (s.orSlot slot b).mem = true :=
  Memory.wf_writeBytes _ _ _ w

/-- A walk that installs a translation keeps it. -/
theorem State.wf_install (s : State) (k ctx va : Nat) (d : Bool) (w : Memory.wf s.mem = true) :
    Memory.wf (s.install k ctx va d).2.mem = true := by
  unfold State.install
  split
  · exact w
  · simpa using State.wf_orSlot s _ _ w

theorem State.wf_setDirty (s : State) (k ctx va : Nat) (t : TlbEntry) (w : Memory.wf s.mem = true) :
    Memory.wf (s.setDirty k ctx va t).2.mem = true := by
  unfold State.setDirty
  dsimp only
  split
  · exact w
  · split
    · split
      · exact State.wf_install s _ _ _ _ w
      · exact w
    · split
      · simpa using State.wf_orSlot s _ _ w
      · exact State.wf_install s _ _ _ _ w

theorem State.wf_translate (s : State) (k ctx va : Nat) (wr : Bool) (w : Memory.wf s.mem = true) :
    Memory.wf (s.translate k ctx va wr).2.mem = true := by
  unfold State.translate
  split
  · split
    · exact State.wf_setDirty s _ _ _ _ w
    · exact w
  · exact State.wf_install s _ _ _ _ w

/-- The checks of an access keep it. -/
theorem State.wf_check (s : State) (k ctx va al n : Nat) (a : Access) (w : Memory.wf s.mem = true) :
    Memory.wf (s.check k ctx va al n a).2.mem = true := by
  have t := State.wf_translate s k ctx va a.writes w
  unfold State.check
  split
  · exact w
  · split
    · exact w
    · split
      · rename_i e; rw [e] at t; exact t
      · rename_i e; rw [e] at t
        dsimp only
        split
        · exact t
        · split <;> exact t

end Sys2Proof.Machine
end

