-- ==== Sys2Proof/Laws/Lane.lean ====
section
/-!
SUPPORT. Laws of the lane words' shared operations: the masks, when a lane word has its operands, and what it then does.
-/
namespace Sys2Proof.Machine

open Sys2Proof

/-! ## Masks -/

theorem laneBit_getLsbD (i j : Nat) (h : i < 32) : (laneBit i).getLsbD j = decide (i = j) := by
  unfold laneBit
  rw [BitVec.getLsbD_shiftLeft]
  by_cases e : i = j
  · subst e; simp [h]
  · rcases Nat.lt_or_ge j i with l | l
    · simp [e, l]
    · have : j - i ≠ 0 := by omega
      simp [e, BitVec.getLsbD_one, this]

theorem foldl_laneBit (p : Nat → Bool) (j : Nat) (hj : j < 32) (l : List Nat) (hl : ∀ i ∈ l, i < 32) (m : LaneMask) :
    (l.foldl (fun m i => if p i then m ||| laneBit i else m) m).getLsbD j = (m.getLsbD j || (decide (j ∈ l) && p j)) := by
  induction l generalizing m with
  | nil => simp
  | cons a t ih =>
    simp only [List.foldl_cons]
    rw [ih (fun i hi => hl i (List.mem_cons_of_mem _ hi))]
    have ha : a < 32 := hl a List.mem_cons_self
    by_cases e : a = j
    · subst e
      cases hp : p a <;> simp [laneBit_getLsbD _ _ ha]
    · have e' : ¬ j = a := fun x => e x.symm
      cases hp : p a <;> simp [laneBit_getLsbD _ _ ha, e, e']

theorem and_allOnes (m : LaneMask) : m &&& 4294967295#32 = m := by
  have : (4294967295#32 : LaneMask) = BitVec.allOnes 32 := rfl
  rw [this, BitVec.and_allOnes]

/-- A lane is in the mask of a test when it satisfies it. -/
theorem maskOf_getLsbD (p : Nat → Bool) (j : Nat) (hj : j < 32) : (maskOf p).getLsbD j = p j := by
  unfold maskOf
  rw [foldl_laneBit p j hj _ (fun i hi => List.mem_range.mp hi)]
  simp [hj]

theorem maskOf_eq_zero {p : Nat → Bool} (h : ∀ i, i < 32 → p i = false) : maskOf p = 0 := by
  apply BitVec.eq_of_getLsbD_eq
  intro i hi
  rw [maskOf_getLsbD p i hi, h i hi]; simp

theorem mem_lanesOf {m : LaneMask} {i : Nat} : i ∈ lanesOf m ↔ i < 32 ∧ m.getLsbD i = true := by
  unfold lanesOf; rw [List.mem_filter, List.mem_range]

@[simp] theorem lanesOf_zero : lanesOf 0#32 = [] := by decide

/-! ## Operands -/

/-- Register `k` is full in the lanes of `m`. -/
def Gang.FullIn (D : Nat) (gg : Gang) (m : LaneMask) (k : Nat) : Prop :=
  ∀ i, i < 32 → m.getLsbD i = true → (gg.thread i).regState D k = .full

/-- Register `k` is free of poison in the lanes of `m`. -/
def Gang.CleanIn (D : Nat) (gg : Gang) (m : LaneMask) (k : Nat) : Prop :=
  ∀ i, i < 32 → m.getLsbD i = true → (gg.thread i).regPoison D k = false

theorem Gang.notFull_of (D : Nat) (gg : Gang) (m : LaneMask) (k : Nat) (h : gg.FullIn D m k) : gg.notFull D m k = 0 := by
  apply maskOf_eq_zero
  intro i hi
  cases q : m.getLsbD i
  · rfl
  · simp [h i hi q]

theorem Gang.interlocked_of (D : Nat) (gg : Gang) (m : LaneMask) (k : Nat) (h : gg.FullIn D m k) : gg.interlocked D m k = 0 := by
  apply maskOf_eq_zero
  intro i hi
  cases q : m.getLsbD i
  · rfl
  · simp [h i hi q]

theorem Gang.poisoned_of (D : Nat) (gg : Gang) (m : LaneMask) (k : Nat) (h : gg.CleanIn D m k) : gg.poisoned D m k = 0 := by
  apply maskOf_eq_zero
  intro i hi
  cases q : m.getLsbD i
  · rfl
  · simp [h i hi q]

@[simp] theorem Gang.physOf_zero (D : Nat) (gg : Gang) (k : Nat) : gg.physOf D 0#32 k = [] := by
  simp [Gang.physOf]

/-- Every operand of a lane word that is a register, and no port, is full where it is read or written, and without
poison where it is read. -/
structure Gang.Ready (D : Nat) (gg : Gang) (act : LaneMask) (sp : LaneSpec) : Prop where
  src : ∀ p ∈ sp.srcs, p.1 < 28 ∧ gg.FullIn D act p.1 ∧ gg.CleanIn D act p.1
  third : ∀ k ∈ sp.third, gg.FullIn D act k ∧ gg.CleanIn D act k
  more : ∀ p ∈ sp.more, p.1 < 28 ∧ gg.FullIn D (p.2.of act) p.1 ∧ gg.CleanIn D (p.2.of act) p.1
  dst : ∀ k ∈ sp.dsts, gg.FullIn D act k
  push : sp.push = none

theorem isPort_of_lt {r : Nat} (h : r < 28) : isPort r = false := by simp [isPort]; omega

theorem Gang.Ready.waits {D : Nat} {gg : Gang} {act : LaneMask} {sp : LaneSpec} (r : gg.Ready D act sp) : gg.waits D act sp = [] := by
  unfold Gang.waits
  simp only [List.append_eq_nil_iff, List.flatMap_eq_nil_iff]
  refine ⟨⟨?_, ?_⟩, ?_⟩
  · intro p hp
    obtain ⟨q, f, -⟩ := r.src p hp
    rw [isPort_of_lt q, Gang.interlocked_of _ _ _ _ f, Gang.notFull_of _ _ _ _ f]; simp
  · intro p hp
    obtain ⟨q, f, -⟩ := r.more p hp
    rw [isPort_of_lt q, Gang.notFull_of _ _ _ _ f]; simp
  · intro k hk
    rcases List.mem_append.mp hk with a | a
    · rw [Gang.notFull_of _ _ _ _ (r.third k a).1]; simp
    · rw [Gang.notFull_of _ _ _ _ (r.dst k a)]; simp

theorem foldl_or_zero {α : Type} (l : List α) (f : LaneMask → α → LaneMask) (h : ∀ a ∈ l, f 0 a = 0) : l.foldl f 0 = 0 := by
  induction l with
  | nil => rfl
  | cons a t ih =>
    rw [List.foldl_cons, h a List.mem_cons_self]
    exact ih fun b hb => h b (List.mem_cons_of_mem _ hb)

theorem Gang.Ready.traps {D : Nat} {gg : Gang} {act : LaneMask} {sp : LaneSpec} (r : gg.Ready D act sp) : gg.traps D act sp = 0 := by
  unfold Gang.traps
  apply foldl_or_zero
  intro p hp
  rw [Gang.notFull_of _ _ _ _ (r.src p hp).2.1]; simp

theorem Gang.Ready.poison {D : Nat} {gg : Gang} {act : LaneMask} {sp : LaneSpec} (r : gg.Ready D act sp) :
    gg.poisonRead D act sp = 0 := by
  unfold Gang.poisonRead
  rw [foldl_or_zero, if_neg]
  · rfl
  · simp only [List.any_eq_true, not_exists, not_and]
    intro p hp
    rw [Gang.poisoned_of _ _ _ _ (r.more p hp).2.2]; simp
  · intro k hk
    rcases List.mem_append.mp hk with a | a
    · obtain ⟨p, hp, rfl⟩ := List.mem_map.mp a
      rw [Gang.poisoned_of _ _ _ _ (r.src p hp).2.2]; simp
    · rw [Gang.poisoned_of _ _ _ _ (r.third k a).2]; simp

theorem Gang.Ready.pop {D : Nat} {gg : Gang} {act : LaneMask} {sp : LaneSpec} (r : gg.Ready D act sp) : sp.pop = none := by
  unfold LaneSpec.pop
  rw [List.find?_eq_none]
  intro k hk
  rcases List.mem_append.mp hk with a | a
  · obtain ⟨p, hp, rfl⟩ := List.mem_map.mp a
    rw [isPort_of_lt (r.src p hp).1]; simp
  · obtain ⟨p, hp, rfl⟩ := List.mem_map.mp a
    rw [isPort_of_lt (r.more p hp).1]; simp

@[simp] theorem State.raisePoison_none (s : State) (h g : Nat) (e : Entry) (mr : LaneMask) : s.raisePoison h g e 0#32 mr = s := by
  unfold State.raisePoison; exact State.raise_none _ _ _ _ _ rfl

/-- A lane word that neither waits nor faults runs on its whole entry: its source port's queue popped, source a held. -/
theorem State.laneIssue_runs (s : State) {h g : Nat} {e : Entry} {t : Task} (sp : LaneSpec) (k : LaneCtx → State → State)
    (x : Option (Nat × QEntry × List QEntry)) (pq : Option Nat)
    (ht : s.task h = some t)
    (pop : match sp.pop with
      | none => x = none
      | some p => ∃ q a rest, (t.gang g).queueOf e p = some q ∧ t.queue q = a :: rest ∧ x = some (q, a, rest))
    (push : match sp.push with
      | none => pq = none
      | some p => ∃ q, (t.gang g).queueOf e p = some q ∧ pq = some q ∧
          ((t.queue q).length < 16 ∨ ((t.queue q).length = 16 ∧ ∃ a rest, x = some (q, a, rest))))
    (w : (t.gang g).waits t.variant.depth ((t.gang g).active e.mask sp.guard) sp = [])
    (tr : (t.gang g).traps t.variant.depth ((t.gang g).active e.mask sp.guard) sp = 0)
    (po : (t.gang g).poisonRead t.variant.depth ((t.gang g).active e.mask sp.guard) sp = 0)
    (more : sp.more = [])
    (pz : ∀ q a rest, x = some (q, a, rest) → a.poison &&& (t.gang g).active e.mask sp.guard = 0) :
    s.laneIssue h g e sp k =
      k { h := h, g := g, e := e, act := (t.gang g).active e.mask sp.guard,
          low := lowestLane ((t.gang g).active e.mask sp.guard), popped := x.map fun p => p.2.1, pushQ := pq }
        ((match x with
          | none => s
          | some (q, _, rest) => s.setTask h (some (t.setQueue q rest))).modGang h g fun gg =>
            gg.hold sp.hold ((t.gang g).active e.mask sp.guard)) := by
  unfold State.laneIssue
  rw [ht]
  cases hp : sp.pop with
  | none =>
    rw [hp] at pop
    simp only at pop
    subst pop
    cases hq : sp.push with
    | none =>
      rw [hq] at push
      simp only at push
      subst push
      simp [w, tr, po, Task.queuesReady, State.popQueue, and_allOnes]
    | some p =>
      rw [hq] at push
      obtain ⟨q, e1, rfl, e3⟩ := push
      simp only [reduceCtorEq, exists_false, and_false, or_false] at e3
      simp [w, tr, po, Task.queuesReady, State.popQueue, and_allOnes, e1, e3]
  | some p =>
    rw [hp] at pop
    obtain ⟨q, a, rest, e1, e2, rfl⟩ := pop
    have z := pz q a rest rfl
    have z' : a.poison &&& (t.gang g).active e.mask sp.guard = 0#32 := z
    cases hq : sp.push with
    | none =>
      rw [hq] at push
      simp only at push
      subst push
      simp [w, tr, po, Task.queuesReady, State.popQueue, and_allOnes, e1, e2, more, ht, z']
    | some p' =>
      rw [hq] at push
      obtain ⟨q', f1, rfl, f3⟩ := push
      simp only [w, tr, po, Option.map_some, e1, f1]
      have c' : t.queuesReady [q] [q'] = true := by
        simp only [Task.queuesReady, List.all_cons, List.all_nil, Bool.and_true, Bool.and_eq_true]
        refine ⟨by simp [e2], ?_⟩
        rcases f3 with f | ⟨f, b, r', hb⟩
        · simp [f]
        · simp only [Option.some.injEq, Prod.mk.injEq] at hb
          simp [hb.1, f]
      simp [c', State.popQueue, and_allOnes, e2, more, ht, z']

/-- A lane word whose operands are registers, full and without poison, runs on its whole entry. -/
theorem State.laneIssue_ready (s : State) {h g : Nat} {e : Entry} {t : Task} (sp : LaneSpec) (k : LaneCtx → State → State)
    (ht : s.task h = some t)
    (r : (t.gang g).Ready t.variant.depth ((t.gang g).active e.mask sp.guard) sp) :
    s.laneIssue h g e sp k =
      k { h := h, g := g, e := e, act := (t.gang g).active e.mask sp.guard,
          low := lowestLane ((t.gang g).active e.mask sp.guard), popped := none, pushQ := none }
        (s.modGang h g fun gg => gg.hold sp.hold ((t.gang g).active e.mask sp.guard)) := by
  unfold State.laneIssue
  rw [ht]
  simp only [r.pop, r.push, r.waits, r.traps, r.poison, Option.map_none]
  simp [Task.queuesReady, State.popQueue, and_allOnes]

/-- The same of a whole lane word. -/
theorem State.lane_ready {s : State} {h g : Nat} {e : Entry} {t : Task} (sp : LaneSpec) (k : LaneCtx → State → State)
    (hc : s.cur = some ⟨.gang h g, e⟩) (ht : s.task h = some t)
    (r : (t.gang g).Ready t.variant.depth ((t.gang g).active e.mask sp.guard) sp) :
    s.lane sp k =
      .next (k { h := h, g := g, e := e, act := (t.gang g).active e.mask sp.guard,
                 low := lowestLane ((t.gang g).active e.mask sp.guard), popped := none, pushQ := none }
        (({ s with cur := none } : State).modGang h g fun gg => gg.hold sp.hold ((t.gang g).active e.mask sp.guard))) := by
  unfold State.lane State.issuing
  rw [hc]
  simp only []
  rw [State.laneIssue_ready]
  · exact ht
  · exact r

end Sys2Proof.Machine
end

