-- ==== Sys2Proof/Laws/PerInstr.lean ====
section
/-!
SUPPORT. Laws of every instruction as syntax, one lemma a constructor. Family Encoding: exactly the words have an encoding.
-/
namespace Sys2Proof.Laws.Encoding

open Sys2Proof

/-- An event of the device has no encoding, a word has one. -/
def Statement (i : Instr) : Prop := (encode i).isSome = i.isWord

theorem iadd (w : LR) : Statement (.iadd w) := rfl
theorem isub (w : LR) : Statement (.isub w) := rfl
theorem imul (w : LR) : Statement (.imul w) := rfl
theorem imulhi (w : LR) : Statement (.imulhi w) := rfl
theorem imulhu (w : LR) : Statement (.imulhu w) := rfl
theorem imad (w : LR) : Statement (.imad w) := rfl
theorem imin (w : LR) : Statement (.imin w) := rfl
theorem imax (w : LR) : Statement (.imax w) := rfl
theorem iminu (w : LR) : Statement (.iminu w) := rfl
theorem imaxu (w : LR) : Statement (.imaxu w) := rfl
theorem and (w : LR) : Statement (.and w) := rfl
theorem or (w : LR) : Statement (.or w) := rfl
theorem xor (w : LR) : Statement (.xor w) := rfl
theorem andn (w : LR) : Statement (.andn w) := rfl
theorem shl (w : LR) : Statement (.shl w) := rfl
theorem shr (w : LR) : Statement (.shr w) := rfl
theorem sar (w : LR) : Statement (.sar w) := rfl
theorem popc (w : LRA) : Statement (.popc w) := rfl
theorem clz (w : LRA) : Statement (.clz w) := rfl
theorem brev (w : LRA) : Statement (.brev w) := rfl
theorem iaddsat (w : LR) : Statement (.iaddsat w) := rfl
theorem icmpEq (w : LC) : Statement (.icmpEq w) := rfl
theorem icmpNe (w : LC) : Statement (.icmpNe w) := rfl
theorem icmpLt (w : LC) : Statement (.icmpLt w) := rfl
theorem icmpLe (w : LC) : Statement (.icmpLe w) := rfl
theorem icmpGt (w : LC) : Statement (.icmpGt w) := rfl
theorem icmpGe (w : LC) : Statement (.icmpGe w) := rfl
theorem icmpLtu (w : LC) : Statement (.icmpLtu w) := rfl
theorem icmpLeu (w : LC) : Statement (.icmpLeu w) := rfl
theorem icmpGtu (w : LC) : Statement (.icmpGtu w) := rfl
theorem icmpGeu (w : LC) : Statement (.icmpGeu w) := rfl
theorem fcmpEq (w : LC) : Statement (.fcmpEq w) := rfl
theorem fcmpNe (w : LC) : Statement (.fcmpNe w) := rfl
theorem fcmpLt (w : LC) : Statement (.fcmpLt w) := rfl
theorem fcmpLe (w : LC) : Statement (.fcmpLe w) := rfl
theorem fcmpGt (w : LC) : Statement (.fcmpGt w) := rfl
theorem fcmpGe (w : LC) : Statement (.fcmpGe w) := rfl
theorem fcmpOrd (w : LC) : Statement (.fcmpOrd w) := rfl
theorem fcmpUno (w : LC) : Statement (.fcmpUno w) := rfl
theorem pand (w : LCP) : Statement (.pand w) := rfl
theorem por (w : LCP) : Statement (.por w) := rfl
theorem pxor (w : LCP) : Statement (.pxor w) := rfl
theorem pnot (w : LCN) : Statement (.pnot w) := rfl
theorem sel (w : LR) : Statement (.sel w) := rfl
theorem ballot (w : LBal) : Statement (.ballot w) := rfl
theorem shfl (w : LR) : Statement (.shfl w) := rfl
theorem shflx (w : LR) : Statement (.shflx w) := rfl
theorem iaddi (w : LI) : Statement (.iaddi w) := rfl
theorem andi (w : LI) : Statement (.andi w) := rfl
theorem ori (w : LI) : Statement (.ori w) := rfl
theorem xori (w : LI) : Statement (.xori w) := rfl
theorem shli (w : LI5) : Statement (.shli w) := rfl
theorem shri (w : LI5) : Statement (.shri w) := rfl
theorem sari (w : LI5) : Statement (.sari w) := rfl
theorem imuli (w : LI) : Statement (.imuli w) := rfl
theorem movi (w : LW) : Statement (.movi w) := rfl
theorem movhi (w : LW) : Statement (.movhi w) := rfl
theorem mov (w : LRA) : Statement (.mov w) := rfl
theorem movs (w : LMovs) : Statement (.movs w) := rfl
theorem movsr (w : LMovsr) : Statement (.movsr w) := rfl
theorem movp (w : LMovp) : Statement (.movp w) := rfl
theorem pmov (w : LPmov) : Statement (.pmov w) := rfl
theorem fadd (w : LR) : Statement (.fadd w) := rfl
theorem fsub (w : LR) : Statement (.fsub w) := rfl
theorem fmul (w : LR) : Statement (.fmul w) := rfl
theorem ffma (w : LR) : Statement (.ffma w) := rfl
theorem fmin (w : LR) : Statement (.fmin w) := rfl
theorem fmax (w : LR) : Statement (.fmax w) := rfl
theorem fabs (w : LRA) : Statement (.fabs w) := rfl
theorem fneg (w : LRA) : Statement (.fneg w) := rfl
theorem badd2 (w : LR) : Statement (.badd2 w) := rfl
theorem bmul2 (w : LR) : Statement (.bmul2 w) := rfl
theorem bfma2 (w : LR) : Statement (.bfma2 w) := rfl
theorem hfma2 (w : LR) : Statement (.hfma2 w) := rfl
theorem rcp (w : LRA) : Statement (.rcp w) := rfl
theorem rsq (w : LRA) : Statement (.rsq w) := rfl
theorem exp2 (w : LRA) : Statement (.exp2 w) := rfl
theorem log2 (w : LRA) : Statement (.log2 w) := rfl
theorem sin (w : LRA) : Statement (.sin w) := rfl
theorem cos (w : LRA) : Statement (.cos w) := rfl
theorem tanh (w : LRA) : Statement (.tanh w) := rfl
theorem cvt (w : LI) : Statement (.cvt w) := rfl
theorem ld8 (w : LM) : Statement (.ld8 w) := rfl
theorem ld8s (w : LM) : Statement (.ld8s w) := rfl
theorem ld16 (w : LM) : Statement (.ld16 w) := rfl
theorem ld16s (w : LM) : Statement (.ld16s w) := rfl
theorem ld32 (w : LM) : Statement (.ld32 w) := rfl
theorem ld64 (w : LM) : Statement (.ld64 w) := rfl
theorem ld128 (w : LM) : Statement (.ld128 w) := rfl
theorem st8 (w : LMSt) : Statement (.st8 w) := rfl
theorem st16 (w : LMSt) : Statement (.st16 w) := rfl
theorem st32 (w : LMSt) : Statement (.st32 w) := rfl
theorem st64 (w : LMSt) : Statement (.st64 w) := rfl
theorem st128 (w : LMSt) : Statement (.st128 w) := rfl
theorem ldaq32 (w : LMS) : Statement (.ldaq32 w) := rfl
theorem ldaq64 (w : LMS) : Statement (.ldaq64 w) := rfl
theorem strl32 (w : LMS) : Statement (.strl32 w) := rfl
theorem strl64 (w : LMS) : Statement (.strl64 w) := rfl
theorem pref (w : LMPref) : Statement (.pref w) := rfl
theorem atomAdd (w : LAtom) : Statement (.atomAdd w) := rfl
theorem atomAdd64 (w : LAtom) : Statement (.atomAdd64 w) := rfl
theorem atomFadd (w : LAtom) : Statement (.atomFadd w) := rfl
theorem atomImin (w : LAtom) : Statement (.atomImin w) := rfl
theorem atomImax (w : LAtom) : Statement (.atomImax w) := rfl
theorem atomIminu (w : LAtom) : Statement (.atomIminu w) := rfl
theorem atomImaxu (w : LAtom) : Statement (.atomImaxu w) := rfl
theorem atomAnd (w : LAtom) : Statement (.atomAnd w) := rfl
theorem atomOr (w : LAtom) : Statement (.atomOr w) := rfl
theorem atomXor (w : LAtom) : Statement (.atomXor w) := rfl
theorem atomXchg (w : LAtom) : Statement (.atomXchg w) := rfl
theorem atomIncb (w : LAtom) : Statement (.atomIncb w) := rfl
theorem atomCas32 (w : LAtom) : Statement (.atomCas32 w) := rfl
theorem atomCas64 (w : LAtom) : Statement (.atomCas64 w) := rfl
theorem atomCas128 (w : LAtom) : Statement (.atomCas128 w) := rfl
theorem atomAddMap2 (w : LAtom) : Statement (.atomAddMap2 w) := rfl
theorem atomAdd64Map2 (w : LAtom) : Statement (.atomAdd64Map2 w) := rfl
theorem atomFaddMap2 (w : LAtom) : Statement (.atomFaddMap2 w) := rfl
theorem atomIminMap2 (w : LAtom) : Statement (.atomIminMap2 w) := rfl
theorem atomImaxMap2 (w : LAtom) : Statement (.atomImaxMap2 w) := rfl
theorem atomIminuMap2 (w : LAtom) : Statement (.atomIminuMap2 w) := rfl
theorem atomImaxuMap2 (w : LAtom) : Statement (.atomImaxuMap2 w) := rfl
theorem atomAndMap2 (w : LAtom) : Statement (.atomAndMap2 w) := rfl
theorem atomOrMap2 (w : LAtom) : Statement (.atomOrMap2 w) := rfl
theorem atomXorMap2 (w : LAtom) : Statement (.atomXorMap2 w) := rfl
theorem atomXchgMap2 (w : LAtom) : Statement (.atomXchgMap2 w) := rfl
theorem atomIncbMap2 (w : LAtom) : Statement (.atomIncbMap2 w) := rfl
theorem atomCas32Map2 (w : LAtom) : Statement (.atomCas32Map2 w) := rfl
theorem atomCas64Map2 (w : LAtom) : Statement (.atomCas64Map2 w) := rfl
theorem atomCas128Map2 (w : LAtom) : Statement (.atomCas128Map2 w) := rfl
theorem fence (w : LFence) : Statement (.fence w) := rfl
theorem fenceAcq (w : LFence) : Statement (.fenceAcq w) := rfl
theorem fenceRel (w : LFence) : Statement (.fenceRel w) := rfl
theorem waita (w : LMS) : Statement (.waita w) := rfl
theorem lld8 (w : LL) : Statement (.lld8 w) := rfl
theorem lld16 (w : LL) : Statement (.lld16 w) := rfl
theorem lld32 (w : LL) : Statement (.lld32 w) := rfl
theorem lld64 (w : LL) : Statement (.lld64 w) := rfl
theorem lld128 (w : LL) : Statement (.lld128 w) := rfl
theorem lst8 (w : LL) : Statement (.lst8 w) := rfl
theorem lst16 (w : LL) : Statement (.lst16 w) := rfl
theorem lst32 (w : LL) : Statement (.lst32 w) := rfl
theorem lst64 (w : LL) : Statement (.lst64 w) := rfl
theorem lst128 (w : LL) : Statement (.lst128 w) := rfl
theorem tld8 (w : LL) : Statement (.tld8 w) := rfl
theorem tld16 (w : LL) : Statement (.tld16 w) := rfl
theorem tld32 (w : LL) : Statement (.tld32 w) := rfl
theorem plnw (w : LL) : Statement (.plnw w) := rfl
theorem plnr (w : LL) : Statement (.plnr w) := rfl
theorem tebq (w : LTeb) : Statement (.tebq w) := rfl
theorem tebl (w : LTeb) : Statement (.tebl w) := rfl
theorem latomAdd (w : LL) : Statement (.latomAdd w) := rfl
theorem latomImin (w : LL) : Statement (.latomImin w) := rfl
theorem latomImax (w : LL) : Statement (.latomImax w) := rfl
theorem latomAnd (w : LL) : Statement (.latomAnd w) := rfl
theorem latomOr (w : LL) : Statement (.latomOr w) := rfl
theorem latomXor (w : LL) : Statement (.latomXor w) := rfl
theorem latomXchg (w : LL) : Statement (.latomXchg w) := rfl
theorem latomCas (w : LL) : Statement (.latomCas w) := rfl
theorem bra (w : LB) : Statement (.bra w) := rfl
theorem call (w : LB) : Statement (.call w) := rfl
theorem callr (w : LJ) : Statement (.callr w) := rfl
theorem ret (w : LG) : Statement (.ret w) := rfl
theorem jmpr (w : LJ) : Statement (.jmpr w) := rfl
theorem rcb (w : LG) : Statement (.rcb w) := rfl
theorem exit (w : LG) : Statement (.exit w) := rfl
theorem setpri (w : LSetpri) : Statement (.setpri w) := rfl
theorem yield (w : LG) : Statement (.yield w) := rfl
theorem trap (w : LTrap) : Statement (.trap w) := rfl
theorem brk (w : LG) : Statement (.brk w) := rfl
theorem join (w : LBar) : Statement (.join w) := rfl
theorem leave (w : LBar) : Statement (.leave w) := rfl
theorem bara (w : LBar) : Statement (.bara w) := rfl
theorem barw (w : LBar) : Statement (.barw w) := rfl
theorem bars (w : LBar) : Statement (.bars w) := rfl
theorem rkpush (w : LRk) : Statement (.rkpush w) := rfl
theorem acadd (w : LAcadd) : Statement (.acadd w) := rfl
theorem rktest (w : LRktest) : Statement (.rktest w) := rfl
theorem bmrank (w : LM) : Statement (.bmrank w) := rfl
theorem bmsel (w : LM) : Statement (.bmsel w) := rfl
theorem uadd (w : UR) : Statement (.uadd w) := rfl
theorem usub (w : UR) : Statement (.usub w) := rfl
theorem umul (w : UR) : Statement (.umul w) := rfl
theorem uand (w : UR) : Statement (.uand w) := rfl
theorem uor (w : UR) : Statement (.uor w) := rfl
theorem uxor (w : UR) : Statement (.uxor w) := rfl
theorem ushl (w : UR) : Statement (.ushl w) := rfl
theorem ushr (w : URM) : Statement (.ushr w) := rfl
theorem umin (w : URM) : Statement (.umin w) := rfl
theorem umax (w : URM) : Statement (.umax w) := rfl
theorem usel (w : UR) : Statement (.usel w) := rfl
theorem uaddi (w : UI) : Statement (.uaddi w) := rfl
theorem ushli (w : UI5) : Statement (.ushli w) := rfl
theorem uandi (w : UI) : Statement (.uandi w) := rfl
theorem umovi (w : UW) : Statement (.umovi w) := rfl
theorem umovhi (w : UW) : Statement (.umovhi w) := rfl
theorem ucmpEq (w : UCab) : Statement (.ucmpEq w) := rfl
theorem ucmpNe (w : UCab) : Statement (.ucmpNe w) := rfl
theorem ucmpLt (w : UCab) : Statement (.ucmpLt w) := rfl
theorem ucmpLe (w : UCab) : Statement (.ucmpLe w) := rfl
theorem ucmpGt (w : UCab) : Statement (.ucmpGt w) := rfl
theorem ucmpGe (w : UCab) : Statement (.ucmpGe w) := rfl
theorem ucmpLtu (w : UCab) : Statement (.ucmpLtu w) := rfl
theorem ucmpLeu (w : UCab) : Statement (.ucmpLeu w) := rfl
theorem ucmpGtu (w : UCab) : Statement (.ucmpGtu w) := rfl
theorem ucmpGeu (w : UCab) : Statement (.ucmpGeu w) := rfl
theorem umovsr (w : UMovsr) : Statement (.umovsr w) := rfl
theorem umov (w : UDA) : Statement (.umov w) := rfl
theorem uld32 (w : UI) : Statement (.uld32 w) := rfl
theorem uld64 (w : UI) : Statement (.uld64 w) := rfl
theorem ust32 (w : UI) : Statement (.ust32 w) := rfl
theorem ust64 (w : UI) : Statement (.ust64 w) := rfl
theorem ubra (w : UB) : Statement (.ubra w) := rfl
theorem jmpf (w : UAB) : Statement (.jmpf w) := rfl
theorem cfetch (w : UA) : Statement (.cfetch w) := rfl
theorem csegq (w : UCa) : Statement (.csegq w) := rfl
theorem launch (w : UDA) : Statement (.launch w) := rfl
theorem joinl (w : UDA) : Statement (.joinl w) := rfl
theorem mstart (w : UAB) : Statement (.mstart w) := rfl
theorem btcopy (w : UA) : Statement (.btcopy w) := rfl
theorem bttest (w : UCab) : Statement (.bttest w) := rfl
theorem waitc (w : UWaitc) : Statement (.waitc w) := rfl
theorem qbind (w : UQbind) : Statement (.qbind w) := rfl
theorem qstat (w : UDA) : Statement (.qstat w) := rfl
theorem rclaim (w : URing) : Statement (.rclaim w) := rfl
theorem rpub (w : UAB) : Statement (.rpub w) := rfl
theorem rtake (w : URing) : Statement (.rtake w) := rfl
theorem rfree (w : UAB) : Statement (.rfree w) := rfl
theorem barrem (w : UA) : Statement (.barrem w) := rfl
theorem bkopAdd (w : UA) : Statement (.bkopAdd w) := rfl
theorem bkopMul (w : UA) : Statement (.bkopMul w) := rfl
theorem bkopMax (w : UA) : Statement (.bkopMax w) := rfl
theorem bkopMin (w : UA) : Statement (.bkopMin w) := rfl
theorem bkopAxpy (w : UA) : Statement (.bkopAxpy w) := rfl
theorem bkopCvt (w : UA) : Statement (.bkopCvt w) := rfl
theorem bkred (w : UA) : Statement (.bkred w) := rfl
theorem bkrank (w : UA) : Statement (.bkrank w) := rfl
theorem bkrankCommit (w : UA) : Statement (.bkrankCommit w) := rfl
theorem bkread (w : UAB) : Statement (.bkread w) := rfl
theorem acdeclSum (w : UAcdecl) : Statement (.acdeclSum w) := rfl
theorem acdeclRank (w : UAcdecl) : Statement (.acdeclRank w) := rfl
theorem acclr (w : UAcc) : Statement (.acclr w) := rfl
theorem acst (w : UAccA) : Statement (.acst w) := rfl
theorem acmrg (w : UAccA) : Statement (.acmrg w) := rfl
theorem acraise (w : UAccA) : Statement (.acraise w) := rfl
theorem accmp (w : UAccmp) : Statement (.accmp w) := rfl
theorem acrd (w : UAcrd) : Statement (.acrd w) := rfl
theorem mma (w : URM) : Statement (.mma w) := rfl
theorem mzero (w : UAcc) : Statement (.mzero w) := rfl
theorem mpost (w : UMpost) : Statement (.mpost w) := rfl
theorem mact (w : UAB) : Statement (.mact w) := rfl
theorem mend (w : UC) : Statement (.mend w) := rfl
theorem ecnt (w : UDA) : Statement (.ecnt w) := rfl
theorem rtlook (w : UR) : Statement (.rtlook w) := rfl
theorem rtpin (w : UD) : Statement (.rtpin w) := rfl
theorem rtunpin (w : UA) : Statement (.rtunpin w) := rfl
theorem rtmerge (w : UA) : Statement (.rtmerge w) := rfl
theorem syscall (w : UI) : Statement (.syscall w) := rfl
theorem utrap (w : UImm) : Statement (.utrap w) := rfl
theorem loadDataLands (op : Nat) (lane : LaneWord) : Statement (.loadDataLands op lane) := rfl
theorem storeAtHome (op lane : Nat) : Statement (.storeAtHome op lane) := rfl
theorem storeAckReturns (op : Nat) : Statement (.storeAckReturns op) := rfl
theorem atomicExecutes (op lane : Nat) : Statement (.atomicExecutes op lane) := rfl
theorem atomicReply (op lane : Nat) : Statement (.atomicReply op lane) := rfl
theorem remoteScratchpadAccess (op lane : Nat) : Statement (.remoteScratchpadAccess op lane) := rfl
theorem monitorWake (h g lane : Nat) : Statement (.monitorWake h g lane) := rfl
theorem monitorRetryTimer (h g lane : Nat) : Statement (.monitorRetryTimer h g lane) := rfl
theorem pageFaultResolved (t : PageTarget) : Statement (.pageFaultResolved t) := rfl
theorem pageFaultRefused (t : PageTarget) : Statement (.pageFaultRefused t) := rfl
theorem pageMoveRequest (die ctx va frame : Nat) : Statement (.pageMoveRequest die ctx va frame) := rfl
theorem moveProtectDone (die m : Nat) : Statement (.moveProtectDone die m) := rfl
theorem moveCopyDone (die m : Nat) : Statement (.moveCopyDone die m) := rfl
theorem moveCopyAbort (die m : Nat) : Statement (.moveCopyAbort die m) := rfl
theorem moveCommitDone (die m : Nat) : Statement (.moveCommitDone die m) := rfl
theorem moveIdle (die m : Nat) : Statement (.moveIdle die m) := rfl
theorem shootdownComplete (sd : Nat) : Statement (.shootdownComplete sd) := rfl
theorem formatWindowEnable (die win : Nat) (value : DWord) : Statement (.formatWindowEnable die win value) := rfl
theorem launchAcceptance (l : Nat) : Statement (.launchAcceptance l) := rfl
theorem walkerAcceptRecord (l : Nat) : Statement (.walkerAcceptRecord l) := rfl
theorem walkerCommitTile (l : Nat) : Statement (.walkerCommitTile l) := rfl
theorem walkerResume (l : Nat) : Statement (.walkerResume l) := rfl
theorem walkerRefused (l : Nat) : Statement (.walkerRefused l) := rfl
theorem dispatchTask (die : Nat) : Statement (.dispatchTask die) := rfl
theorem spanPlacement (die : Nat) : Statement (.spanPlacement die) := rfl
theorem taskStart (h : Nat) : Statement (.taskStart h) := rfl
theorem mergeWindowClose (die : Nat) : Statement (.mergeWindowClose die) := rfl
theorem taskEnd (h : Nat) : Statement (.taskEnd h) := rfl
theorem launchComplete (l : Nat) : Statement (.launchComplete l) := rfl
theorem segmentFetchLands (f : Nat) : Statement (.segmentFetchLands f) := rfl
theorem transferStart (t : Nat) : Statement (.transferStart t) := rfl
theorem chunkComplete (t : Nat) (chunk : ChunkIssue) : Statement (.chunkComplete t chunk) := rfl
theorem transferComplete (t : Nat) : Statement (.transferComplete t) := rfl
theorem transferPageFault (t : Nat) : Statement (.transferPageFault t) := rfl
theorem transferRestart (t : Nat) : Statement (.transferRestart t) := rfl
theorem transferFailed (t : Nat) : Statement (.transferFailed t) := rfl
theorem transferDrainTimeout (t : Nat) : Statement (.transferDrainTimeout t) := rfl
theorem bankCommandComplete (b : Nat) : Statement (.bankCommandComplete b) := rfl
theorem streamStart (k i : Nat) : Statement (.streamStart k i) := rfl
theorem matrixWordComplete (k : Nat) (post : Bool) : Statement (.matrixWordComplete k post) := rfl
theorem streamStop (h : Nat) : Statement (.streamStop h) := rfl
theorem routedOffer (k : Nat) : Statement (.routedOffer k) := rfl
theorem inserterInsertion (h g : Nat) : Statement (.inserterInsertion h g) := rfl
theorem windowClose : Statement (.windowClose) := rfl
theorem windowCloseReceived (die : Nat) : Statement (.windowCloseReceived die) := rfl
theorem placementEvaluation : Statement (.placementEvaluation) := rfl
theorem generationPublish (j : Nat) : Statement (.generationPublish j) := rfl
theorem generationCopyFail (j : Nat) : Statement (.generationCopyFail j) := rfl
theorem replicaWithdraw (j e c : Nat) : Statement (.replicaWithdraw j e c) := rfl
theorem rtmergeComplete (m : Nat) : Statement (.rtmergeComplete m) := rfl
theorem cpyfailRead : Statement (.cpyfailRead) := rfl
theorem wdrawRead : Statement (.wdrawRead) := rfl
theorem ringEnable (die r : Nat) (value : DWord) : Statement (.ringEnable die r value) := rfl
theorem ringDisable (die : Nat) (r : RingValue) : Statement (.ringDisable die r) := rfl
theorem ringCommandArrival (c : Nat) : Statement (.ringCommandArrival c) := rfl
theorem ringReply (c : Nat) : Statement (.ringReply c) := rfl
theorem ringDead (die r : Nat) : Statement (.ringDead die r) := rfl
theorem barremNoticeArrival (n : Nat) : Statement (.barremNoticeArrival n) := rfl
theorem noticeAcknowledged (n : Nat) : Statement (.noticeAcknowledged n) := rfl
theorem faultDisposal (die : Nat) : Statement (.faultDisposal die) := rfl
theorem handlerContinue (h g : Nat) : Statement (.handlerContinue h g) := rfl
theorem handlerEnd (h g : Nat) : Statement (.handlerEnd h g) := rfl
theorem watchdog (a : AgentRef) : Statement (.watchdog a) := rfl
theorem endTask (h : Nat) : Statement (.endTask h) := rfl
theorem syscallReply (h g lane : Nat) (reply : Word) : Statement (.syscallReply h g lane reply) := rfl
theorem preemptRequest (h : Nat) : Statement (.preemptRequest h) := rfl
theorem preemptSave (h : Nat) : Statement (.preemptSave h) := rfl
theorem taskRestore (idx core : Nat) : Statement (.taskRestore idx core) := rfl
theorem correctedError (die : Nat) : Statement (.correctedError die) := rfl
theorem uncorrectableError (t : PoisonTarget) : Statement (.uncorrectableError t) := rfl
theorem queueEnable (die q : Nat) (value : DWord) : Statement (.queueEnable die q value) := rfl
theorem queueDisable (die q : Nat) : Statement (.queueDisable die q) := rfl
theorem doorbell (die q : Nat) (tail : Word) : Statement (.doorbell die q tail) := rfl
theorem queueEntryTake (die q : Nat) : Statement (.queueEntryTake die q) := rfl
theorem shootdown (cmd : ControlCmd) : Statement (.shootdown cmd) := rfl
theorem takeDieOffline (cmd : ControlCmd) : Statement (.takeDieOffline cmd) := rfl
theorem tearDownContext (cmd : ControlCmd) : Statement (.tearDownContext cmd) := rfl
theorem quote (cmd : ControlCmd) : Statement (.quote cmd) := rfl
theorem stageSuccessorKernel (cmd : ControlCmd) : Statement (.stageSuccessorKernel cmd) := rfl
theorem latencyTolerance (cmd : ControlCmd) : Statement (.latencyTolerance cmd) := rfl
theorem registerWrite (die off size : Nat) (value : DWord) : Statement (.registerWrite die off size value) := rfl
theorem powerOn (bootDie : BitVec 2) : Statement (.powerOn bootDie) := rfl
theorem bootReadyTimeout : Statement (.bootReadyTimeout) := rfl
theorem firstStageImage (image : List Byte) : Statement (.firstStageImage image) := rfl
theorem versionNegotiation (l : LinkRef) (lo1 hi1 lo2 hi2 : Nat) : Statement (.versionNegotiation l lo1 hi1 lo2 hi2) := rfl
theorem edgeDown (edge : Nat) : Statement (.edgeDown edge) := rfl
theorem linkCrcFailure (l : LinkRef) : Statement (.linkCrcFailure l) := rfl
theorem oldKernelReady : Statement (.oldKernelReady) := rfl
theorem oldKernelJump : Statement (.oldKernelJump) := rfl
theorem successorAdopt (table : Nat) : Statement (.successorAdopt table) := rfl
theorem successorCheckIn : Statement (.successorCheckIn) := rfl
theorem handoverTimeout : Statement (.handoverTimeout) := rfl
theorem reductionPayload (port : Nat) (sent : Bool) (payload : List Byte) : Statement (.reductionPayload port sent payload) := rfl
theorem lehrEntry : Statement (.lehrEntry) := rfl
theorem lehrExit (need : Nat) : Statement (.lehrExit need) := rfl
theorem lehrExitComplete : Statement (.lehrExitComplete) := rfl
theorem contextInstall (num : Nat) (desc : ContextDesc) : Statement (.contextInstall num desc) := rfl
theorem contextMapChange (num map : Nat) : Statement (.contextMapChange num map) := rfl
theorem expertCommandArrival (c : Nat) : Statement (.expertCommandArrival c) := rfl
theorem expertCommandReply (c : Nat) : Statement (.expertCommandReply c) := rfl
theorem writeAtDiePoint (op lane : Nat) : Statement (.writeAtDiePoint op lane) := rfl
theorem remoteScratchpadReply (op lane : Nat) : Statement (.remoteScratchpadReply op lane) := rfl
theorem systemSoftwareMemoryWrite (pa : Nat) (data : List Byte) : Statement (.systemSoftwareMemoryWrite pa data) := rfl

/-- The whole family. -/
theorem all (i : Instr) : Statement i := by cases i <;> rfl

end Sys2Proof.Laws.Encoding
end

