-- ==== Sys2Proof/Laws/Reads.lean ====
section
/-!
SUPPORT. What a read by a core can change: the A bit in the page tables, the TLBs, the caches, and nothing else.
-/
namespace Sys2Proof.Machine

open Sys2Proof

/-- `s'` differs from `s` in memory (the page tables' A and D bits), cores, clusters and dies alone. -/
def CachesOf (s s' : State) : Prop := s' = { s with mem := s'.mem, cores := s'.cores, clusters := s'.clusters, dies := s'.dies }

theorem CachesOf.refl (s : State) : CachesOf s s := rfl

theorem CachesOf.trans {a b c : State} (h : CachesOf a b) (k : CachesOf b c) : CachesOf a c := by
  unfold CachesOf at *
  rw [k, h]

theorem State.caches_modCore (s : State) (c : Nat) (f : Core → Core) : CachesOf s (s.modCore c f) := rfl

theorem State.caches_dropOthers (s : State) (k ctx va pl : Nat) : CachesOf s (s.dropOthers k ctx va pl) := by
  unfold State.dropOthers
  generalize clusterCores k = l
  induction l generalizing s with
  | nil => rfl
  | cons c t ih => exact CachesOf.trans (State.caches_modCore s c _) (ih _)

theorem State.caches_fillL1 (s : State) (core ctx va pl : Nat) (stream : Bool) (data : List PByte) :
    CachesOf s (s.fillL1 core ctx va pl stream data) := by
  unfold State.fillL1
  exact CachesOf.trans (State.caches_dropOthers s _ ctx va pl) (State.caches_modCore _ core _)

theorem State.caches_dieRead (s : State) (die pa n : Nat) (stream : Bool := false) : CachesOf s (s.dieRead die pa n stream).2 := by
  unfold State.dieRead
  split
  · rfl
  · dsimp only
    split <;> rfl

theorem State.caches_install (s : State) (k ctx va : Nat) (d : Bool) : CachesOf s (s.install k ctx va d).2 := by
  unfold State.install
  split <;> rfl

theorem State.caches_setDirty (s : State) (k ctx va : Nat) (t : TlbEntry) : CachesOf s (s.setDirty k ctx va t).2 := by
  unfold State.setDirty
  dsimp only
  split
  · rfl
  · split
    · split
      · exact State.caches_install s _ _ _ _
      · rfl
    · split
      · rfl
      · exact State.caches_install s _ _ _ _

theorem State.caches_translate (s : State) (k ctx va : Nat) (w : Bool) : CachesOf s (s.translate k ctx va w).2 := by
  unfold State.translate
  split
  · split
    · exact State.caches_setDirty s _ _ _ _
    · rfl
  · exact State.caches_install s _ _ _ _

/-- The checks of an access change no other part of the state. -/
theorem State.caches_check (s : State) (k ctx va al n : Nat) (a : Access) : CachesOf s (s.check k ctx va al n a).2 := by
  have t := State.caches_translate s k ctx va a.writes
  unfold State.check
  split
  · rfl
  · split
    · rfl
    · split
      · rename_i e; rw [e] at t; exact t
      · rename_i e; rw [e] at t
        dsimp only
        split
        · exact t
        · split <;> exact t

theorem State.caches_checkOne (s : State) (core ctx va al n pol : Nat) (a : Access) : CachesOf s (s.checkOne core ctx va al n pol a).2 := by
  have t := State.caches_check s (keyCluster core) ctx va al n a
  unfold State.checkOne
  dsimp only
  split
  · rfl
  · split
    · rename_i e; rw [e] at t
      dsimp only
      split
      · exact CachesOf.trans t (State.caches_dropOthers _ _ _ _ _)
      · exact t
    · rename_i e; rw [e] at t; exact t

theorem State.caches_coreRead (s : State) (core die ctx va pa n mode : Nat) : CachesOf s (s.coreRead core die ctx va pa n mode).2 := by
  unfold State.coreRead
  split
  · dsimp only
    split
    · rfl
    · refine CachesOf.trans (b := s.dropL1 core (lineOf pa)) rfl ?_
      unfold State.forgetGuest
      split <;> rfl
  · split
    · rfl
    · split
      · exact CachesOf.trans (State.caches_dieRead s die _ _ _) (State.caches_fillL1 _ _ _ _ _ _ _)
      · exact State.caches_dieRead s die _ _ _

/-- A pair read by a uniform word, or any number of doublewords, likewise. -/
theorem State.caches_readPair (s : State) (h g va : Nat) : CachesOf s (s.readPair h g va).2 := by
  have t := State.caches_checkOne s (hCore h) (s.ctxOf h) va 8 8 0 .read
  unfold State.readPair
  dsimp only
  split
  · split
    · split <;> exact CachesOf.trans t (State.caches_coreRead _ _ _ _ _ _ _ _)
    · exact t
  · exact t

theorem CachesOf.bind {α β : Type} {s : State} {r : BmRes α × State} {k : α → State → BmRes β × State} (h : CachesOf s r.2)
    (hk : ∀ v u, CachesOf u (k v u).2) : CachesOf s (BmRes.bind r k).2 := by
  unfold BmRes.bind
  split
  · exact h.trans (hk _ _)
  all_goals exact h

theorem State.caches_readPairs (s : State) (h g va n : Nat) : CachesOf s (s.readPairs h g va n).2 := by
  induction n generalizing s va with
  | zero => rfl
  | succ n ih =>
    exact CachesOf.bind (State.caches_readPair s h g _) fun p u => CachesOf.bind (ih u _) fun ps v => CachesOf.refl v

theorem State.caches_readDwords (s : State) (h g va n : Nat) : CachesOf s (s.readDwords h g va n).2 :=
  CachesOf.bind (State.caches_readPairs s h g va n) fun _ u => CachesOf.refl u

end Sys2Proof.Machine
end

