-- ==== Sys2Proof/Tests/Slice0.lean ====
section
/-!
SUPPORT. Tests: ill-formed words refused, words decoded, single steps against the spec's own numbers, and for every statement states and
operands that meet its hypotheses.
-/
namespace Sys2Proof.Tests

open Sys2Proof Sys2Proof.Machine Sys2Proof.Say

set_option Elab.async false

/-! ## A small state -/

/-- A task of one gang on core 0, its frontier taken. -/
def aG : Gang := { Gang.start 0 with frontier := [] }
def aT : Task := { wordTask with gangs := [(0, aG)] }
/-- An entry of every lane at the first word. -/
def aE : Entry := readyAt 0 0 allLanes
/-- The state in which gang 0 of task 0 issues an entry. -/
def on (t : Task) (e : Entry) : State :=
  { State.reset with contexts := [(1, some (wordContext 3))], launches := [(0, some (wordLaunch 3))], tasks := [(0, some t)],
                     cur := some ⟨.gang 0 0, e⟩ }
def aS : State := on aT aE
/-- The task with another gang. -/
def withGang (g : Gang) : Task := { aT with gangs := [(0, g)] }
/-- A lane whose register at physical entry `p` holds `v`. -/
def laneReg (p : Nat) (v : Word) : Thread := { Thread.start with stack := [(p, v)] }
def zeros : QEntry := { words := [], poison := 0 }

theorem issues_on (t : Task) : Issues (on t aE) 0 0 aE t := ⟨rfl, rfl, by decide⟩
theorem aIssues : Issues aS 0 0 aE aT := issues_on aT

theorem good_aG (D : Nat) (m : LaneMask) (k : Nat) : Good D aG m k := fun _ _ _ => ⟨rfl, rfl⟩
theorem full_aG (D : Nat) (m : LaneMask) (k : Nat) : Full D aG m k := fun _ _ _ => rfl

/-- A word without ports takes its operands in the small state. -/
theorem takes_aT (r : LaneRow) (m : LaneMask) (hp : r.port = none) (hd : ∀ d, r.dst = some d → d < 28)
    (hk : ∀ d, r.keeps = some d → d < 28) : r.Takes aT 0 aE m ⟨none, none⟩ := by
  refine ⟨⟨by rw [hp], ?_⟩, fun p _ _ => good_aG _ _ _, fun d h => ⟨hk d h, good_aG _ _ _⟩, fun d _ _ => full_aG _ _ _, ?_⟩
  · cases h : r.dst with
    | none => rfl
    | some d => simp [hd d h]
  · intro q x rest h; cases h

theorem lane1 {P : Nat → Prop} (h : P 0) (j : Nat) (hj : laneOf 1 j) : P j := by
  obtain ⟨h1, h2⟩ := hj
  have : ∀ j, j < 32 → (1 : LaneMask).getLsbD j = true → j = 0 := by decide
  rw [this j h1 h2]; exact h

/-! ## Hypotheses that can be met -/

theorem witness_IntegerAndImmediateWords :
    (∃ i r k, integerRow i = some r ∧ Issues aS 0 0 aE aT ∧ r.Takes aT 0 aE allLanes k) ∧
    ∃ i r k, immediateRow i = some r ∧ Issues aS 0 0 aE aT ∧ r.Takes aT 0 aE allLanes k :=
  ⟨⟨.iadd ⟨27, 1, 2, 0, true, false, true⟩, _, _, rfl, aIssues, takes_aT _ _ (by decide) (fun _ h => by cases h; decide) (fun _ h => by cases h)⟩,
   ⟨.movhi ⟨27, 5⟩, _, _, rfl, aIssues, takes_aT _ _ (by decide) (fun _ h => by cases h; decide) (fun _ h => by cases h; decide)⟩⟩

theorem witness_CompareWords : ∃ i r k, compareRow i = some r ∧ Issues aS 0 0 aE aT ∧ r.Takes aT 0 aE allLanes k :=
  ⟨.icmpLt ⟨1, 2, 3, 4, 0, false, false, false⟩, _, _, rfl, aIssues, takes_aT _ _ (by decide) (fun _ h => by cases h) (fun _ h => by cases h)⟩

theorem witness_FloatWords : ∃ i r k, floatRow i = some r ∧ Issues aS 0 0 aE aT ∧ r.Takes aT 0 aE allLanes k :=
  ⟨.ffma ⟨1, 2, 3, 0, false, false, false⟩, _, _, rfl, aIssues,
    takes_aT _ _ (by decide) (fun _ h => by cases h; decide) (fun _ h => by cases h; decide)⟩

/-- A source for each conversion of a float result. -/
def convSource (pair : Nat) : Word := if pair = 4 ∨ pair = 6 ∨ pair = 10 then 0x3FC00000 else 0x21

theorem witness_FloatArithmetic :
    (binary32.Finite (0x3FC00000 : Word).toNat ∧ bfloat16.Finite 0x3FC0 ∧ binary16.Finite 0x3E00) ∧
    (∀ p ∈ [2, 3, 4, 5, 6, 7, 10, 11, 14], ∀ rm, rm < 4 → ∃ v L, conversion p (convSource p) = some (v, L) ∧
      magnitude v ≤ twoTo (L.bias + 1) - twoTo (L.bias - L.frac) ∧ (BitVec.ofNat 8 (16 * p + 4 * rm)).getLsbD 0 = false ∧
      (BitVec.ofNat 8 (16 * p + 4 * rm)).toNat / 16 = p ∧ (BitVec.ofNat 8 (16 * p + 4 * rm)).toNat / 4 % 4 = rm) ∧
    (∀ p ∈ [0, 1, 12, 13], ∃ w lo hi bad, intConversion p = some (w, lo, hi, bad) ∧ lo ≤ 1 ∧ 1 ≤ hi ∧ (-2 ^ 40 : Int) < lo ∧ hi < 2 ^ 40) ∧
    (∀ m, IntRounds m (binary32.value 0x3F800000) 1 ∧ IntRounds m (binary32.value 0x53800000) (2 ^ 40) ∧ IntRounds m (binary32.value 0xD3800000) (-2 ^ 40)) ∧
    (binary32.value 0x3F800000 = twoTo 0 ∧ binary32.value 0xBF800000 = -twoTo 0 ∧ binary32.value 0x3F800000 = twoTo (2 * 0) ∧
      binary32.value 0x3F800000 = (1 : Int) ∧ binary32.value 0xBF800000 < 0) ∧
    (∀ o : SfuOp, ∃ m e, fmtF32.value (0x3FC00000 : Word).toNat = .fin false m e ∧ m ≠ 0 ∧ o.exact false m e = none ∧ (o.ref false m e).1 ≠ 0) := by
  refine ⟨⟨⟨by decide, by decide⟩, ⟨by decide, by decide⟩, by decide, by decide⟩, ?_, ?_, fun m => ⟨?_, ?_, ?_⟩,
    by decide +kernel, ?_⟩
  · intro p hp rm hr
    simp only [List.mem_cons, List.not_mem_nil, or_false] at hp
    rcases hp with rfl | rfl | rfl | rfl | rfl | rfl | rfl | rfl | rfl <;>
      exact ⟨_, _, rfl, by decide +kernel, by revert rm; decide, by revert rm; decide, by revert rm; decide⟩
  · intro p hp
    simp only [List.mem_cons, List.not_mem_nil, or_false] at hp
    rcases hp with rfl | rfl | rfl | rfl <;> exact ⟨_, _, _, _, rfl, by decide, by decide, by decide, by decide⟩
  · exact ⟨fun _ => by decide +kernel, fun _ => by decide +kernel, fun _ => by decide +kernel, fun _ => by decide +kernel⟩
  · exact ⟨fun _ => by decide +kernel, fun _ => by decide +kernel, fun _ => by decide +kernel, fun _ => by decide +kernel⟩
  · exact ⟨fun _ => by decide +kernel, fun _ => by decide +kernel, fun _ => by decide +kernel, fun _ => by decide +kernel⟩
  · intro o
    cases o <;> exact ⟨_, _, rfl, by decide +kernel, by decide +kernel, by decide +kernel⟩

theorem witness_MoveWords : ∃ i r k, moveRow i = some r ∧ Issues aS 0 0 aE aT ∧ r.Takes aT 0 aE allLanes k :=
  ⟨.sel ⟨1, 2, 3, 7, false, false, false⟩, _, _, rfl, aIssues, takes_aT _ _ (by decide) (fun _ h => by cases h; decide) (fun _ h => by cases h)⟩

/-- A gang whose lane 31 finds v1 empty, or poisoned. -/
def emptyG : Gang := { aG with threads := [(31, { Thread.start with rstate := [(1, .empty)] })] }
def poisonG : Gang := { aG with threads := [(31, { Thread.start with poison := [(1, true)] })] }
/-- A gang with port q0 bound to queue 0, and a task with that queue full. -/
def portG : Gang := { aG with ports := [(0, some 0)] }

theorem witness_OperandStates :
    (∃ i r, laneRow i = some r ∧ Issues (on (withGang emptyG) aE) 0 0 aE (withGang emptyG) ∧ r.Bound (withGang emptyG) 0 aE ∧
      r.waitsFor 1 ∧ (emptyG.active allLanes r.guard).getLsbD 31 = true ∧ (emptyG.thread 31).regState 256 1 ≠ .full) ∧
    (∃ i r k, laneRow i = some r ∧ Issues (on (withGang emptyG) aE) 0 0 aE (withGang emptyG) ∧ r.Ports (withGang emptyG) 0 aE k ∧
      r.NoWait (withGang emptyG) 0 allLanes ∧ ∀ n, n < 32 → ((0x80000000 : LaneMask).getLsbD n = true ↔
        (emptyG.active allLanes r.guard).getLsbD n = true ∧ ∃ a, (a, true) ∈ r.srcs ∧ a < 28 ∧ (emptyG.thread n).regState 256 a ≠ .full)) ∧
    ∃ i r k, laneRow i = some r ∧ Issues (on (withGang poisonG) aE) 0 0 aE (withGang poisonG) ∧ r.Ports (withGang poisonG) 0 aE k ∧
      r.NoWait (withGang poisonG) 0 allLanes ∧ ∀ n, n < 32 → ((0x80000000 : LaneMask).getLsbD n = true ↔
        (poisonG.active allLanes r.guard).getLsbD n = true ∧
          ∃ a, ((∃ b, (a, b) ∈ r.srcs) ∨ r.keeps = some a) ∧ a < 28 ∧ (poisonG.thread n).regPoison 256 a = true) := by
  refine ⟨⟨.mov ⟨2, 1, 0, false, false⟩, _, rfl, issues_on _, ⟨?_, ?_⟩, .inl ⟨by decide, by decide⟩, by decide, by decide⟩,
    ⟨.mov ⟨2, 1, 0, false, true⟩, _, ⟨none, none⟩, rfl, issues_on _, ⟨rfl, rfl⟩, ⟨?_, ?_⟩, ?_⟩,
    ⟨.mov ⟨2, 1, 0, false, false⟩, _, ⟨none, none⟩, rfl, issues_on _, ⟨rfl, rfl⟩, ⟨?_, ?_⟩, ?_⟩⟩
  · intro p h; revert h; decide +revert
  · intro d h; cases h; decide
  · rintro k (h | h | h)
    · exact absurd h.1 (by simp)
    · cases h
    · obtain ⟨h, -⟩ := h; cases h; unfold Full; decide
  · rintro k h _
    have : k = 1 := by simpa using h
    subst this; decide
  · intro n hn
    constructor
    · intro h
      exact ⟨by revert n; decide, 1, by decide, by decide, by revert n; decide⟩
    · rintro ⟨-, a, h, -, f⟩
      have : a = 1 := by simpa using h
      subst this; revert n; decide
  · rintro k (h | h | h)
    · have : k = 1 := by simpa using h.1
      subst this; unfold Full; decide
    · cases h
    · obtain ⟨h, -⟩ := h; cases h; unfold Full; decide
  · rintro k h _; exact absurd h (by simp)
  · intro n hn
    constructor
    · intro h
      exact ⟨by revert n; decide, 1, .inl ⟨false, by decide⟩, by decide, by revert n; decide⟩
    · rintro ⟨-, a, h, -, f⟩
      have : a = 1 := by
        rcases h with ⟨b, h⟩ | h
        · have := List.mem_singleton.1 h; cases this; rfl
        · cases h
      subst this; revert n; decide
/-- A task with queue 0 bound to port q0 of its gang. -/
def queueT (l : List QEntry) : Task := { withGang portG with queues := [(0, l)] }
def full16 : List QEntry := List.replicate 16 zeros

theorem witness_QueuePorts :
    (∃ i r, laneRow i = some r ∧ Issues (on (queueT []) aE) 0 0 aE (queueT []) ∧ r.NoWait (queueT []) 0 allLanes ∧ r.port = some 28 ∧
      portG.queueOf aE 28 = some 0 ∧ r.dst = some 1 ∧ (queueT []).queue 0 = []) ∧
    (∃ i r, laneRow i = some r ∧ Issues (on (queueT full16) aE) 0 0 aE (queueT full16) ∧ r.NoWait (queueT full16) 0 allLanes ∧ r.port = none ∧
      r.dst = some 28 ∧ portG.queueOf aE 28 = some 0 ∧ ((queueT full16).queue 0).length = 16) ∧
    (∃ i r, laneRow i = some r ∧ Issues aS 0 0 aE aT ∧ r.port = some 31 ∧ aG.queueOf aE 31 = none) ∧
    (∃ i r, laneRow i = some r ∧ Issues aS 0 0 aE aT ∧ r.port = none ∧ r.dst = some 28 ∧ aG.queueOf aE 28 = none) ∧
    (∃ n, Issues (on { aT with variant := { wordVariant with nq := n } } aE) 0 0 aE { aT with variant := { wordVariant with nq := n } } ∧
      aG.cbit 0 = true ∧ aG.sreg 1 = 0 ∧ (0 : Word).toNat < n) ∧
    ∃ v : Word, aT.variant.nq ≤ v.toNat ∧ v = 0xFFFFFFFF ∧ aG.cbit 0 = true ∧
      (∃ u : Word, aT.variant.nq ≤ u.toNat ∧ u ≠ 0xFFFFFFFF ∧ { aG with s := [(1, u)] }.sreg 1 = u) ∧ { aG with s := [(1, v)] }.sreg 1 = v := by
  refine ⟨⟨.mov ⟨1, 28, 0, false, false⟩, _, rfl, issues_on _, ⟨?_, ?_⟩, rfl, by decide, rfl, rfl⟩,
    ⟨.mov ⟨28, 1, 0, false, false⟩, _, rfl, issues_on _, ⟨?_, ?_⟩, rfl, rfl, by decide, by decide⟩,
    ⟨.mov ⟨1, 31, 0, false, false⟩, _, rfl, aIssues, rfl, by decide⟩, ⟨.movs ⟨28, 1, 0⟩, _, rfl, aIssues, rfl, rfl, by decide⟩,
    ⟨1, issues_on _, by decide, by decide, by decide⟩,
    ⟨_, by decide, rfl, by decide, ⟨1, by decide, by decide, by decide⟩, by decide⟩⟩
  · rintro k (h | h | h)
    · have : k = 28 := by simpa using h.1
      subst this; exact absurd h.2 (by decide)
    · cases h
    · obtain ⟨h, -⟩ := h; cases h; unfold Full; decide
  · rintro k h _; exact absurd h (by simp)
  · rintro k (h | h | h)
    · have : k = 1 := by simpa using h.1
      subst this; unfold Full; decide
    · cases h
    · obtain ⟨h, q⟩ := h; cases h; exact absurd q (by decide)
  · rintro k h _; exact absurd h (by simp)

theorem witness_LaneExchange (x : Bool) : ∃ (w : LR) (k : Taken) (lane : Nat → Nat), Issues aS 0 0 aE aT ∧ aE.held = none ∧
    (exchangeRow w).Ports aT 0 aE k ∧ allLanes = aG.active aE.mask w.g.toNat ∧
    (∀ i, lane i = (if x then i ^^^ ((k.value 256 aG w.b.toNat i).toNat % 32) else (k.value 256 aG w.b.toNat i).toNat % 32)) ∧
    Good 256 aG allLanes w.b.toNat ∧ Good 256 aG allLanes w.a.toNat ∧ Full 256 aG allLanes w.d.toNat ∧
    ∀ q y rest, k.pop = some (q, y, rest) → y.poison = 0 :=
  ⟨⟨1, 2, 3, 0, false, false, false⟩, ⟨none, none⟩, _, aIssues, rfl, ⟨rfl, rfl⟩, by decide, fun _ => rfl, good_aG _ _ _, good_aG _ _ _, full_aG _ _ _,
    fun _ _ _ h => by cases h⟩

/-- A stream of the task on cluster 0, and the state in which it issues. -/
def aX : Stream := { wordStream with pc := 0 }
def sE : Entry := { aE with mask := 0 }
def onStream (x : Stream) (e : Entry) : State :=
  { on aT e with cur := some ⟨.stream 0 0, e⟩,
                 clusters := AList.set Cluster.reset [] 0 { Cluster.reset with streams := [(0, some x)], mslots := [(0, some (wordSlot 0))] } }
theorem sIssues : StreamIssues (onStream aX sE) 0 0 sE aX := ⟨rfl, by decide +kernel, by decide⟩

theorem witness_SpecialRegisters :
    (∃ w : LMovsr, w.imm = 0x18 ∧ Issues aS 0 0 aE aT ∧ aG.active aE.mask w.g.toNat ≠ 0 ∧ w.d.toNat < 28 ∧ Full 256 aG allLanes w.d.toNat) ∧
    (∃ w : LMovsr, Issues (on (queueT []) aE) 0 0 aE (queueT []) ∧ 28 ≤ w.d.toNat ∧ portG.queueOf aE w.d.toNat = some 0 ∧
      ((queueT []).queue 0).length < 16) ∧
    (∃ w : UMovsr, w.imm = 0x1D ∧ Issues aS 0 0 aE aT ∧ aG.cbit w.c.toNat = true ∧
      StreamIssues (onStream aX sE) 0 0 sE aX ∧ streamBit aX w.c.toNat = true ∧ (onStream aX sE).task aX.h = some aT) ∧ aS.task 0 = some aT :=
  ⟨⟨⟨27, 0x18, 0⟩, rfl, aIssues, by decide, by decide, full_aG _ _ _⟩, ⟨⟨28, 0x18, 0⟩, issues_on _, by decide, by decide, by decide⟩,
   ⟨⟨31, 0x1D, 0⟩, rfl, aIssues, by decide, sIssues, by decide, by decide +kernel⟩, rfl⟩

theorem witness_UniformArithmetic :
    (∃ i r, uniformRow i = some r ∧ Issues aS 0 0 aE aT ∧ aG.cbit r.guard = true) ∧
    (∃ i r, uniformRow i = some r ∧ Issues aS 0 0 aE aT ∧ aG.cbit r.guard = false ∧ aE.st.issued = false) ∧
    ∃ i r, uniformRow i = some r ∧ StreamIssues (onStream aX sE) 0 0 sE aX ∧ streamBit aX r.guard = true :=
  ⟨⟨.usel ⟨31, 1, 2, 7⟩, _, rfl, aIssues, by decide⟩, ⟨.ushr ⟨1, 2, 3, 7, true⟩, _, rfl, aIssues, by decide, rfl⟩,
   ⟨.ucmpGeu ⟨7, 1, 2, 0⟩, _, rfl, sIssues, by decide⟩⟩

theorem witness_FalseGuards :
    (∃ i c, (gangGuard i).or (sharedGuard i) = some c ∧ Issues aS 0 0 aE aT ∧ aE.st.issued = false ∧ aG.cbit c.toNat = false) ∧
    ∃ i c, (sharedGuard i).or (matrixGuard i) = some c ∧ StreamIssues (onStream aX sE) 0 0 sE aX ∧ sE.st.issued = false ∧ streamBit aX c.toNat = false :=
  ⟨⟨.rtake ⟨1, 2, 3, 7, 1⟩, _, rfl, aIssues, rfl, by decide⟩, ⟨.mma ⟨1, 2, 3, 7, true⟩, _, rfl, sIssues, rfl, by decide⟩⟩

/-- A gang whose lane 0 is one call deep, with `v` in v7. -/
def deepG (v : Word) : Gang := { aG with threads := [(0, { Thread.start with base := 20, stack := [(27, v)] })] }
def laneE : Entry := { aE with mask := 1 }
/-- The task of one segment that has landed. -/
def landedOn (t : Task) (e : Entry) : State :=
  { on t e with cores := AList.set Core.reset [] 0 { Core.reset with islots := [(0, some (wordSlot 0))] } }
theorem issues_landed (t : Task) : Issues (landedOn t laneE) 0 0 laneE t := ⟨rfl, rfl, by decide⟩

theorem witness_BranchesAndJumps :
    (∃ w : LB, Issues aS 0 0 aE aT ∧ aG.active aE.mask w.g.toNat = allLanes) ∧
    ∃ (w : LJ) (lo : Nat → Word), Issues (landedOn aT laneE) 0 0 laneE aT ∧ aG.active 1 w.g.toNat = 1 ∧ w.a.toNat + 1 < 28 ∧
      aT.variant.spill ≤ 65520 ∧ 0 < aT.variant.depth ∧ Good 256 aG 1 w.a.toNat ∧ Good 256 aG 1 (w.a.toNat + 1) ∧
      (∀ i, lo i = (aG.thread i).reg 256 w.a.toNat) ∧ (aG.thread 0).reg 256 (w.a.toNat + 1) = 0 ∧ (lo 0).toNat % 4 = 0 ∧
      (lo 0).toNat < 2 ^ 25 ∧ (landedOn aT laneE).inObject 0 ((lo 0).toNat / 8192) = true ∧
      (landedOn aT laneE).landed 0 ((lo 0).toNat / 8192) = true ∧ CanCall aT 0 0 ∧ (aG.thread 0).floor % 20 = 0 :=
  ⟨⟨⟨0x7FFF, 0, 7⟩, aIssues, by decide⟩,
   ⟨⟨26, 0⟩, _, issues_landed _, by decide, by decide, by decide, by decide, good_aG _ _ _, good_aG _ _ _, fun _ => rfl, rfl, by decide +kernel,
    by decide +kernel, by decide +kernel, by decide +kernel, ⟨by decide, by decide, by decide⟩, by decide⟩⟩

/-- A gang whose lanes have no room left in the stack: the call spills. -/
def tightT : Task := { withGang { aG with threads := (List.range 32).map fun i => (i, { Thread.start with base := 220 }) } with
  variant := { wordVariant with depth := 256 } }

theorem witness_CallMovesWindow :
    (∃ w : LB, Issues aS 0 0 aE aT ∧ aG.active aE.mask w.g.toNat ≠ 0 ∧ aT.variant.spill ≤ 65520 ∧ 0 < aT.variant.depth ∧
      ∀ i, laneOf allLanes i → CanCall aT 0 i ∧ (aG.thread i).floor % 20 = 0) ∧
    Issues (on tightT laneE) 0 0 laneE tightT ∧ CanCall tightT 0 0 ∧ spills 256 ((tightT.gang 0).thread 0) = true ∧
      ((tightT.gang 0).thread 0).floor % 20 = 0 ∧ tightT.variant.spill ≤ 65520 := by
  refine ⟨⟨⟨0, 0, 0⟩, aIssues, by decide, by decide, by decide, fun i _ => ⟨⟨?_, ?_, rfl⟩, rfl⟩⟩, ⟨rfl, rfl, by decide⟩,
    ⟨by decide +kernel, by decide +kernel, by decide +kernel⟩, by decide +kernel, by decide +kernel, by decide⟩
  · intro h; cases h
  · intro h; cases h

/-- A task whose lane 0 has its caller's window spilt. -/
def spiltT : Task := withGang { aG with threads := [(0, { Thread.start with base := 20, floor := 20, stack := [(27, 4)] })] }

theorem witness_Returns :
    (∃ w : LG, ∀ spilt : Bool, ∃ (t : Task) (lo : Nat → Word), Issues (landedOn t laneE) 0 0 laneE t ∧ (t.gang 0).active 1 w.g.toNat = 1 ∧
      20 ≤ t.variant.depth ∧ Good t.variant.depth (t.gang 0) 1 7 ∧ (∀ i, lo i = ((t.gang 0).thread i).reg t.variant.depth 7) ∧
      (∀ i, laneOf 1 i → CanReturn (landedOn t laneE) 0 t 0 i (lo i)) ∧
      (decide (((t.gang 0).thread 0).base - 20 < ((t.gang 0).thread 0).floor) = spilt)) ∧
    ∃ w : LG, Issues aS 0 0 aE aT ∧ (∀ i, laneOf (aG.active aE.mask w.g.toNat) i → (aG.thread i).base = 0) ∧
      Good 256 aG (aG.active aE.mask w.g.toNat) 7 := by
  refine ⟨⟨⟨0⟩, fun spilt => ?_⟩, ⟨0⟩, aIssues, fun _ _ => rfl, good_aG _ _ _⟩
  cases spilt
  · exact ⟨withGang (deepG 4), _, issues_landed _, by decide, by decide, by unfold Good; decide, fun _ => rfl,
      lane1 ⟨by decide, fun h => absurd h (by decide), by decide +kernel, by decide +kernel, by decide +kernel, by decide +kernel⟩, by decide⟩
  · exact ⟨spiltT, _, issues_landed _, by decide, by decide, by unfold Good; decide, fun _ => rfl,
      lane1 ⟨by decide, fun _ => ⟨by decide, by decide +kernel⟩, by decide +kernel, by decide +kernel, by decide +kernel, by decide +kernel⟩, by decide⟩

theorem witness_ReconvergenceAndPriorities :
    (∃ w : LG, Issues aS 0 0 aE aT ∧ aG.active aE.mask w.g.toNat ≠ 0 ∧ aG.active aE.mask w.g.toNat = aE.mask ∧
      (aG.frontier.all fun x => x.st == .exited || (x.st == .rcb && x.pc == aE.pc)) = true) ∧
    (∃ w : LG, aG.active aE.mask w.g.toNat ≠ 0 ∧ ∃ t x, Issues (on t aE) 0 0 aE t ∧ x ∈ (t.gang 0).frontier ∧ x.st ≠ .exited ∧
      ¬ (x.st = .rcb ∧ x.pc = aE.pc)) ∧
    ∃ (w v : LSetpri), Issues aS 0 0 aE aT ∧ w.n = aE.pri ∧ v.n ≠ aE.pri :=
  ⟨⟨⟨0⟩, aIssues, by decide, by decide, rfl⟩,
   ⟨⟨0⟩, by decide, withGang { aG with frontier := [readyAt 8 0 1] }, readyAt 8 0 1, issues_on _, by decide, by decide, by decide⟩,
   ⟨⟨0, 0⟩, ⟨7, 0⟩, aIssues, by decide, by decide⟩⟩

/-- A gang of lane 0's entry beside another entry; its task has a barrier at which lane 1 has arrived, lanes 0 and 1 being members. -/
def besideG (x : Entry) : Gang := { aG with frontier := [x] }
def exitBarT (x : Entry) : Task := { withGang (besideG x) with
  barriers := AList.set Barrier.fresh [] 0 { Barrier.fresh with members := [(0, 3)], arrived := [(0, 2)] } }
theorem exits (t : Task) (h : ∀ i, ((t.gang 0).thread i).rstate = []) (a : t.ident.spanidx = none) (m : (t.gang 0).active 1 0 = 1) :
    Exits ⟨0⟩ (on t laneE) 0 0 laneE t 1 := ⟨⟨⟨rfl, rfl, by decide⟩, by decide⟩, m.symm, by decide, a, fun i _ => h i⟩

theorem witness_ExitsAndTraps :
    (∀ x ∈ [{ aE with mask := 2, st := .exited }, { aE with mask := 2, st := EState.rcb, pc := 8 }],
      Exits ⟨0⟩ (on (withGang (besideG x)) laneE) 0 0 laneE (withGang (besideG x)) 1 ∧
      ∀ b, b < (withGang (besideG x)).variant.nbar → NotYet (withGang (besideG x)) 0 1 b) ∧
    (∃ x, Exits ⟨0⟩ (on (exitBarT x) laneE) 0 0 laneE (exitBarT x) 1 ∧ x.st = .barrier 0 ∧ x.mask ≠ 0 ∧ x.pc.toNat % 8192 ≠ 0x1FFC ∧
      (∀ y ∈ ((exitBarT x).gang 0).frontier, y.st ≠ .rcb) ∧ 0 < (exitBarT x).variant.nbar ∧
      AList.modify 0 ((exitBarT x).barrier 0).arrived 0 (· &&& ~~~(1 : LaneMask)) = AList.modify 0 ((exitBarT x).barrier 0).members 0 (· &&& ~~~(1 : LaneMask)) ∧
      AList.modify 0 ((exitBarT x).barrier 0).arrived 0 (· &&& ~~~(1 : LaneMask)) ≠ [] ∧ ((exitBarT x).barrier 0).x ≤ ((exitBarT x).barrier 0).y) ∧
    (∃ w : LTrap, Issues aS 0 0 aE aT ∧ aG.active aE.mask w.g.toNat = allLanes) ∧ (∃ w : UImm, Issues aS 0 0 aE aT ∧ aG.cbit w.c.toNat = true) ∧
    ∃ w : UImm, StreamIssues (onStream aX sE) 0 0 sE aX ∧ streamBit aX w.c.toNat = true ∧ (onStream aX sE).task aX.h = some aT ∧
      (aT.gang aX.g).record.busy = false := by
  refine ⟨?_, ⟨{ aE with mask := 2, st := .barrier 0 }, exits _ (fun _ => rfl) rfl (by decide), rfl, by decide, by decide, by decide, by decide,
    by decide, by decide, by decide⟩, ⟨⟨255, 0⟩, aIssues, by decide⟩, ⟨⟨255, 0⟩, aIssues, by decide⟩,
    ⟨255, 0⟩, sIssues, by decide, by decide +kernel, by decide⟩
  intro x hx
  have no : ∀ t : Task, t.variant.nbar = 1 → t.barriers = aT.barriers → ∀ b, b < t.variant.nbar → NotYet t 0 1 b := by
    intro t e f b hb
    have : b = 0 := by omega
    subst this
    exact .inl (by unfold Task.barrier; rw [f]; decide)
  simp only [List.mem_cons, List.not_mem_nil, or_false] at hx
  rcases hx with rfl | rfl
  · exact ⟨exits _ (fun _ => rfl) rfl (by decide), no _ rfl rfl⟩
  · exact ⟨exits _ (fun _ => rfl) rfl (by decide), no _ rfl rfl⟩

theorem witness_UniformControl :
    (∃ w : UB, Issues aS 0 0 aE aT ∧ aG.cbit w.c.toNat = true) ∧
    (∃ w : UB, StreamIssues (onStream aX sE) 0 0 sE aX ∧ streamBit aX w.c.toNat = true) ∧
    (∃ w : UAB, Issues (landedOn aT laneE) 0 0 laneE aT ∧ aG.cbit w.c.toNat = true ∧ (aG.sreg w.b.toNat).toNat % 4 = 0 ∧
      (aG.sreg w.b.toNat).toNat < 8192 ∧ (landedOn aT laneE).inObject 0 (aG.sreg w.a.toNat).toNat = true ∧
      (landedOn aT laneE).landed 0 (aG.sreg w.a.toNat).toNat = true) ∧
    (aS.inObject 0 0 = true ∧ aS.landed 0 0 = false) ∧ aS.inObject 0 1 = false ∧ Issues aS 0 0 aE aT :=
  ⟨⟨⟨0x7FFF, 0⟩, aIssues, by decide⟩, ⟨⟨0, 0⟩, sIssues, by decide⟩,
   ⟨⟨0, 0, 0⟩, issues_landed _, by decide, by decide, by decide, by decide +kernel, by decide +kernel⟩, ⟨by decide +kernel, by decide +kernel⟩,
   by decide +kernel, aIssues⟩
/-! ### Local memory -/

/-- The small state with lane 0 alone. -/
def lS : State := on aT laneE
theorem free_lS : IssuesFreely lS 0 0 laneE aT := ⟨⟨⟨rfl, rfl, by decide⟩, by decide⟩, by decide +kernel, by decide, by decide⟩
/-- Bytes in the one granule of the small task. -/
theorem own_aT (a n k : Nat) (h1 : a % k = 0) (h2 : a + n ≤ 4096) : OwnBytes aT a n k :=
  ⟨h1, by simpa [aT, wordTask] using h2, by omega, fun _ _ => rfl⟩

theorem witness_LocalMemoryLoads :
    (∃ i w n, localLoads i = some (w, n) ∧ n = 16 ∧ IssuesFreely lS 0 0 laneE aT ∧ aG.active 1 w.g.toNat = 1 ∧ w.a.toNat < 28 ∧
      Good 256 aG 1 w.a.toNat ∧ (∀ k ∈ groupRegs w.d.toNat n, k < 28 ∧ Full 256 aG 1 k) ∧
      ∀ j, laneOf 1 j → OwnBytes aT (lladdr 256 (aG.thread j) w.a (w.imm.toNat * n)) n n ∧
        lladdr 256 (aG.thread j) w.a (w.imm.toNat * n) = 4080) ∧
    ∃ i w n, transposes i = some (w, n) ∧ n = 4 ∧ IssuesFreely lS 0 0 laneE aT ∧ aG.active 1 w.g.toNat = 1 ∧ w.a.toNat < 28 ∧
      w.d.toNat + 1 < 28 ∧ (∀ j, laneOf 1 j → (aG.thread (j % 4)).regState 256 w.a.toNat = .full ∧
        (aG.thread (j % 4)).regPoison 256 w.a.toNat = false) ∧ Full 256 aG 1 w.d.toNat ∧ Full 256 aG 1 (w.d.toNat + 1) ∧
      ∀ j, laneOf 1 j → OwnBytes aT (lladdr 256 (aG.thread (j % 4)) w.a (w.imm.toNat * n)) (16 * n) n :=
  ⟨⟨.lld128 ⟨24, 1, 255, 0⟩, _, _, rfl, rfl, free_lS, by decide, by decide, good_aG _ _ _,
      fun k h => ⟨by revert k; decide, full_aG _ _ _⟩, lane1 ⟨own_aT _ _ _ (by decide +kernel) (by decide +kernel), by decide +kernel⟩⟩,
   ⟨.tld32 ⟨26, 1, 15, 0⟩, _, _, rfl, rfl, free_lS, by decide, by decide, by decide, fun _ _ => ⟨rfl, rfl⟩, full_aG _ _ _, full_aG _ _ _,
      lane1 (own_aT _ _ _ rfl (by decide +kernel))⟩⟩

/-- A gang whose lane 0 holds an address on another core of its cluster in v2. -/
def farG : Gang := { aG with threads := [(0, laneReg 2 0x22000040)] }
def farT : Task := withGang farG
def farLS : State := on farT laneE
theorem free_farLS : IssuesFreely farLS 0 0 laneE farT := ⟨⟨⟨rfl, rfl, by decide⟩, by decide⟩, by decide +kernel, by decide, by decide⟩

theorem witness_LocalMemoryWrites :
    (∃ i w n, localStores i = some (w, n) ∧ n = 16 ∧ IssuesFreely lS 0 0 laneE aT ∧ aG.active 1 w.g.toNat = 1 ∧ w.a.toNat < 28 ∧
      Good 256 aG 1 w.a.toNat ∧ (∀ k ∈ groupRegs w.d.toNat n, k < 28 ∧ Good 256 aG 1 k) ∧
      ∀ j, laneOf 1 j → OwnBytes aT (lladdr 256 (aG.thread j) w.a (w.imm.toNat * n)) n n) ∧
    ∃ i w r f, localAtomics i = some (w, r, f) ∧ IssuesFreely lS 0 0 laneE aT ∧ aG.active 1 w.g.toNat = 1 ∧ w.a.toNat < 28 ∧
      Good 256 aG 1 w.a.toNat ∧ (∀ k ∈ groupRegs w.d.toNat (4 * r), k < 28 ∧ Good 256 aG 1 k) ∧
      (∀ j, laneOf 1 j → OwnBytes aT (lladdr 256 (aG.thread j) w.a (w.imm.toNat * 4)) 4 4) ∧
      IssuesFreely farLS 0 0 laneE farT ∧ (farG.active 1 w.g.toNat = 1 ∧ (0 : LaneMask) &&& 1 = 0) ∧
      Good 256 farG 1 2 ∧ (∀ k ∈ groupRegs w.d.toNat (4 * r), Good 256 farG 1 k) ∧
      ∀ j, laneOf 1 j → lladdr 256 (farG.thread j) 2 0 % 4 = 0 ∧ farLS.isRemote 0 (lladdr 256 (farG.thread j) 2 0) = true :=
  ⟨⟨.lst128 ⟨24, 1, 255, 0⟩, _, _, rfl, rfl, free_lS, by decide, by decide, good_aG _ _ _,
      fun k h => ⟨by revert k; decide, good_aG _ _ _⟩, lane1 (own_aT _ _ _ rfl (by decide +kernel))⟩,
   ⟨.latomCas ⟨26, 1, 255, 0⟩, _, _, _, rfl, free_lS, by decide, by decide, good_aG _ _ _,
      fun k h => ⟨by revert k; decide, good_aG _ _ _⟩, lane1 (own_aT _ _ _ rfl (by decide +kernel)), free_farLS, by decide, by unfold Good; decide,
      fun k h => by revert k; unfold Good; decide +kernel, lane1 (by decide +kernel)⟩⟩

theorem witness_BitPlanesAndBlocks :
    (∃ w : LL, IssuesFreely lS 0 0 laneE aT ∧ aG.active 1 w.g.toNat = 1 ∧ w.a.toNat < 28 ∧ w.d.toNat < 28 ∧
      Good 256 aG (laneBit (lowestLane 1)) w.a.toNat ∧ Good 256 aG 1 w.d.toNat ∧
      OwnBytes aT (lladdr 256 (aG.thread (lowestLane 1)) w.a (w.imm.toNat * 4)) 128 4) ∧
    ∃ w : LTeb, IssuesFreely lS 0 0 laneE aT ∧ aG.active 1 w.g.toNat = 1 ∧ w.a.toNat < 28 ∧ w.d.toNat < 28 ∧ w.var = 3 ∧
      Good 256 aG (laneBit (lowestLane 1)) w.a.toNat ∧ Good 256 aG 1 w.d.toNat ∧
      OwnBytes aT (lladdr 256 (aG.thread (lowestLane 1)) w.a (w.off.toNat * 4)) (12 + 4 * [2, 4, 6, 10].getD w.var.toNat 0) 4 :=
  ⟨⟨⟨27, 1, 255, 0⟩, free_lS, by decide, by decide, by decide, good_aG _ _ _, good_aG _ _ _, own_aT _ _ _ rfl (by decide)⟩,
   ⟨⟨27, 1, 63, 3, 0⟩, free_lS, by decide, by decide, by decide, rfl, good_aG _ _ _, good_aG _ _ _, own_aT _ _ _ rfl (by decide)⟩⟩
/-! ### Global memory -/

theorem pair_eq {α β : Type} {a : α × β} {x : α} (h : a.1 = x) : a = (x, a.2) := by rw [← h]

/-- A leaf with every permission and its A and D bits, of frame 1; the page it maps at address 0; lane 0 issues. -/
def aLeaf : Nat := 2 ^ 54 + 2 ^ 53 + 4096 + 13
def mapping (s : State) (leaf : Nat := aLeaf) : State :=
  { s with clusters := AList.set Cluster.reset s.clusters 0 { s.cluster 0 with
      tlb := [{ ctx := 1, vbase := 0, size := 4096, leaf := BitVec.ofNat 64 leaf, slot := 0 }] } }
def gS : State := mapping lS
theorem issues_mapping (t : Task) : Issues (mapping (on t laneE)) 0 0 laneE t := ⟨rfl, rfl, by decide⟩
theorem free_gS : IssuesFreely gS 0 0 laneE aT := ⟨⟨issues_mapping aT, by decide⟩, by decide +kernel, by decide, by decide⟩
def hitLine : L1Line := { way := 0, ctx := 1, vline := 0, pline := 32, stream := false, data := [] }
/-- The same with the line of address 0 in the core's L1. -/
def hitS : State := { gS with cores := AList.set Core.reset gS.cores 0 { gS.core 0 with
  l1 := [hitLine] } }
theorem free_hitS : IssuesFreely hitS 0 0 laneE aT := ⟨⟨⟨rfl, rfl, by decide⟩, by decide⟩, by decide +kernel, by decide, by decide⟩
theorem inFlight_gS : InFlight gS := ⟨fun _ h => (List.not_mem_nil h).elim, fun _ h => (List.not_mem_nil h).elim, fun _ h => (List.not_mem_nil h).elim⟩

def aLoadLane : LoadLane := { lane := 0, va := 0, pa := 4096, mode := 0, dst := [1], got := [], landed := false }
def aLoad : LoadOp :=
  { id := 7, owner := .gang 0 0, core := 0, ctx := 1, pc := 0, bytes := 2, signed := true, uniform := false, counted := true, acq := none,
    lanes := [aLoadLane], fixed := [] }
def loadS : State := { gS with loads := [aLoad] }
/-- A load of two words, of which the first is read first. -/
def wideLoad : LoadOp := { aLoad with bytes := 8, signed := false, lanes := [{ aLoadLane with dst := [1, 2] }] }

theorem witness_GlobalLoads :
    (∃ i f, globalLoads i = some f ∧ f.n = 16 ∧ IssuesFreely gS 0 0 laneE aT ∧ InFlight gS ∧ aG.active 1 f.g.toNat = 1 ∧ aG.counters.ld < 63 ∧
      f.a.toNat < 28 ∧ Good 256 aG 1 f.a.toNat ∧ (∀ k ∈ groupRegs f.d.toNat f.n, k < 28 ∧ Full 256 aG 1 k) ∧
      ∀ j, laneOf 1 j → Mapped gS 0 (gea 256 aG laneE f.sb f.a j) f.n f.n .read aLeaf ∧ (gS.core 0).l1Line 1 (gea 256 aG laneE f.sb f.a j) = none) ∧
    (∃ i f, globalLoads i = some f ∧ IssuesFreely hitS 0 0 laneE aT ∧ InFlight hitS ∧ aG.active 1 f.g.toNat = 1 ∧
      ∀ j, laneOf 1 j → gea 256 aG laneE f.sb f.a j % f.n = 0 ∧ canonical (gea 256 aG laneE f.sb f.a j) = true ∧
        ∃ y, (hitS.core 0).l1Line 1 (gea 256 aG laneE f.sb f.a j) = some y) ∧
    ∀ x, x = aLoad ∨ x = wideLoad → ∃ l l' : LoadLane, ({ gS with loads := [x] } : State).task 0 = some aT ∧
      ({ gS with loads := [x] } : State).loads.find? (fun y => y.id == 7) = some x ∧
      x.lanes.find? (fun y => y.lane == 0 && !y.landed) = some l ∧ x.owner = .gang 0 0 ∧ x.uniform = false ∧ x.fixed = [] ∧ l.lacks 0 = true ∧
      ({ gS with loads := [x] } : State).mayRead x l (l.pa + 4 * 0) (min x.bytes 4) = true ∧
      l' = { l with got := l.got ++ [(0, ({ gS with loads := [x] } : State).overlay x.core x.id (l.pa + 4 * 0)
        (({ gS with loads := [x] } : State).coreRead x.core 0 x.ctx (l.va + 4 * 0) (l.pa + 4 * 0) (min x.bytes 4) l.mode).1)] } ∧
      (if x = wideLoad then l'.lacks 1 = true
        else (∀ j, j < 1 → l'.lacks j = false) ∧ l'.poisoned = false ∧ l.dst.Nodup ∧ l.dst.length = (x.bytes + 3) / 4 ∧ x.bytes = 2) := by
  refine
  ⟨⟨.ld128 ⟨24, 1, 2, 0, 0⟩, _, rfl, rfl, free_gS, inFlight_gS, by decide, by decide, by decide, good_aG _ _ _,
      fun k h => ⟨by revert k; decide, full_aG _ _ _⟩,
      lane1 ⟨⟨by decide +kernel, by decide +kernel, by decide +kernel, by decide +kernel, fun h => by cases h⟩, by decide +kernel⟩⟩,
   ⟨.ld128 ⟨24, 1, 2, 0, 0⟩, _, rfl, free_hitS, ⟨fun _ h => (List.not_mem_nil h).elim, fun _ h => (List.not_mem_nil h).elim,
      fun _ h => (List.not_mem_nil h).elim⟩, by decide, lane1 ⟨by decide +kernel, by decide +kernel, hitLine, by decide +kernel⟩⟩, ?_⟩
  rintro x (rfl | rfl)
  · exact ⟨aLoadLane, _, by decide +kernel, by decide +kernel, rfl, rfl, rfl, rfl, by decide, by decide +kernel, rfl, by decide +kernel⟩
  · exact ⟨{ aLoadLane with dst := [1, 2] }, _, by decide +kernel, by decide +kernel, rfl, rfl, rfl, rfl, by decide, by decide +kernel, rfl, by decide +kernel⟩

/-- A store of one byte to frame 1: at the core (stage 0) or on the way to its home (1), with a guard range or without. -/
def aWriteLane (stage : Nat) : WriteLane :=
  { lane := 0, va := 0, pa := 4096, mode := 0, data := [5], poison := false, stage := stage, seq := 0, denied := 0, deniedAt := 0 }
def aWrite (stage : Nat) : WriteOp :=
  { id := 7, owner := .gang 0 0, core := 0, die := 0, ctx := 1, pc := 0, tagged := true, umask := none, counted := true, ordered := none, through := false, lanes := [aWriteLane stage],
    acked := false }
def storeS (stage : Nat) (guarded : Bool) : State :=
  { gS with writes := [aWrite stage], guards := if guarded then [(0, (4096, 8192))] else [] }
/-- A store of the same byte to a home of another die. -/
def farPa : Nat := 2 * 2 ^ 47
def farS : State := { gS with writes := [{ aWrite 0 with lanes := [{ aWriteLane 0 with pa := farPa }] }] }
theorem farLane {P : WriteOp × WriteLane → Prop} (h : P ({ aWrite 0 with lanes := [{ aWriteLane 0 with pa := farPa }] }, { aWriteLane 0 with pa := farPa }))
    (p : WriteOp × WriteLane) (e : farS.writeLane 7 0 0 = some p) : P p := by
  have : farS.writeLane 7 0 0 =
      some ({ aWrite 0 with lanes := [{ aWriteLane 0 with pa := farPa }] }, { aWriteLane 0 with pa := farPa }) := by decide +kernel
  rw [this] at e; cases e; exact h

theorem witness_GlobalStores :
    (∃ i f, globalStores i = some f ∧ f.rel = some 6 ∧ IssuesFreely gS 0 0 laneE aT ∧ aG.active 1 f.g.toNat = 1 ∧ aG.counters.st < 63 ∧
      f.a.toNat < 28 ∧ Good 256 aG 1 f.a.toNat ∧ (∀ k ∈ groupRegs f.d.toNat f.n, k < 28 ∧ Good 256 aG 1 k) ∧
      (∀ sc, f.rel = some sc → gS.releaseDone (.gang 0 0) sc (gS.upto laneE) = true ∧ gS.orderedBefore (.gang 0 0) gS.nextId sc = true) ∧
      ∀ j, laneOf 1 j → Mapped gS 0 (gea 256 aG laneE f.sb f.a j) f.n f.n .write aLeaf) ∧
    (∀ home guard : Bool,
      (storeS (if home then 1 else 0) guard).writeLane 7 0 (if home then 1 else 0) = some (aWrite (if home then 1 else 0), aWriteLane (if home then 1 else 0)) ∧
      (aWrite (if home then 1 else 0)).through = false ∧ (aWrite (if home then 1 else 0)).id = 7 ∧
      (home = true → (storeS 1 guard).olderAtDie (aWrite 1) (aWriteLane 1) = false ∧ (storeS 1 guard).awake 4096 = true) ∧
      (home = false → (storeS 0 guard).mayLeave (aWrite 0) (aWriteLane 0) = true ∧ ownHome 0 4096 = true) ∧
      (storeS (if home then 1 else 0) guard).aliasAt 4096 = none ∧
      (storeS (if home then 1 else 0) guard).guarded 4096 1 = if guard then some 4096 else none) ∧
    ((farS.writeLane 7 0 0).map fun p => (p.1.die, p.2.pa, p.2.mode)) = some (0, farPa, 0) ∧
      (∀ p, farS.writeLane 7 0 0 = some p → farS.mayLeave p.1 p.2 = true ∧ farS.lineRoom 0 farPa 0 = true) ∧ ownHome 0 farPa = false ∧
      isBank farPa = false ∧
    (storeS 2 false).task 0 = some aT ∧ (storeS 2 false).writes.find? (fun y => y.id == 7 && !y.acked) = some (aWrite 2) ∧
      ((aWrite 2).lanes.all fun l => decide (l.stage = 2)) = true :=
  ⟨⟨.strl64 ⟨26, 1, 2, 0, 6⟩, _, rfl, rfl, free_gS, by decide, by decide, by decide, good_aG _ _ _, fun k h => ⟨by revert k; decide, good_aG _ _ _⟩,
      fun _ h => by cases h; decide +kernel,
      lane1 ⟨by decide +kernel, by decide +kernel, by decide +kernel, by decide +kernel, fun _ => by decide +kernel⟩⟩,
   by decide +kernel, by decide +kernel, farLane (by decide +kernel), by decide +kernel, by decide +kernel, rfl, by decide +kernel,
   by decide +kernel⟩

/-- An atomic of one lane, not performed, performed, or denied. -/
def anAtomLane (stage : Nat) (denied : Bool) : AtomLane :=
  { lane := 0, va := 0, pa := 4096, ap := 0, mode := 0, data := [5], dst := [1], stage := stage, old := [1, 0, 0, 0], poisoned := false, denied := denied }
def anAtom (stage : Nat) (denied : Bool) : AtomOp :=
  { id := 7, owner := .gang 0 0, core := 0, die := 0, ctx := 1, pc := 0, op := 0, scope := 6, acq := false, ordered := false, lanes := [anAtomLane stage denied] }
def atomS (stage : Nat) (denied guarded : Bool) : State :=
  { gS with atoms := [anAtom stage denied], guards := if guarded then [(0, (4096, 8192))] else [] }

theorem witness_GlobalAtomics :
    (∃ i w op, globalAtomics i = some (w, op) ∧ op = 14 ∧ w.ord = 3 ∧ IssuesFreely gS 0 0 laneE aT ∧ InFlight gS ∧ aG.active 1 w.g.toNat = 1 ∧
      aG.counters.st < 63 ∧ w.a.toNat < 28 ∧ Good 256 aG 1 w.a.toNat ∧
      (∀ k, k < atomGroup op → w.d.toNat + k < 28 ∧ Good 256 aG 1 (w.d.toNat + k)) ∧
      gS.releaseDone (.gang 0 0) w.scope.toNat (gS.upto laneE) = true ∧
      ∀ j, laneOf 1 j → Mapped gS 0 (gea 256 aG laneE w.sb w.a j) (atomBytes op) (atomBytes op) (.atomic op) aLeaf) ∧
    ((atomS 0 false false).atoms.find? (fun y => y.id == 7) = some (anAtom 0 false) ∧
      (anAtom 0 false).lanes.find? (fun y => y.lane == 0 && decide (y.stage = 0)) = some (anAtomLane 0 false) ∧
      (atomS 0 false false).atomReady (anAtom 0 false) (anAtomLane 0 false) = true ∧ (atomS 0 false false).atomDenied 4096 4 = false ∧
      (anAtomLane 0 false).near 6 = false ∧ (anAtom 0 false).id = 7 ∧ (anAtomLane 0 false).lane = 0 ∧ (anAtom 0 false).op ≤ 14 ∧ ∀ k, k < 4 → (atomS 0 false false).aliasAt (4096 + k) = none ∧ AList.get false (atomS 0 false false).memPoison ((4096 + k) / 4) = false) ∧
    ((atomS 0 false true).atomReady (anAtom 0 false) (anAtomLane 0 false) = true ∧ (atomS 0 false true).atomDenied 4096 4 = true) ∧
    ∀ d : Bool, (atomS 1 d d).task 0 = some aT ∧ (atomS 1 d d).atoms.find? (fun y => y.id == 7) = some (anAtom 1 d) ∧
      (anAtom 1 d).lanes.find? (fun y => y.lane == 0 && decide (y.stage = 1)) = some (anAtomLane 1 d) ∧ (anAtomLane 1 d).denied = d ∧
      (anAtomLane 1 d).poisoned = false ∧ (anAtom 1 d).owner = .gang 0 0 ∧ (∀ m ∈ (anAtom 1 d).lanes, m.lane ≠ 0 → m.stage = 2) ∧
      (anAtomLane 1 d).dst.Nodup ∧ (anAtomLane 1 d).dst.length = atomBytes 0 / 4 ∧ aG.record.busy = false := by
  refine ⟨⟨.atomCas128Map2 ⟨20, 1, 2, 0, 6, 3⟩, _, _, rfl, rfl, rfl, free_gS, inFlight_gS, by decide, by decide, by decide, good_aG _ _ _,
      fun k h => ⟨by revert k; decide, good_aG _ _ _⟩, by decide +kernel,
      lane1 ⟨by decide +kernel, by decide +kernel, by decide +kernel, by decide +kernel, fun _ => by decide +kernel⟩⟩, ?_, ?_, ?_⟩
  · decide +kernel
  · decide +kernel
  · decide +kernel

/-- A near atomic on a home of another die. -/
def nearLane : AtomLane := { anAtomLane 0 false with pa := farPa }
def nearAtom : AtomOp := { anAtom 0 false with scope := 4, lanes := [nearLane] }
def nearS : State := { gS with atoms := [nearAtom] }

theorem witness_NearAtomic :
    nearS.atoms.find? (fun y => y.id == 7) = some nearAtom ∧ nearAtom.id = 7 ∧
    nearAtom.lanes.find? (fun y => y.lane == 0 && decide (y.stage = 0)) = some nearLane ∧ nearLane.lane = 0 ∧ nearAtom.op ≤ 14 ∧
    nearS.atomReady nearAtom nearLane = true ∧ nearS.atomDenied farPa (atomBytes 0) = false ∧ nearLane.near nearAtom.scope = true ∧
    ownHome nearAtom.die farPa = false ∧ farPa % atomBytes 0 = 0 ∧ ∀ k, k < atomBytes 0 → (Say.dieByte nearS 0 (farPa + k)).2 = false := by
  decide +kernel

/-- The word of frame 1 holds 1, and v2 of lane 0 holds `v`. -/
def waitT (v : Word) : Task := withGang { aG with threads := [(0, laneReg 2 v)] }
/-- Its page is of the coherent type. -/
def homeLeaf : Nat := aLeaf + 2048
def waitS (v : Word) : State := { mapping (on (waitT v) laneE) homeLeaf with mem := Memory.write [] 4096 1 }
/-- A gang whose lanes wait at a monitor, and the state that holds it. -/
def monitorS : State := on (withGang { aG with frontier := [{ aE with st := .monitor true }] }) aE

theorem witness_PrefetchAndMonitoredWait :
    (∃ w : LMPref, IssuesFreely gS 0 0 laneE aT ∧ w.a.toNat < 28 ∧ Good 256 aG (aG.active 1 w.g.toNat) w.a.toNat) ∧
    (∃ w : LMS, laneE.mask = laneBit 0 ∧ w.g = 0 ∧ w.scope.toNat ≤ 2 ∧ laneE.st = .ready ∧ w.a = 1 ∧ w.d = 2 ∧ w.sb = 0) ∧
    (∀ v : Word, v = 1 ∨ v = 2 → (waitS v).heldBack (.gang 0 0) = false ∧ Mapped (waitS v) 0 0 4 4 .read homeLeaf ∧
      gea 256 ((waitT v).gang 0) laneE 0 1 0 = 0 ∧ ((waitS v).core 0).l1Line 1 0 = none ∧ (waitS v).accessMode homeLeaf 4096 0 false = 2 ∧
      isBank 4096 = false ∧ (waitS v).loads = [] ∧ (waitS v).writes = [] ∧ (waitS v).atoms = [] ∧ (waitS v).remotes = [] ∧ (waitS v).awake 4096 = true ∧
      ((waitS v).core 0).monitors = [] ∧ (∀ k, k < 4 → AList.get false (waitS v).memPoison ((4096 + k) / 4) = false) ∧ (∀ k, k < 4 → (waitS v).aliasAt (4096 + k) = none) ∧ Memory.readNat (waitS v).mem 4096 4 = 1 ∧
      (((waitT v).gang 0).thread 0).reg 256 2 = v) ∧
    ∃ e, (monitorS.gang 0 0).frontier.find? (fun x => x.st == .monitor true && x.mask.getLsbD 31) = some e := by
  refine ⟨⟨⟨27, 2, 0, 0⟩, free_gS, by decide, good_aG _ _ _⟩, ⟨⟨2, 1, 0, 0, 2⟩, by decide⟩, ?_, ⟨_, rfl⟩⟩
  rintro v (rfl | rfl) <;>
    exact ⟨by decide +kernel, ⟨by decide +kernel, by decide +kernel, by decide +kernel, by decide +kernel, fun h => by cases h⟩, by decide +kernel,
      by decide +kernel, by decide +kernel, by decide +kernel, rfl, rfl, rfl, rfl, by decide +kernel, by decide +kernel, by decide +kernel,
      by decide +kernel, by decide +kernel, by decide +kernel⟩
/-! ### Fences, uniform accesses, barriers, accumulators -/

def withMem (s : State) (bs : List Byte) : State := { s with mem := Memory.writeBytes [] 4096 bs }
def aDenial : Denial := { pc := 0, mask := 1, addr := 4096, cause := 7, tagged := true }
def deniedT : Task := withGang { aG with denials := [aDenial] }
def countT (n : Nat) : Task := withGang { aG with counters := { Counters.zero with ld := n } }

theorem witness_FencesAndCounts :
    (∀ k, k < 3 → ∃ (w : LFence) (i : Instr), isFence w k i ∧ aG.active aE.mask w.g.toNat ≠ 0 ∧ aG.denials = [] ∧ Issues aS 0 0 aE aT ∧
      aS.fenceReady (.gang 0 0) k w.scope.toNat (aS.upto aE) = true ∧ (k ≠ 2 →
        Issues ({ aS with loads := [aLoad], nextId := 8 } : State) 0 0 aE aT ∧
        ({ aS with loads := [aLoad], nextId := 8 } : State).fenceReady (.gang 0 0) k w.scope.toNat
          (({ aS with loads := [aLoad], nextId := 8 } : State).upto aE) = false) ∧
      Issues (on deniedT aE) 0 0 aE deniedT ∧ (deniedT.gang 0).active aE.mask w.g.toNat ≠ 0 ∧ (deniedT.gang 0).denials = [aDenial] ∧
      (deniedT.gang 0).record.busy = false ∧ (on deniedT aE).fenceReady (.gang 0 0) k w.scope.toNat ((on deniedT aE).upto aE) = true) ∧
    (∃ w : LFence, Issues ({ storeS 0 false with nextId := 8 } : State) 0 0 laneE aT ∧ aG.active laneE.mask w.g.toNat ≠ 0 ∧
      ({ storeS 0 false with nextId := 8 } : State).fenceReady (.gang 0 0) 2 w.scope.toNat (({ storeS 0 false with nextId := 8 } : State).upto laneE) = false) ∧
    (∃ w : UWaitc, w.cls.toNat < 5 ∧ aG.cbit w.c.toNat = false ∧ aE.st.issued = false) ∧
    (∃ w : UWaitc, w.cls = 0 ∧ w.n = 31 ∧ aG.cbit w.c.toNat = true ∧ aE.st = .ready ∧
      (Issues (on (countT 31) aE) 0 0 aE (countT 31) ∧ ((countT 31).gang 0).counters.get 0 = 31) ∧
      Issues (on (countT 32) aE) 0 0 aE (countT 32) ∧ ((countT 32).gang 0).counters.get 0 = 32) ∧
    (∃ w : UWaitc, w.cls = 4 ∧ w.n = 0 ∧ aG.cbit w.c.toNat = true ∧ aG.counters.get 4 ≤ 0 ∧ aS.loadsLanded (.gang 0 0) (aS.upto aE) = true) ∧
    (∃ w : UWaitc, w.cls = 1 ∧ w.n = 5 ∧ Issues (on deniedT aE) 0 0 aE deniedT ∧ (deniedT.gang 0).cbit w.c.toNat = true ∧
      (deniedT.gang 0).counters.get 1 ≤ w.n.toNat ∧ (deniedT.gang 0).denials = [aDenial] ∧ (deniedT.gang 0).record.busy = false) ∧
    ∃ w : UWaitc, StreamIssues (onStream aX sE) 0 0 sE aX ∧ streamBit aX w.c.toNat = true ∧ aX.counters.get w.cls.toNat ≤ w.n.toNat := by
  refine ⟨?_, ⟨⟨6, 0⟩, ⟨rfl, rfl, by decide⟩, by decide, by decide +kernel⟩,
    ⟨⟨0, 4, 7⟩, by decide, by decide, rfl⟩, ⟨⟨31, 0, 0⟩, rfl, rfl, by decide, rfl, ⟨issues_on _, by decide⟩, issues_on _, by decide⟩,
    ⟨⟨0, 4, 0⟩, rfl, rfl, by decide, by decide, by decide +kernel⟩, ⟨⟨5, 1, 0⟩, rfl, rfl, issues_on _, by decide, by decide, rfl, rfl⟩,
    ⟨⟨0, 1, 0⟩, sIssues, by decide, by decide⟩⟩
  intro k hk
  have : k = 0 ∨ k = 1 ∨ k = 2 := by omega
  rcases this with rfl | rfl | rfl
  · exact ⟨⟨6, 0⟩, .fence ⟨6, 0⟩, .inl ⟨rfl, rfl⟩, by decide, rfl, aIssues, by decide +kernel, fun _ => ⟨⟨rfl, rfl, by decide⟩, by decide +kernel⟩, issues_on _, by decide, rfl, rfl,
      by decide +kernel⟩
  · exact ⟨⟨6, 0⟩, .fenceAcq ⟨6, 0⟩, .inr (.inl ⟨rfl, rfl⟩), by decide, rfl, aIssues, by decide +kernel, fun _ => ⟨⟨rfl, rfl, by decide⟩, by decide +kernel⟩, issues_on _, by decide, rfl,
      rfl, by decide +kernel⟩
  · exact ⟨⟨6, 0⟩, .fenceRel ⟨6, 0⟩, .inr (.inr ⟨rfl, rfl⟩), by decide, rfl, aIssues, by decide +kernel, fun h => absurd rfl h, issues_on _, by decide, rfl, rfl,
      by decide +kernel⟩

/-- A uniform load of two words into s30 and s31, whose first word has been read, and the entry that awaits it. -/
def uLane : LoadLane := { aLoadLane with dst := [30, 31], got := [(0, [(1, false), (0, false), (0, false), (0, false)])] }
def uLoad : LoadOp := { aLoad with bytes := 8, signed := false, uniform := true, lanes := [uLane] }
def uEntry : Entry := { laneE with st := .stall (.load 7) }
def uT : Task := withGang { aG with frontier := [uEntry] }
def uS : State := { gS with tasks := [(0, some uT)], loads := [uLoad] }
def uLane' : LoadLane := { uLane with got := uLane.got ++ [(1, uS.overlay 0 7 4100 (uS.coreRead 0 0 1 4 4100 4 0).1)] }

theorem witness_UniformAccesses :
    (∃ w : UI, IssuesFreely hitS 0 0 laneE aT ∧ aG.cbit w.c.toNat = true ∧
      (hitS.spair (.gang 0 0) w.a.toNat + 4 * w.imm.toNat) % 2 ^ 64 % 8 = 0 ∧
      canonical ((hitS.spair (.gang 0 0) w.a.toNat + 4 * w.imm.toNat) % 2 ^ 64) = true ∧
      (hitS.core 0).l1Line 1 ((hitS.spair (.gang 0 0) w.a.toNat + 4 * w.imm.toNat) % 2 ^ 64) = some hitLine) ∧
    (uS.task 0 = some uT ∧ uS.loads.find? (fun y => y.id == 7) = some uLoad ∧ uLane.lacks 1 = true ∧
      uS.mayRead uLoad uLane (uLane.pa + 4 * 1) 4 = true ∧ (∀ j, j < 2 → uLane'.lacks j = false) ∧ uLane'.poisoned = false ∧
      (uT.gang 0).frontier.filter (fun y => y.st == .stall (.load 7)) = [uEntry]) ∧
    (∃ w : UI, IssuesFreely gS 0 0 laneE aT ∧ aG.cbit w.c.toNat = true ∧ aG.counters.st < 63 ∧
      Mapped gS 0 ((gS.spair (.gang 0 0) w.a.toNat + 4 * w.imm.toNat) % 2 ^ 64) (4 * 2) (4 * 2) .read aLeaf ∧
      Mapped gS 0 ((gS.spair (.gang 0 0) w.a.toNat + 4 * w.imm.toNat) % 2 ^ 64) (4 * 2) (4 * 2) .write aLeaf ∧
      (gS.core 0).l1Line 1 ((gS.spair (.gang 0 0) w.a.toNat + 4 * w.imm.toNat) % 2 ^ 64) = none) ∧
    ∀ sel : Bool, ∃ (w : LM) (vs : List (Nat × Word)) (s1 : State), IssuesFreely gS 0 0 laneE aT ∧ aG.active 1 w.g.toNat = 1 ∧ aG.counters.ld < 63 ∧
      w.a.toNat < 28 ∧ w.d.toNat < 28 ∧ Good 256 aG 1 w.a.toNat ∧ Full 256 aG 1 w.d.toNat ∧ (gS.spair (.gang 0 0) w.sb.toNat) % 128 = 0 ∧
      (begun gS 0 0).bmLanes (fun u i => if sel
          then u.bmSel 0 0 (gS.spair (.gang 0 0) w.sb.toNat) ((aG.thread i).reg 256 w.a.toNat).toNat w.pol.toNat
          else u.bmRank 0 0 (gS.spair (.gang 0 0) w.sb.toNat) ((aG.thread i).reg 256 w.a.toNat).toNat w.pol.toNat)
        (lanesOf 1) = (vs.map (fun p => (p.1, .ok p.2)), s1) :=
  ⟨⟨⟨30, 30, 2, 0⟩, free_hitS, by decide, by decide +kernel, by decide +kernel, by decide +kernel⟩,
   ⟨by decide +kernel, rfl, by decide, by decide +kernel, by decide +kernel, by decide +kernel, by decide⟩, ⟨⟨31, 30, 254, 0⟩, free_gS, by decide, by decide,
     ⟨by decide +kernel, by decide +kernel, by decide +kernel, by decide +kernel, fun h => by cases h⟩,
     ⟨by decide +kernel, by decide +kernel, by decide +kernel, by decide +kernel, fun _ => by decide +kernel⟩, by decide +kernel⟩,
   fun sel => ⟨⟨27, 1, 2, 0, 0⟩, [(0, 0xFFFFFFFF)], _, free_gS, by decide, by decide, by decide, by decide, good_aG _ _ _, full_aG _ _ _,
     by decide +kernel, pair_eq (by cases sel <;> decide +kernel)⟩⟩

/-- The bitmap of the example of 09 R209 in frame 1: two blocks, five bits set, three of them in block 0. -/
def bmHead : List Byte := leBytes 4 2 ++ leBytes 4 5
def bmBlock0 : List Byte := leBytes 64 (2 ^ 3 + 2 ^ 7 + 2 ^ 10) ++ leBytes 4 0
def bmBlock1 : List Byte := leBytes 64 (2 ^ 3 + 2 ^ 88) ++ leBytes 4 3
def bmObject : List Byte := bmHead ++ leBytes 120 0 ++ bmBlock0 ++ leBytes 60 0 ++ bmBlock1 ++ leBytes 60 0
def bmS : State := withMem gS bmObject
/-- A load whose value is already there. -/
def fixedLoad : LoadOp := { aLoad with bytes := 4, signed := false, fixed := [(0, some 4)] }

theorem witness_BitmapValues :
    (∃ hd s1 u s2, bmS.readLine 0 0 0 8 0 = (.ok hd, s1) ∧ 7 < 512 * field hd 0 4 ∧ 512 * field hd 0 4 ≤ 1024 ∧
      s1.readLine 0 0 ((0 + 128 * (1 + 7 / 512)) % 2 ^ 64) 68 0 = (.ok u, s2)) ∧
    (∃ hd s1 s2 u s3, bmS.readLine 0 0 0 8 0 = (.ok hd, s1) ∧ 3 < field hd 4 4 ∧ 0 < field hd 0 4 ∧ field hd 4 4 ≤ 5 ∧
      Search 0 0 0 3 0 0 (field hd 0 4 - 1) s1 1 s2 ∧ s2.readLine 0 0 ((0 + 128 * (1 + 1)) % 2 ^ 64) 68 0 = (.ok u, s3) ∧ field u 64 4 ≤ 3 ∧
      (field u 0 64).testBit 3 = true ∧ rankIn (field u 0 64) 3 = 3 - field u 64 4) ∧
    ({ gS with loads := [fixedLoad], tasks := [(0, some uT)] } : State).loads.find? (fun y => y.id == 7) = some fixedLoad ∧
    fixedLoad.lanes.find? (fun y => y.lane == 0 && !y.landed) = some aLoadLane ∧ fixedLoad.fixed.find? (fun q => q.1 == 0) = some (0, some 4) ∧
    aLoadLane.dst = [1] ∧ (∀ m ∈ fixedLoad.lanes, (m.lane = 0 ∨ m.landed = true) ∧ m.poisoned = false) ∧
    (uT.gang 0).frontier.filter (fun y => y.st == .stall (.load 7)) = [uEntry] ∧ uEntry.mask ≠ 0 ∧ uEntry.pc.toNat % 8192 ≠ 0x1FFC := by
  refine ⟨⟨bmHead, _, bmBlock0, _, pair_eq (by decide +kernel), by decide +kernel, by decide +kernel, pair_eq (by decide +kernel)⟩,
    ⟨bmHead, _, _, bmBlock1, _, pair_eq (by decide +kernel), by decide +kernel, by decide +kernel, by decide +kernel,
      .right _ _ _ _ _ _ [3, 0, 0, 0] (by decide +kernel) (pair_eq (by decide +kernel)) (by decide +kernel) (.done _ _ _ (by decide +kernel)),
      pair_eq (by decide +kernel), by decide +kernel, by decide +kernel, by decide +kernel⟩, by decide +kernel⟩

/-- Lane 0 of gang 0 on barrier 0, whose members and arrivals are these. -/
def barT (m a : LaneMask) : Task := { aT with barriers := [(0, { Barrier.fresh with members := [(0, m)], arrived := if a = 0 then [] else [(0, a)] })] }
theorem onBarrier (m a : LaneMask) : OnBarrier ⟨0, 0, 0⟩ (on (barT m a) laneE) 0 0 laneE (barT m a) 1 0 :=
  ⟨⟨⟨rfl, rfl, by decide⟩, by decide⟩, by rfl, by decide, .inl ⟨by decide, by decide⟩, Nat.zero_lt_one, rfl⟩
theorem out_barT (m a : LaneMask) (h1 : m.getLsbD 1 = true) (h2 : a.getLsbD 1 = false) : StillOut (barT m a) 0 0 1 :=
  ⟨0, 1, by decide, h1, by
    by_cases h : a = 0
    · have : arrived (barT m a) 0 0 = 0 := by unfold arrived barT Task.barrier; rw [if_pos h]; rfl
      rw [this]; decide
    · have : arrived (barT m a) 0 0 = a := by unfold arrived barT Task.barrier; rw [if_neg h]; rfl
      rw [this]; exact h2, by decide⟩

theorem witness_Barriers :
    (∃ (w : LBar), (OnBarrier w (on (barT 0 0) laneE) 0 0 laneE (barT 0 0) 1 0 ∧ (1 : LaneMask).getLsbD 0 = true ∧ (arrived (barT 0 0) 0 0).getLsbD 0 = false) ∧
      (OnBarrier w (on (barT 3 0) laneE) 0 0 laneE (barT 3 0) 1 0 ∧ StillOut (barT 3 0) 0 0 1 ∧ 1 &&& ~~~members (barT 3 0) 0 0 = 0 ∧
        1 &&& arrived (barT 3 0) 0 0 = 0 ∧ (on (barT 3 0) laneE).arrivalDone (.gang 0 0) 2 (on (barT 3 0) laneE).nextId = true ∧
        (barT 3 0).isSpanBarrier 0 = false) ∧
      OnBarrier w (on (barT 3 1) laneE) 0 0 laneE (barT 3 1) 1 0 ∧ 1 &&& arrived (barT 3 1) 0 0 ≠ 0) ∧
    (∃ w : LBar, Issues aS 0 0 aE aT ∧ aG.active aE.mask w.g.toNat = allLanes ∧ aE.st = .ready ∧ BarNumber w aT 0 allLanes 1 ∧ aT.variant.nbar ≤ 1) ∧
    ∀ c, c = 1 ∨ c = 2 → ∃ (t : Task), OnBarrier ⟨0, 0, 0⟩ (on t laneE) 0 0 laneE t 1 0 ∧ (t.gang 0).record.busy = false ∧
      t.isSpanBarrier 0 = false ∧ (on t laneE).arrivalDone (.gang 0 0) 2 (on t laneE).nextId = true ∧
      ((members t 0 1).getLsbD 0 = true ∧ (arrived t 0 1).getLsbD 0 = false) ∧
      ((c = 1 ∧ 1 &&& members t 0 0 = 0) ∨ (c = 2 ∧ (1 : LaneMask) &&& ~~~(members t 0 0 &&& arrived t 0 0) = 0)) := by
  refine ⟨⟨⟨0, 0, 0⟩, ⟨onBarrier _ _, by decide, by decide⟩, ⟨onBarrier _ _, out_barT _ _ (by decide) (by decide), by decide, by decide, by decide +kernel, by decide⟩,
      onBarrier _ _, by decide⟩, ⟨⟨0, 1, 0⟩, aIssues, by decide, rfl, .inl ⟨by decide, by decide⟩, by decide⟩, ?_⟩
  rintro c (rfl | rfl)
  · exact ⟨{ aT with barriers := [(0, { Barrier.fresh with members := [(1, 1)] })] },
      ⟨⟨⟨rfl, rfl, by decide⟩, by decide⟩, by decide, by decide, .inl ⟨by decide, by decide⟩, by decide, rfl⟩, by decide, by decide, by decide +kernel, by decide, by decide⟩
  · exact ⟨{ aT with barriers := [(0, { Barrier.fresh with members := [(0, 1), (1, 1)], arrived := [(0, 1)] })] },
      ⟨⟨⟨rfl, rfl, by decide⟩, by decide⟩, by decide, by decide, .inl ⟨by decide, by decide⟩, by decide, rfl⟩, by decide, by decide, by decide +kernel, by decide, by decide⟩

/-- A task whose s4 names a notice, and a notice in flight. -/
def noteT (v : Word) : Task := withGang { aG with s := [(4, v)] }
def noteS (v : Word) : State := on (noteT v) laneE
theorem free_noteS (v : Word) : IssuesFreely (noteS v) 0 0 laneE (noteT v) := ⟨⟨⟨rfl, rfl, by decide⟩, by decide⟩, by rfl, Nat.le_of_ble_eq_true rfl, by decide⟩
def aNotice (v : Word) (acked refused : Bool) : Notice :=
  { id := 7, owner := .gang 0 0, stream := false, counts := true, pc := 0, mask := 1, operand := v, arrived := acked, acked := acked, refused := refused }
def noticeS (v : Word) (acked refused : Bool) : State := { on (barT 3 0) laneE with notices := [aNotice v acked refused] }

theorem witness_BarrierPhases :
    (OnBarrier ⟨0, 0, 0⟩ (on (barT 1 0) laneE) 0 0 laneE (barT 1 0) 1 0 ∧ 1 &&& ~~~members (barT 1 0) 0 0 = 0 ∧ 1 &&& arrived (barT 1 0) 0 0 = 0 ∧
      0 < (barT 1 0).gangCount ∧ (on (barT 1 0) laneE).arrivalDone (.gang 0 0) 2 (on (barT 1 0) laneE).nextId = true ∧
      AList.modify 0 ((barT 1 0).barrier 0).arrived 0 (· ||| 1) = ((barT 1 0).barrier 0).members ∧ (on (barT 1 0) laneE).mates 0 0 = [0] ∧
      (on (barT 1 0) laneE).task ((on (barT 1 0) laneE).creditHome 0 0) = some (barT 1 0) ∧ ((barT 1 0).barrier 0).x ≤ ((barT 1 0).barrier 0).y ∧
      (on (barT 1 0) laneE).loads = [] ∧ (on (barT 1 0) laneE).remotes = []) ∧
    (∃ w : UA, (∃ v : Word, IssuesFreely (noteS v) 0 0 laneE (noteT v) ∧ ((noteT v).gang 0).cbit w.c.toNat = true ∧ v = ((noteT v).gang 0).sreg w.a.toNat ∧
        badNotice v.toNat = false ∧ v.getLsbD 16 = true ∧ v.toNat % 128 < (noteT v).variant.nbar ∧ laneE.st = .ready ∧
        (noteS v).task ((noteS v).creditHome 0 (v.toNat % 128)) = some (noteT v) ∧
        ((noteT v).barrier (v.toNat % 128)).arrived ≠ ((noteT v).barrier (v.toNat % 128)).members) ∧
      ∃ v : Word, IssuesFreely (noteS v) 0 0 laneE (noteT v) ∧ v = ((noteT v).gang 0).sreg w.a.toNat ∧ badNotice v.toNat = false ∧ v.getLsbD 16 = false ∧
        ((noteT v).gang 0).counters.rg < 63 ∧ (noteS v).arrivalDone (.gang 0 0) ((noteS v).noticeScope 0 v.toNat) ((noteS v).upto laneE) = true) ∧
    (∃ n, (noticeS 0xFF00 false false).notices.find? (fun x => x.id == 7 && !x.arrived) = some n ∧ n.stream = false ∧
      (noticeS 0xFF00 false false).noticeTarget 0 n.operand.toNat = some 0 ∧ (barT 3 0).isSpanBarrier (n.operand.toNat % 128) = false ∧
      n.operand.toNat % 128 < (barT 3 0).variant.nbar ∧ ((barT 3 0).barrier 0).arrived ≠ ((barT 3 0).barrier 0).members) ∧
    (∃ n, (noticeS 0x0101 false false).notices.find? (fun x => x.id == 7 && !x.arrived) = some n ∧
      n.stream = false ∧ (noticeS 0x0101 false false).noticeTarget 0 n.operand.toNat = some 0 ∧ (barT 3 0).variant.nbar ≤ n.operand.toNat % 128) ∧
    ∀ r : Bool, ∃ n, (noticeS 0x0100 true r).notices.find? (fun x => x.id == 7 && x.acked && (noticeS 0x0100 true r).ownerHere x.owner) = some n ∧
      n.owner = .gang 0 0 ∧ n.stream = false ∧ n.counts = true ∧ n.refused = r := by
  refine ⟨⟨onBarrier _ _, by decide, by decide, by decide, by decide +kernel, by decide, by decide +kernel, by decide +kernel, by decide, rfl, rfl⟩,
    ⟨⟨4, 0⟩, ⟨0x1FF00, free_noteS _, by decide, by decide, by decide, by decide, by decide, rfl, by decide +kernel, by decide⟩,
      ⟨0x0100, free_noteS _, by decide, by decide, by decide, by decide, by decide +kernel⟩⟩,
    ⟨_, rfl, rfl, by decide +kernel, by decide, by decide, by decide⟩, ⟨_, rfl, rfl, by decide +kernel, by decide⟩, fun r => ⟨aNotice 0x0100 true r, by cases r <;> decide +kernel, rfl, rfl, rfl, rfl⟩⟩

/-- A gang with an accumulator 1: a list of rank 2, a sum, or one of a bound. -/
def accT (a : Acc) : Task := withGang { aG with acc := [(1, a)], s := [(4, 0xFFFFFFFF)] }
def rank2 (l : List (Word × Word)) : RankAcc := ⟨2, false, false, false, l, none, 0⟩
def accS (a : Acc) : State := withMem (mapping (on (accT a) laneE)) [1, 2, 0, 0, 0, 0, 0, 0, 5, 0, 0, 0, 9, 0, 0, 0]
theorem accIssues (a : Acc) : AccIssues 0 (accS a) 0 0 laneE (accT a) := ⟨⟨rfl, rfl, by decide⟩, rfl, rfl⟩
def insertT : Task := withGang { aG with acc := [(1, .rank (rank2 []))], inserter := [⟨1, [(5, 9)]⟩] }

theorem takes_reads (r : LaneRow) (a : Acc) (hp : r.port = none) (hd : r.dst = none) (hk : r.keeps = none) :
    r.Takes (accT a) 0 laneE 1 ⟨none, none⟩ := by
  refine ⟨⟨by rw [hp], by rw [hd]⟩, fun p _ _ i _ _ => ⟨rfl, rfl⟩, fun d h => ?_, fun d h => ?_, fun q x rest h => by cases h⟩
  · rw [hk] at h; cases h
  · rw [hd] at h; cases h

theorem witness_Accumulators :
    (∃ w : UAcdecl, w.acc = 1 ∧ w.k = 63 ∧ AccIssues w.c (accS .undeclared) 0 0 laneE (accT .undeclared)) ∧
    (∃ w : UAcc, w.acc = 1 ∧ (AccIssues w.c (accS (.sum [])) 0 0 laneE (accT (.sum [])) ∧ ((accT (.sum [])).gang 0).accum 1 = .sum []) ∧
      AccIssues w.c (accS (.rank (rank2 []))) 0 0 laneE (accT (.rank (rank2 []))) ∧ ((accT (.rank (rank2 []))).gang 0).accum 1 = .rank (rank2 [])) ∧
    (∃ w : LRk, w.acc = 1 ∧ (rkpushRow w).Takes (accT (.rank (rank2 []))) 0 laneE 1 ⟨none, none⟩) ∧
    (∃ x, (on insertT laneE).task 0 = some insertT ∧ (insertT.gang 0).inserter = [x] ∧ (insertT.gang 0).accum x.acc = .rank (rank2 [])) ∧
    (∃ w : LRktest, w.acc = 1 ∧ (rktestRow w (rank2 [(5, 9)])).Takes (accT (.rank (rank2 [(5, 9)]))) 0 laneE 1 ⟨none, none⟩ ∧
      ((accT (.rank (rank2 [(5, 9)]))).gang 0).accBad 1 = false) ∧
    (∃ w : LAcadd, w.acc = 1 ∧ (acaddRow w).Takes (accT (.sum [])) 0 laneE 1 ⟨none, none⟩) ∧
    (∃ w : UAcrd, w.acc = 1 ∧ (AccIssues w.c (accS (.sum [])) 0 0 laneE (accT (.sum [])) ∧ ((accT (.sum [])).gang 0).accBad 1 = false ∧
        ((accT (.sum [])).gang 0).sreg w.a.toNat = 0) ∧
      AccIssues w.c (accS (.rank (rank2 [(5, 9)]))) 0 0 laneE (accT (.rank (rank2 [(5, 9)]))) ∧ (rank2 [(5, 9)]).list[0]? = some (5, 9) ∧
      ((accT (.rank (rank2 [(5, 9)]))).gang 0).sreg 4 = BitVec.allOnes 32) ∧
    (∃ w : UAccA, w.acc = 1 ∧ AccIssues w.c (accS (.rank (rank2 [(5, 9)]))) 0 0 laneE (accT (.rank (rank2 [(5, 9)]))) ∧
      (accS (.rank (rank2 [(5, 9)]))).heldBack (.gang 0 0) = false ∧ ((accT (.rank (rank2 [(5, 9)]))).gang 0).accBad 1 = false ∧
      (accS (.rank (rank2 [(5, 9)]))).spair (.gang 0 0) w.a.toNat = 0 ∧
      (∀ j, j < 2 → Mapped (accS (.rank (rank2 [(5, 9)]))) 0 ((0 + 8 * j) % 2 ^ 64) 8 8 .write aLeaf) ∧
      ∃ s1 s2, (issued (accS (.rank (rank2 [(5, 9)])))).readPair 0 0 0 = (.ok (0x201, 0), s1) ∧ badHeader 0x201 0 = false ∧
        (0x201 : Word).getLsbD 16 = (rank2 []).int32 ∧ (0x201 : Word).getLsbD 17 = (rank2 []).smallest ∧
        s1.readPairs 0 0 8 1 = (.ok [(5, 9)], s2)) ∧
    ∃ i n, accumulatorOf i = some (0, n, true) ∧ ((accT .undeclared).gang 0).accum n = .undeclared ∧ ((accT (.sum [])).gang 0).accum n = .sum [] := by
  refine ⟨⟨⟨1, false, false, false, 63, 0⟩, rfl, rfl, accIssues _⟩, ⟨⟨1, 0⟩, rfl, ⟨accIssues _, rfl⟩, accIssues _, rfl⟩,
    ⟨⟨1, 2, 3, 0, false, false, false⟩, rfl, takes_reads _ _ (by decide) rfl rfl⟩, ⟨_, rfl, rfl, rfl⟩,
    ⟨⟨1, 0, 2, 3, 0, 1⟩, rfl, takes_reads _ _ (by decide) rfl rfl, rfl⟩, ⟨⟨1, 2, 0, false, false⟩, rfl, takes_reads _ _ (by decide) rfl rfl⟩,
    ⟨⟨2, 0, 1, 0⟩, rfl, ⟨accIssues _, rfl, by decide⟩, accIssues _, rfl, by decide⟩,
    ⟨⟨1, 0, 0⟩, rfl, accIssues _, by decide +kernel, rfl, by decide +kernel, ?_, _, _, pair_eq (by decide +kernel), by decide, by decide, by decide,
      pair_eq (by decide +kernel)⟩, .acmrg ⟨1, 0, 0⟩, 1, rfl, rfl, rfl⟩
  · intro j h
    have : j = 0 ∨ j = 1 := by omega
    rcases this with rfl | rfl <;>
      exact ⟨by decide +kernel, by decide +kernel, by decide +kernel, by decide +kernel, fun _ => by decide +kernel⟩

theorem ranked_of (r : RankAcc) (h1 : r.list.length ≤ r.k) (h2 : (r.list.all fun p => !r.nan p.1) = true)
    (h3 : r.list.Pairwise fun p q => r.above q p = false) : Ranked r :=
  ⟨h1, fun p hp => by simpa using List.all_eq_true.1 h2 p hp, h3⟩

theorem witness_RankListKeepsTheBest :
    (Ranked (rank2 [(0x40A00000, 9), (0x40400000, 2)]) ∧ 0 < (rank2 []).k ∧ (rank2 [(0x40A00000, 9), (0x40400000, 2)]).canEnter (0x40800000, 1) = true ∧
      (rank2 [(0x40A00000, 9), (0x40400000, 2)]).canEnter (0x3F800000, 1) = false) ∧
    Ranked (rank2 [(0x40A00000, 9)]) ∧ (rank2 [(0x40A00000, 9)]).list.length < (rank2 []).k := by
  refine ⟨⟨ranked_of _ (by decide) (by decide +kernel) ?_, by decide, by decide +kernel, by decide +kernel⟩,
    ranked_of _ (by decide) (by decide +kernel) (List.pairwise_singleton _ _), by decide⟩
  refine List.Pairwise.cons (fun x hx => ?_) (List.pairwise_singleton _ _)
  obtain rfl := List.mem_singleton.1 hx
  decide +kernel
/-! ### Block transfers -/

/-- The descriptor of a load of one 4-byte element at `far`, with a bitmap at line 4, and its transfer in a state. -/
def xDwords (far : Nat) : List Nat :=
  [far + 2 * 2 ^ 56, 0, 0, 1 + 2 ^ 12 + 2 ^ 24 + 2 ^ 36, 1 + 2 ^ 12 + 2 ^ 24 + 2 ^ 36 + 4 * 2 ^ 48 + 2 ^ 62, 0, 0, 0]
def aTransfer (far : Nat) (st : XState) (committed : Nat) : Transfer :=
  { newTransfer 7 0 0 laneE (xdescOf (xDwords far)) with st := st, committed := committed }
def xS (far : Nat) (st : XState) (committed : Nat) (leaf : Nat := aLeaf) : State :=
  { withMem (mapping (on aT laneE) leaf) ((xDwords far).flatMap (leBytes 8)) with transfers := [aTransfer far st committed] }
/-- The descriptor's parts. -/
def descOf : XDesc := xdescOf (xDwords 256)
/-- The same transfer with its one chunk issued, its bytes perhaps copied, or complete. -/
def issuedX (st : XState) (sent : Option Nat) : Transfer :=
  { aTransfer 256 st 0 with spec := 1, next := 1, flight := [⟨0, sent⟩] }
def completeX (st : XState) : Transfer := { aTransfer 256 st 1 with spec := 1, next := 1, marked := [0] }
/-- A transfer of two chunks, the first complete and the second not issued. -/
def twoChunks : Transfer := { completeX .running with src := .desc { descOf with ext := [256, 1, 1, 1] } }
def xR (x : Transfer) : State := { xS 256 .running 0 with transfers := [x] }
theorem one_xR (x : Transfer) : OneTransfer (xR x) x.id x := by
  intro y hy _
  rw [xR, List.mem_singleton] at hy; exact hy
def descS : State := { xS 256 .queued 0 with transfers := [] }
theorem free_descS : IssuesFreely descS 0 0 laneE aT := ⟨⟨⟨rfl, rfl, by decide⟩, by decide⟩, by decide +kernel, by decide, by decide⟩
/-- What the state answers. -/
def doneState (r : XRes) (s : State) : State :=
  match r with
  | .done t => t
  | _ => s

def isDone (r : XRes) : Bool :=
  match r with
  | .done _ => true
  | _ => false
theorem done_of (r : XRes) (s : State) (h : isDone r = true) : r = .done (doneState r s) := by
  cases r with
  | done t => rfl
  | _ => cases h
def okIs {ε α : Type} [DecidableEq α] (x : Except ε α) (v : α) : Bool :=
  match x with
  | .ok a => decide (a = v)
  | .error _ => false
theorem ok_of {ε α : Type} [DecidableEq α] {x : Except ε α} {v : α} (h : okIs x v = true) : x = .ok v := by
  cases x with
  | ok a => rw [of_decide_eq_true h]
  | error e => cases h

theorem witness_Transfers :
    (∃ (w : UA) (s1 s2 : State), IssuesFreely descS 0 0 laneE aT ∧ aG.cbit w.c.toNat = true ∧ descS.spair (.gang 0 0) w.a.toNat = 0 ∧
      0 = aT.variant.prod ∧ aG.counters.bt < 63 ∧ (issued descS).readDwords 0 0 0 8 = (.ok (xDwords 256), s1) ∧ xdescBad (xDwords 256) = none ∧
      s1.fresh.2.checkTransfer (newTransfer s1.nextId 0 0 laneE (xdescOf (xDwords 256))) = (none, s2)) ∧
    (∃ g t, g ≠ t.variant.prod ∧ Issues (on t laneE) 0 g laneE t ∧ (t.gang g).cbit 0 = true) ∧
    ((xS 256 .queued 0).transfer 7 = some (aTransfer 256 .queued 0) ∧ (aTransfer 256 .queued 0).src = .desc descOf ∧
      slotsTaken (xS 256 .queued 0) 0 < 8 ∧ ∀ y ∈ (xS 256 .queued 0).transfers, y.cluster = 0 → y.st = .queued → 7 ≤ y.id) ∧
    ((xR twoChunks).transfer 7 = some twoChunks ∧ twoChunks.st = .running ∧ 0 < twoChunks.next ∧ (∀ f ∈ twoChunks.flight, f.chunk ≠ 0) ∧
      twoChunks.next < 2 ∧ 2 ≤ twoChunks.chunks ∧ twoChunks.flight.length + (2 - twoChunks.next) ≤ 16) ∧
    (∃ s1 s2 s3 y, (xR (issuedX .running none)).transfer 7 = some (issuedX .running none) ∧
      OneTransfer (xR (issuedX .running none)) 7 (issuedX .running none) ∧
      (issuedX .running none).flight.find? (fun f => f.chunk == 0) = some ⟨0, none⟩ ∧ 0 < (issuedX .running none).next ∧ (issuedX .running none).next ≤ (issuedX .running none).spec ∧
      (xR (issuedX .running none)).tryChunk (issuedX .running none) ⟨0, none⟩ = .done s1 ∧ s1.transfers = (xR (issuedX .running none)).transfers ∧
      y = copied (issuedX .running none) ⟨0, none⟩ s1.nextId ∧ s2 = withTransfer s1 7 y ∧
      s2.tryChunk y ⟨0, some s1.nextId⟩ = .done s3 ∧ s3.transfers = s2.transfers) ∧
    (∃ (s1 s2 : State) (y z : Transfer), (xR (completeX .running)).transfer 7 = some (completeX .running) ∧
      OneTransfer (xR (completeX .running)) 7 (completeX .running) ∧ (completeX .running).committed = (completeX .running).chunks ∧
      (completeX .running).next = (completeX .running).chunks ∧ (completeX .running).flight = [] ∧
      y = { completeX .running with st := .completing false (xR (completeX .running)).nextId } ∧ s1 = withTransfer (xR (completeX .running)) 7 y ∧
      s1.engineReleased y (xR (completeX .running)).nextId = true ∧ s1.tryCword y = .done s2 ∧ s2.transfers = s1.transfers ∧
      z = { completeX .running with st := .completing true s2.nextId } ∧ (withTransfer s2 7 z).engineReleased z s2.nextId = true) ∧
    ∃ l s1, descOf.store = false ∧ descOf.mc = [] ∧ descOf.bmen = true ∧ 0 < (issuedX .running none).next ∧ (issuedX .running none).next ≤ (issuedX .running none).spec ∧
      (xR (issuedX .running none)).farAwake (issuedX .running none) 0 = true ∧ (xR (issuedX .running none)).task 0 = some aT ∧
      descOf.near < 2 ^ 18 ∧ 16 * descOf.bmap + 4 * (0 / 32) + 4 ≤ aT.granules.length * 4096 ∧ aT.granules.length ≤ 64 ∧
      (xR (issuedX .running none)).loadPieces (issuedX .running none) ((issuedX .running none).pieces 0) = (.ok l, s1) ∧
      s1.engineReleased (issuedX .running none) s1.nextId = true ∧
      (∀ p ∈ l, p.2.length = p.1.n ∧ p.1.near + p.1.n ≤ aT.granules.length * 4096 ∧
        (p.1.near + p.1.n ≤ 16 * descOf.bmap + 4 * (0 / 32) ∨ 16 * descOf.bmap + 4 * (0 / 32) + 4 ≤ p.1.near)) ∧
      l.Pairwise (fun p q => p.1.near + p.1.n ≤ q.1.near ∨ q.1.near + q.1.n ≤ p.1.near) := by
  exact ⟨⟨⟨0, 0⟩, _, _, free_descS, by decide, by decide +kernel, by decide, by decide, pair_eq (by decide +kernel), by decide +kernel,
      pair_eq (by decide +kernel)⟩,
    ⟨0, { aT with variant := { wordVariant with prod := 1 } }, by decide, ⟨rfl, rfl, by decide⟩, by decide⟩,
    ⟨by decide +kernel, by decide +kernel, by decide +kernel, by decide +kernel⟩,
    ⟨by decide +kernel, rfl, by decide, by decide, by decide, by decide +kernel, by decide⟩,
    ⟨doneState ((xR (issuedX .running none)).tryChunk (issuedX .running none) ⟨0, none⟩) State.reset, _,
      doneState ((withTransfer (doneState ((xR (issuedX .running none)).tryChunk (issuedX .running none) ⟨0, none⟩) State.reset) 7
        (copied (issuedX .running none) ⟨0, none⟩ 0)).tryChunk (copied (issuedX .running none) ⟨0, none⟩ 0) ⟨0, some 0⟩) State.reset,
      copied (issuedX .running none) ⟨0, none⟩ 0, by decide +kernel, one_xR _, by decide +kernel, by decide, by decide, done_of _ _ (by decide +kernel),
      by decide +kernel, by decide +kernel, rfl, by
        have h : (doneState ((xR (issuedX .running none)).tryChunk (issuedX .running none) ⟨0, none⟩) State.reset).nextId = 0 := by decide +kernel
        rw [h]; exact done_of _ _ (by decide +kernel), by decide +kernel⟩,
    ⟨_, doneState ((withTransfer (xR (completeX .running)) 7 { completeX .running with st := .completing false 0 }).tryCword
        { completeX .running with st := .completing false 0 }) State.reset, _, _, by decide +kernel, one_xR _, by decide +kernel, by decide +kernel, rfl, rfl, rfl,
      by decide +kernel, done_of _ _ (by decide +kernel), by decide +kernel, rfl, by decide +kernel⟩,
    ⟨[(⟨0, 4, some 256, 255⟩, [(0, false), (0, false), (0, false), (0, false)])], _, by decide +kernel, by decide +kernel, by decide +kernel, by decide, by decide, by decide +kernel,
      by decide +kernel, by decide +kernel, by decide +kernel, by decide, pair_eq (ok_of (by decide +kernel)), by decide +kernel, by decide, by decide⟩⟩

def spiltS : State := { xS 256 .running 0 with tasks := [(0, some { aT with phase := .stopping })] }
/-- A bitmap of all bits 0 at offset 0, and s registers that ask for the bits from 511 on. -/
def testT (n : Word) : Task := withGang { aG with s := [(4, 0), (5, 511), (6, n)] }
def testS (n : Word) : State := on (testT n) laneE
theorem free_testS (n : Word) : IssuesFreely (testS n) 0 0 laneE (testT n) := ⟨⟨⟨rfl, rfl, by decide⟩, by decide⟩, by rfl, Nat.le_of_ble_eq_true rfl, by decide⟩

/-- The chunk issued, of a transfer whose far page is not mapped; and of one whose page may not be read. -/
def unmappedX : Transfer := { aTransfer 8192 .running 0 with spec := 1, next := 1, flight := [⟨0, none⟩] }
def unmappedS : State := { xS 8192 .running 0 with transfers := [unmappedX] }
def unreadableS : State := { xS 256 .running 0 (aLeaf - 4) with transfers := [issuedX .running none] }

theorem witness_TransferFaultsAndTests :
    (∃ f, (unmappedS).transfer 7 = some unmappedX ∧ unmappedS.nextFault unmappedX = some f ∧ f.kind = 3) ∧
    (∃ f, unreadableS.transfer 7 = some (issuedX .running none) ∧
      unreadableS.nextFault (issuedX .running none) = some f ∧ f.kind ≠ 3 ∧ unreadableS.task 0 = some aT ∧ aG.record.busy = false) ∧
    ((xS 256 .suspended 0).transfer 7 = some (aTransfer 256 .suspended 0) ∧ ¬ pending (xS 256 .suspended 0) 7 ∧
      (aTransfer 256 .suspended 0).src = .desc descOf ∧ (xS 256 .suspended 0).resident 0 = true ∧ slotsTaken (xS 256 .suspended 0) (hCluster 0) < 8 ∧ (xS 256 .suspended 0).task 0 = some aT) ∧
    (∃ k, spiltS.transfer 7 = some (aTransfer 256 .running 0) ∧ spiltS.task 0 = some k ∧ k.phase = .stopping) ∧
    (∃ w : UCab, ∀ n : Word, n = 0 ∨ n = 1 → IssuesFreely (testS n) 0 0 laneE (testT n) ∧ laneE.st = .ready ∧ ((testT n).gang 0).cbit w.c.toNat = true ∧
      0 = (((testT n).gang 0).sreg w.a.toNat).toNat ∧ 511 = (((testT n).gang 0).sreg (w.a.toNat + 1)).toNat ∧
      n.toNat = (((testT n).gang 0).sreg w.b.toNat).toNat ∧ 511 + n.toNat ≤ 512 ∧ OwnBytes (testT n) 0 64 4 ∧
      (decide (n = 0) = true ↔ ∀ i, i < n.toNat → (Memory.readNat (testT n).scratch (0 + 4 * ((511 + i) / 32)) 4).testBit ((511 + i) % 32) = true) ∧
      (testS n).loadsLanded (.gang 0 0) (testS n).nextId = true) := by
  refine ⟨⟨⟨3, 7169, 8192⟩, by decide +kernel, by decide +kernel, rfl⟩, ⟨⟨4, 2, 256⟩, by decide +kernel, by decide +kernel, by decide, by decide +kernel, rfl⟩,
    ⟨by decide +kernel, by unfold pending; decide +kernel, by decide +kernel, by decide +kernel, by decide +kernel, by decide +kernel⟩,
    ⟨{ aT with phase := .stopping }, by decide +kernel, rfl, rfl⟩, ⟨1, 4, 6, 0⟩, ?_⟩
  rintro n (rfl | rfl) <;>
    exact ⟨free_testS _, rfl, by decide +kernel, by decide +kernel, by decide +kernel, by decide +kernel, by decide +kernel,
      ⟨by decide, by decide, by decide, fun _ _ => rfl⟩, by decide +kernel, by decide +kernel⟩
/-! ### Launches and tasks -/

/-- A four-level table that maps page 0 of context 1 to frame 1, whose bytes are `bs`; segment 0 has landed. -/
def tableMem (bs : List Byte) : Memory :=
  Memory.writeBytes (Memory.writeBytes (Memory.writeBytes (Memory.writeBytes (Memory.writeBytes [] 4096 bs) 8192 (leBytes 8 (12288 + 3)))
    12288 (leBytes 8 (16384 + 3))) 16384 (leBytes 8 (20480 + 3))) 20480 (leBytes 8 aLeaf)
def rootContext : Context := { wordContext 3 with desc := { (wordContext 3).desc with roots := [(0, 8192)], spillLimit := 65520 } }
def walkS (t : Task) (bs : List Byte) : State :=
  { on t laneE with mem := tableMem bs, contexts := [(1, some rootContext)] }
/-- A list launch's packet with one item at 256, and a launch of it. -/
def listPacket : Packet := { wordPacket with kind := 1, work := 256 }
def aLaunch (p : LPhase) : Launch := { wordLaunch 3 with packet := listPacket, phase := p, variant := none, nread := 0, committed := 0, created := 0 }
/-- A kernel object of one variant and one segment. -/
def kernelBytes : List Byte :=
  leBytes 2 1 ++ leBytes 2 0x103 ++ leBytes 4 1 ++ leBytes 8 192 ++ leBytes 48 0 ++
  (leBytes 32 0 ++ leBytes 2 32 ++ leBytes 2 (248 + 256) ++ leBytes 2 80 ++ leBytes 2 (256 + 0) ++ leBytes 56 0) ++ leBytes 32 0 ++ leBytes 8 0 ++ leBytes 8 8192
def launchS (l : Launch) (bs : List Byte) : State := { walkS aT bs with launches := [(0, some l)] }
def packetBytes : List Byte := leBytes 128 1
def aItem : Ident := wordTask.ident
def zeroItem : Ident := { aItem with tile := [0, 0, 0, 0] }
def aWindow : MergeWindow := { ctx := 1, kobj := 0, sh := [], lpri := 0, steal := 0, children := [0] }
def aTensor : Tensor := { ndim := 1, fmt := 0, order := 0, cover := 0, ext := [1, 1, 1, 1], tile := [1, 1, 1, 1], nplace := 1, place := 288 }
def aRecord (flags : Nat) : Placement := { first := 0, count := 1, base := 0, stride := 0, home := 0, flags := flags, gen := 0, rmask := 0, bad := false }
def placedLaunch (recs : List Placement) : Launch :=
  { aLaunch .walking with packet := { listPacket with kind := 0 }, tensor := some aTensor, variant := some wordVariant, recs := recs }

/-- That launch once its object has been read. -/
def acceptedVariant : Variant :=
  { bkt := [(0, 0), (0, 0), (0, 0), (0, 0)], threads := 32, depth := 248, gran := 1, spill := 80, nq := 0, nbar := 1, prod := 0, fmask := 0,
    entry := 0, fmap := 0, fstage := [0, 0, 0, 0, 0, 0], fbmap := [0, 0, 0, 0, 0, 0] }
def acceptedLaunch : Launch := { aLaunch .accept with map := 3, nseg := 1, segtab := 192, variant := some acceptedVariant }
/-- A join slot held, and a context whose join slots are all held. -/
def aJoin (status : Option Word) : JoinSlot := { seq := 5, launch := 0, joined := false, issuerEnded := false, status := status }
def joinContext (status : Option Word) : Context := { rootContext with joins := [(3, some (aJoin status))] }
def allJoins : AList (Option JoinSlot) := (List.range 4096).map fun i => (i, some (aJoin none))
def fullContext : Context := { rootContext with joins := allJoins }
theorem get_all (l : List Nat) (j : JoinSlot) (i : Nat) (h : i ∈ l) : AList.get none (l.map fun i => (i, some j)) i = some j := by
  induction l with
  | nil => cases h
  | cons a t ih =>
    simp only [List.map_cons, AList.get]
    by_cases e : a = i
    · subst e; simp
    · have : i ∈ t := by
        cases h with
        | head => exact absurd rfl e
        | tail _ h => exact h
      simp [ih this]
theorem full_free (tick : Nat) : fullContext.freeJoin tick = none := by
  have h : (List.range 4096).filter (fun i => AList.get none fullContext.joins i == none) = [] := by
    rw [List.filter_eq_nil_iff]
    intro i hi
    dsimp only [fullContext]
    rw [allJoins, get_all _ _ _ hi]
    decide
  unfold Context.freeJoin
  rw [h]; rfl
theorem empty_free (tick : Nat) : (rootContext.freeJoin tick).isSome = true := by
  have h : 0 < ((List.range 4096).filter fun i => AList.get none rootContext.joins i == none).length := by decide +kernel
  unfold Context.freeJoin
  simp only [List.getElem?_eq_getElem (Nat.mod_lt (Config.joinSlot tick) h), Option.isSome_some]
/-- A task whose s6 holds the token of that join slot. -/
def tokenT (v : Word) : Task := withGang { aG with s := [(6, v)] }
def joinS (status : Option Word) (v : Word) : State := { on (tokenT v) laneE with contexts := [(1, some (joinContext status))] }
theorem issues_joinS (status : Option Word) (v : Word) : Issues (joinS status v) 0 0 laneE (tokenT v) := ⟨rfl, rfl, by decide⟩
def launchWordS (c : Context) : State := { withMem (mapping (on aT laneE)) packetBytes with contexts := [(1, some c)] }
theorem free_launchWordS (c : Context) : IssuesFreely (launchWordS c) 0 0 laneE aT := ⟨⟨⟨rfl, rfl, by decide⟩, by decide⟩, by rfl, by decide, by decide⟩

theorem context_launchWordS (c : Context) : ((issued (launchWordS c)).readDwords 0 0 0 16).2.context 1 = some c := by
  rw [State.caches_readDwords (issued (launchWordS c)) 0 0 0 16]; rfl

theorem witness_LaunchAndJoin :
    (∃ w : UDA, aG.cbit w.c.toNat = true ∧ (∀ c, c = rootContext ∨ c = fullContext ∨ c = { rootContext with torn := true } → ∃ s1 ds, IssuesFreely (launchWordS c) 0 0 laneE aT ∧
        (launchWordS c).spair (.gang 0 0) w.a.toNat = 0 ∧ laneE.st = .ready ∧ (launchWordS c).releaseDone (.gang 0 0) 5 (launchWordS c).nextId = true ∧
        (issued (launchWordS c)).readDwords 0 0 0 16 = (.ok ds, s1) ∧ s1.context aT.ctx = some c) ∧
      (rootContext.freeJoin 0).isSome = true ∧ fullContext.freeJoin 0 = none ∧ rootContext.torn = false ∧ fullContext.torn = false) ∧
    ∃ w : UDA, (∀ v, ((tokenT v).gang 0).cbit w.c.toNat = true ∧ v = ((tokenT v).gang 0).sreg w.a.toNat) ∧
      (Issues (joinS none 7) 0 0 laneE (tokenT 7) ∧ (joinS none 7).joinOf 1 7 = none) ∧
      (Issues (joinS none 0x5003) 0 0 laneE (tokenT 0x5003) ∧ (joinS none 0x5003).joinOf 1 0x5003 = some (aJoin none)) ∧
      Issues (joinS (some 1) 0x5003) 0 0 laneE (tokenT 0x5003) ∧ (joinS (some 1) 0x5003).joinOf 1 0x5003 = some (aJoin (some 1)) ∧
      (joinS (some 1) 0x5003).loadsLanded (.gang 0 0) (joinS (some 1) 0x5003).nextId = true := by
  refine ⟨⟨⟨31, 0, 0⟩, by decide, ?_, empty_free 0, full_free 0, rfl, rfl⟩, ⟨31, 6, 0⟩, fun v => ⟨rfl, rfl⟩, ⟨issues_joinS _ _, by decide +kernel⟩,
    ⟨issues_joinS _ _, by decide +kernel⟩, issues_joinS _ _, by decide +kernel, by decide +kernel⟩
  rintro c (rfl | rfl | rfl) <;>
    exact ⟨((issued (launchWordS _)).readDwords 0 0 0 16).2, [1, 0, 0, 0, 0, 0, 0, 0, 0, 0, 0, 0, 0, 0, 0, 0], free_launchWordS _, by decide +kernel,
      rfl, by decide +kernel, pair_eq (by decide +kernel), context_launchWordS _⟩

/-- A launch whose tasks have ended while a write is on its way home. -/
def writing : State :=
  { launchS (aLaunch .done) [] with
      writes := [{ id := 0, owner := .gang 0 0, core := 0, die := 0, ctx := 1, pc := 0, tagged := false, umask := none, counted := true,
                   ordered := none, through := false, acked := false, lanes := [] }] }

theorem witness_LaunchUnits :
    ((({ launchS (aLaunch .merging) [] with dies := [(0, { Die.reset with mergeWindows := [aWindow] })] } : State).die 0).mergeWindows = [aWindow] ∧
      0 ∈ aWindow.children ∧ (launchS (aLaunch .merging) []).launch 0 = some (aLaunch .merging)) ∧
    ((launchS (aLaunch .accept) []).accepting = true ∧ (launchS (aLaunch .accept) []).lehr.level ≠ 4 ∧ (aLaunch .accept).variant = none ∧
      { listPacket with version := 2 }.lost = [] ∧ { listPacket with version := 2 }.bad false = true ∧ (aLaunch .accept).packet.bad false = false) ∧
    (∃ s1 s2 f, (launchS (aLaunch .accept) []).acceptObject (aLaunch .accept) = (some f, s1) ∧ s1.acceptWork f = (.refuse 2, s2)) ∧
    (∃ s1 s2 f l2, (launchS (aLaunch .accept) kernelBytes).acceptObject (aLaunch .accept) = (some f, s1) ∧ s1.acceptWork f = (.ok l2, s2) ∧
      (s2.launch 0).isSome = true) ∧
    (∀ p : LPhase, p = .suspended ∨ p = .acceptSuspended → (launchS (aLaunch p) []).launch 0 = some (aLaunch p) ∧
      (launchS (aLaunch p) []).walkerPosted 0 = false) ∧
    (∃ s1 bs it, (launchS (aLaunch .walking) []).launch 0 = some (aLaunch .walking) ∧ ((aLaunch .walking).recs.any fun r => r.bad) = false ∧
      (aLaunch .walking).nread < listPacket.nitems ∧
      (launchS (aLaunch .walking) []).unitBytes none 0 1 256 32 = (.ok bs, s1) ∧ itemOf (aLaunch .walking) 0 bs = some it ∧
      s1.launch 0 = some (aLaunch .walking)) ∧
    (∃ s1 bs, (launchS (placedLaunch []) (leBytes 292 0 ++ leBytes 28 1)).homeBytesVa 1 288 32 = (.ok bs, s1) ∧ s1.launch 0 = some (placedLaunch []) ∧
      (placementOf bs).gen % 2 = 0 ∧ (placementOf bs).bad = false ∧ (placedLaunch []).outOfOrder (placementOf bs) = false ∧ 0 < aTensor.nplace ∧
      (placedLaunch []).nread ≤ (placedLaunch []).commitRec + 16) ∧
    ((launchS { aLaunch .walking with items := [aItem] } []).launch 0 = some { aLaunch .walking with items := [aItem] } ∧ listPacket.lpri < 8 ∧
      ((launchS { aLaunch .walking with items := [aItem] } []).die (ownerDie aItem.home)).depth < 65536) ∧
    (∀ f, f = 0 ∨ f = 4 → (placedLaunch [aRecord f]).goodRecs.find? (fun r => decide (r.first ≤ 0) && decide (0 < r.first + r.count)) = some (aRecord f)) ∧
    ((launchS (aLaunch .done) []).launch 0 = some (aLaunch .done) ∧ (aLaunch .done).created = (aLaunch .done).ended ∧ (aLaunch .done).packet.crec = 0 ∧
      (aLaunch .done).token = none ∧ (launchS (aLaunch .done) []).allHome (launchS (aLaunch .done) []).nextId = true ∧ ¬ writing.allHome 1 = true ∧
      writing.launch 0 = some (aLaunch .done)) ∧
    (∃ s1 pa leaf, (launchS { aLaunch .done with packet := { listPacket with crec := 320 } } []).allHome 0 = true ∧
      ((launchS { aLaunch .done with packet := { listPacket with crec := 320 } } []).modLaunch 0 fun x => { x with release := some 0 }).discardAll.checkWalk 1 320 32 .write = (.ok pa leaf, s1) ∧
      s1.awake pa = true ∧ s1.guarded pa 32 = none ∧ ∀ k, k < 32 → s1.aliasAt (pa + k) = none) ∧
    (launchS (aLaunch .done) []).asleepTable 1 = none ∧ (aLaunch .done).ctx = 1 ∧
    AList.get none (joinContext none).joins ((0x5003 : Word).toNat % 4096) = some (aJoin none) ∧
      (aJoin none).seq = (0x5003 : Word).toNat / 4096 ∧ (aJoin none).issuerEnded = false ∧ (aJoin none).joined = false := by
  refine ⟨⟨rfl, by decide, rfl⟩, ⟨by decide, by decide, rfl, rfl, by decide, by decide⟩,
    ⟨_, _, ⟨aLaunch .accept, [2], variantWords⟩, pair_eq (by decide +kernel), pair_eq (by decide +kernel)⟩, ?_, ?_,
    ⟨_, List.replicate 32 0, zeroItem, rfl, rfl, by decide, pair_eq (by decide +kernel), by decide +kernel, by decide +kernel⟩,
    ⟨_, leBytes 4 0 ++ leBytes 28 1, pair_eq (by decide +kernel), by decide +kernel, by decide +kernel, by decide +kernel, by decide +kernel, by decide, by decide⟩,
    ⟨rfl, by decide, by decide +kernel⟩, by rintro f (rfl | rfl) <;> decide, ⟨rfl, rfl, rfl, rfl, by decide +kernel, by decide +kernel, rfl⟩,
    ⟨_, 4416, aLeaf, by decide +kernel, pair_eq (by decide +kernel), by decide +kernel, by decide +kernel, by decide +kernel⟩, by decide +kernel, rfl, by decide, by decide, rfl, rfl⟩
  · exact ⟨_, _, ⟨acceptedLaunch, [], []⟩, acceptedLaunch, pair_eq (by decide +kernel), pair_eq (by decide +kernel), by decide +kernel⟩
  · rintro p (rfl | rfl) <;> exact ⟨rfl, by decide +kernel⟩
/-- A die whose queue holds one task, or a span of two. -/
def queueS (q : QTask) (items : List Ident) : State :=
  { State.reset with launches := [(0, some { wordLaunch 3 with items := items })], dies := [(0, { Die.reset with homeQ := [(0, [q])] })] }
def aQueued (span : Option Nat) : QTask := ⟨0, 0, { aItem with spanidx := span }⟩
def spanItems : List Ident := [{ aItem with spanidx := some 0 }, { aItem with spanidx := some 1 }]
/-- A task that is placed and has not started, its entry segment landed. -/
def startingT : Task := { wordTask with phase := .starting, started := false }
def startS : State := mapping (landedOn startingT laneE)
/-- A segment of one word at address 0 that core 0 fetches into slot 1. -/
def aFetch : Fetch :=
  { id := 7, matrix := false, unit := 0, slot := some 1, ctx := 1, kobj := 0, seg := 2, addr := 0, len := 4, who := [.cfetch 0], suspended := false }
def fetchS : State := { mapping (on aT laneE) with fetches := [aFetch] }
/-- A task whose s4 names a segment; the SEGTAB entry of segment 0 names one word at address 0. -/
def segT (n : Word) : Task := withGang { aG with s := [(4, n)] }
def segS (n : Word) (landed : Bool) : State :=
  withMem (mapping (if landed then landedOn (segT n) laneE else on (segT n) laneE)) (leBytes 8 0 ++ leBytes 8 4)
theorem free_segS (n : Word) (l : Bool) : IssuesFreely (segS n l) 0 0 laneE (segT n) := by
  cases l <;> exact ⟨⟨⟨rfl, rfl, by decide⟩, by decide⟩, by rfl, Nat.le_of_ble_eq_true rfl, by decide⟩

theorem witness_TasksAndSegments :
    ((queueS (aQueued none) []).die 0).online = true ∧ (queueS (aQueued none) []).dieAwake 0 = true ∧ ((queueS (aQueued none) []).die 0).headTask = some (aQueued none) ∧ (aQueued none).isSpan = false ∧
      (queueS (aQueued none) []).queuedLaunch (aQueued none) = some (wordLaunch 3, wordVariant) ∧ (∃ c, (queueS (aQueued none) []).takes 0 (aQueued none) = some c) ∧
    ((queueS (aQueued (some 0)) spanItems).dieAwake 0 = true ∧ ((queueS (aQueued (some 0)) spanItems).die 0).headTask = some (aQueued (some 0)) ∧ (aQueued (some 0)).isSpan = true ∧ ∃ l v,
      (queueS (aQueued (some 0)) spanItems).queuedLaunch (aQueued (some 0)) = some (l, v) ∧ ⟨0, 0, 2, 1⟩ ∈ rectangles l.items.length ∧
      ∀ j, j < 2 * 1 → ((queueS (aQueued (some 0)) spanItems).die 0).keeps (Rect.core ⟨0, 0, 2, 1⟩ 0 j) (aQueued (some 0)) = false ∧
        (queueS (aQueued (some 0)) spanItems).takesMany (Rect.core ⟨0, 0, 2, 1⟩ 0 j) 0 l v (aQueued (some 0)).ident ((l.items.length + 2 * 1 - 1) / (2 * 1)) = true) ∧
    (∃ s1 bs, startS.task 0 = some startingT ∧ startingT.fate = .alive ∧ startingT.started = false ∧ (startingT.gang 0).record.busy = false ∧
      (startingT.gang 0).held = [] ∧
      (∀ seg ∈ startingT.needs, startS.landed 0 seg = true) ∧
      (startS.discard 0 0 5).unitBytes (some 0) 0 1 startingT.ident.args 48 = (.ok bs, s1)) ∧
    (∃ s1 bs, fetchS.fetches.find? (fun f => f.id == 7 && !f.suspended) = some aFetch ∧ fetchS.unitBytes (some 0) 0 1 0 4 = (.ok bs, s1) ∧
      bs.length = aFetch.len) ∧
    ∃ w : UA, (∀ n, ((segT n).gang 0).cbit w.c.toNat = true ∧ n = ((segT n).gang 0).sreg w.a.toNat) ∧
      (IssuesFreely (segS 1 false) 0 0 laneE (segT 1) ∧ (segS 1 false).inObject 0 1 = false) ∧
      (IssuesFreely (segS 0 true) 0 0 laneE (segT 0) ∧ (segS 0 true).inObject 0 0 = true ∧ (segS 0 true).landed 0 0 = true) ∧
      IssuesFreely (segS 0 false) 0 0 laneE (segT 0) ∧ (segS 0 false).inObject 0 0 = true ∧ (segS 0 false).landed 0 0 = false ∧
      (segS 0 false).launch 0 = some (wordLaunch 3) ∧
      ∃ s1 s2, (issued (segS 0 false)).readDwords 0 0 ((wordLaunch 3).segEntryVa 0) 2 = (.ok [0, 4], s1) ∧ (segEntryOf [0, 4]).bad = false ∧
        s1.checkCode 0 1 0 4 = (none, s2) ∧ s2.fetches = [] ∧ s2.slotFor 0 1 0 0 = none := by
  refine ⟨by decide +kernel, by decide +kernel, by decide +kernel, by decide, by decide +kernel, ?_, ⟨by decide +kernel, by decide +kernel, by decide, _, _, rfl, by decide +kernel, ?_⟩,
    ⟨_, List.replicate 48 0, by decide +kernel, rfl, rfl, by decide +kernel, by decide +kernel, by decide +kernel, pair_eq (by decide +kernel)⟩,
    ⟨_, List.replicate 4 0, by decide +kernel, pair_eq (by decide +kernel), rfl⟩, ⟨4, 0⟩, fun n => ⟨rfl, rfl⟩, ⟨free_segS _ _, by decide +kernel⟩,
    ⟨free_segS _ _, by decide +kernel, by decide +kernel⟩, free_segS _ _, by decide +kernel, by decide +kernel, by decide +kernel, _, _,
    pair_eq (by decide +kernel), by decide +kernel, pair_eq (by decide +kernel), by decide +kernel, by decide +kernel⟩
  · have h : ((queueS (aQueued none) []).takes 0 (aQueued none)).isSome = true := by
      unfold State.takes
      rw [show (queueS (aQueued none) []).queuedLaunch (aQueued none) = some (wordLaunch 3, wordVariant) by decide +kernel]
      dsimp only
      rw [show ((queueS (aQueued none) []).die 0).reservedFor (aQueued none) = none by decide +kernel]
      dsimp only
      rw [List.find?_isSome]
      refine ⟨0, ?_, by decide +kernel⟩
      unfold State.offerOrder
      rw [List.mem_mergeSort]; decide +kernel
    exact Option.isSome_iff_exists.1 h
  · decide +kernel
/-! ### Faults, ends, system calls -/

/-- A record that holds a fault of this kind, and a task whose lanes wait for its disposal. -/
def aRecordOf (kind : Nat) (flags : BitVec 8) : Record := { Record.empty with kind := kind, flags := flags, mask := 1 }
def faultT (kind : Nat) (flags : BitVec 8) (p : Park) : Task :=
  withGang { aG with record := aRecordOf kind flags, frontier := [{ laneE with st := .parked p }] }
def faultContext (mask : Word) : Context := { rootContext with desc := { rootContext.desc with handlerMask := mask, logBase := 4096, logLen := 2 } }
def faultS (kind : Nat) (flags : BitVec 8) (p : Park) (mask : Word) : State :=
  { on (faultT kind flags p) laneE with dies := [(0, { Die.reset with events := [.fault 0 0] })], contexts := [(1, some (faultContext mask))] }
def aFault : FaultInfo := .lane 15 0 1 5 0

/-- Lanes past the end of a full segment, with a fault of their gang in the record. -/
def pastT : Task := withGang { aG with record := aRecordOf 15 1, frontier := [{ laneE with st := .parked .pastEnd }] }
theorem none_past (s : State) (h1 : ∀ e ∈ (s.gang 0 0).frontier, e.st ≠ .parked .pastEnd)
    (h2 : ∀ x ∈ s.gangStreams 0 0, x.st ≠ .parked .pastEnd) : NonePastEnd s 0 0 := ⟨h1, h2⟩

theorem witness_RaisingAFault :
    (lS.task 0 = some aT ∧ laneE.mask ≠ 0 ∧ aG.record.busy = false ∧ lS.launch aT.launch = some (wordLaunch 3)) ∧
    ((on (faultT 15 1 .fault) laneE).task 0 = some (faultT 15 1 .fault) ∧ ((faultT 15 1 .fault).gang 0).record.busy = true ∧
      ((faultT 15 1 .fault).gang 0).held = []) ∧
    (withGang { aG with held := [aRecordOf 4 1] }).gang 0 = { aG with held := [aRecordOf 4 1] } ∧ NonePastEnd lS 0 0 ∧
    (pastT.gang 0).held = [] ∧ (pastT.gang 0).frontier.find? (fun e => e.st == .parked .pastEnd) = some { laneE with st := .parked .pastEnd } :=
  ⟨⟨rfl, by decide, rfl, rfl⟩, ⟨rfl, rfl, rfl⟩, rfl, none_past _ (by decide) (by decide), rfl, by decide⟩

/-- A record that only an end resolves. -/
def endOnlyT (kind : Nat) (detail : Word) : Task :=
  withGang { aG with record := { aRecordOf kind 9 with detail := detail }, frontier := [{ laneE with st := .parked .fault }] }
/-- A task whose argument read failed. -/
def unstartedT : Task := { faultT 4 1 .fault with phase := .starting, started := false }
/-- A suspended fetch, and a launch whose completion record waits for a page. -/
def suspendedS : State := { on aT laneE with fetches := [{ aFetch with suspended := true }] }
def crecLaunch : Launch := { aLaunch .complete with packet := { listPacket with crec := 320 }, crecWait := true }
def crecS : State := launchS crecLaunch []

theorem witness_FaultHandling :
    (∀ k p, (k = 3 ∧ p = .page) ∨ (k = 15 ∧ p = .fault) → ((faultS k 1 p 0).die 0).events = [.fault 0 0] ∧ (faultS k 1 p 0).hand.st ≠ .adopting ∧
      (faultS k 1 p 0).task 0 = some (faultT k 1 p) ∧ (faultT k 1 p).fate = .alive ∧ ((faultT k 1 p).gang 0).record.busy = true ∧
      (faultS k 1 p 0).pageParked 0 0 = decide (k = 3)) ∧
    ((faultT 15 1 .fault).started = true ∧ (faultS 7 1 .fault 0x80).handlerTakes 1 7 = true ∧
      (faultS 15 1 .fault 0x8000).task 0 = some (faultT 15 1 .fault) ∧
      { faultS 4 1 .fault 0x10 with tasks := [(0, some unstartedT)] }.task 0 = some unstartedT ∧ unstartedT.started = false ∧
      unstartedT.fate = .alive ∧ (unstartedT.gang 0).record.kind = 4 ∧ (unstartedT.gang 0).record.busy = true) ∧
    (faultS 15 1 .fault 0x8000).handlerTakes 1 15 = true ∧ (faultS 15 1 .fault 0).handlerTakes 1 15 = false ∧
    ((faultS 15 1 .fault 0).context 1 = some (faultContext 0) ∧ (faultContext 0).desc.logLen ≠ 0 ∧
      ∀ k, k < 64 →
        (faultS 15 1 .fault 0).aliasAt ((faultContext 0).desc.logBase + (faultContext 0).fidx.toNat % (faultContext 0).desc.logLen * 64 + k) = none) ∧
    (∀ k d, (k = 1 ∧ d = 10) ∨ (k = 7 ∧ d = 3) → Handled (on (endOnlyT k d) laneE) 0 0 (endOnlyT k d) ∧ ((endOnlyT k d).gang 0).record.kind = k ∧
      ((endOnlyT k d).gang 0).record.detail = d) ∧
    (Handled (on { faultT 15 9 .fault with phase := .saved } laneE) 0 0 { faultT 15 9 .fault with phase := .saved }) ∧
    (Handled (on (faultT 15 9 .fault) laneE) 0 0 (faultT 15 9 .fault) ∧ (faultT 15 9 .fault).phase ≠ .saved ∧
      ((faultT 15 9 .fault).gang 0).record.final = false ∧
      NonePastEnd (on (faultT 15 9 .fault) laneE) 0 0 ∧
      (∀ x ∈ entries (on (faultT 15 9 .fault) laneE) 0 0, x.st = .parked .fault → x.pc.toNat % 8192 ≠ 0x1FFC) ∧
      (∀ x ∈ (on (faultT 15 9 .fault) laneE).gangStreams 0 0, x.st = .parked .fault → x.pc.toNat % 8192 ≠ 0x1FFC) ∧
      ((faultT 15 9 .fault).gang 0).held = [] ∧ { laneE with st := .parked .fault } ∈ entries (on (faultT 15 9 .fault) laneE) 0 0) ∧
    (PageHeld (on (faultT 3 1 .page) laneE) 0 0 (faultT 3 1 .page) ∧ ((faultT 3 1 .page).gang 0).held = [] ∧
      NonePastEnd (on (faultT 3 1 .page) laneE) 0 0 ∧ { laneE with st := .parked .page } ∈ entries (on (faultT 3 1 .page) laneE) 0 0) ∧
    (suspendedS.fetches.find? (fun x => x.id == 7 && x.suspended) = some { aFetch with suspended := true } ∧ suspendedS.fetchPosted 7 = false) ∧
    crecS.launch 0 = some crecLaunch ∧ crecLaunch.crecWait = true ∧ crecLaunch.phase = .complete ∧ crecS.posted (.crec 0) = false ∧ crecS.asleepTable crecLaunch.ctx = none ∧
      ∃ s1 pa leaf, crecS.checkWalk 1 320 32 .write = (.ok pa leaf, s1) ∧ s1.awake pa = true ∧ s1.guarded pa 32 = none ∧ ∀ k, k < 32 → s1.aliasAt (pa + k) = none := by
  refine ⟨?_, ⟨rfl, by decide, rfl, rfl, rfl, rfl, rfl, rfl⟩, by decide, by decide, ⟨rfl, by decide, by decide +kernel⟩, ?_, ⟨rfl, rfl, rfl, by decide⟩,
    ⟨⟨rfl, rfl, rfl, by decide⟩, by decide, rfl, none_past _ (by decide) (by decide), by decide, by decide, rfl, List.mem_singleton.2 rfl⟩,
    ⟨⟨rfl, rfl, rfl, rfl, by decide +kernel, by decide +kernel⟩, rfl, none_past _ (by decide) (by decide), List.mem_singleton.2 rfl⟩, ⟨by decide +kernel, by decide +kernel⟩, rfl, rfl, rfl, by decide +kernel, by decide +kernel,
    _, 4416, aLeaf, pair_eq (by decide +kernel), by decide +kernel, by decide +kernel, by decide +kernel⟩
  · rintro k p (⟨rfl, rfl⟩ | ⟨rfl, rfl⟩) <;> exact ⟨rfl, by decide, rfl, rfl, rfl, by decide +kernel⟩
  · rintro k d (⟨rfl, rfl⟩ | ⟨rfl, rfl⟩) <;> exact ⟨⟨rfl, rfl, rfl, by decide⟩, rfl, rfl⟩

def stuckT (st : EState) : Task := withGang { aG with frontier := [{ laneE with st := st }] }
def exitedT (f : Fate) (d : List Denial) : Task := { withGang { aG with frontier := [{ aE with st := .exited }], denials := d } with fate := f }
def streamS : State := { onStream aX sE with tasks := [(0, some (stuckT .ready))] }
def returnE : Entry := { laneE with st := .stall (.returned 0) }

theorem witness_EndsAndSystemCalls :
    (∀ st n, (st, n) ∈ [(EState.ready, 5), (.emptyReg [(0, 1)], 1), (.rcb, 2), (.barrier 0, 2), (.queue [0] [], 3), (.monitor true, 4)] →
      (on (stuckT st) laneE).task 0 = some (stuckT st) ∧ (stuckT st).timed = true ∧
      ((stuckT st).gang 0).frontier.find? (fun x => x.mask.getLsbD 0) = some { laneE with st := st } ∧ ((stuckT st).gang 0).record.busy = false) ∧
    (streamS.stream 0 0 = some aX ∧ aX.started = true ∧ aX.st = .ready ∧ streamS.task aX.h = some (stuckT .ready) ∧
      (stuckT .ready).timed = true ∧ (stuckT .ready).finished = false ∧ (streamS.gang aX.h aX.g).record.busy = false) ∧
    (lS.task 0 = some aT ∧ aT.fate = .alive ∧ 0 < aT.gangCount) ∧
    (∃ w : UI, Issues lS 0 0 laneE aT ∧ aG.cbit w.c.toNat = true ∧ laneE.st = .ready ∧ lS.releaseDone (.gang 0 0) 5 lS.nextId = true) ∧
    (Issues (on aT returnE) 0 0 returnE aT ∧ returnE.st = .stall (.returned 0) ∧ (on aT returnE).loadsLanded (.gang 0 0) 0 = true ∧
      (aT.gang 0).denials = []) ∧
    ((on (stuckT (.stall (.syscall 5))) laneE).task 0 = some (stuckT (.stall (.syscall 5))) ∧
      ((stuckT (.stall (.syscall 5))).gang 0).frontier.find? (fun x => x.mask.getLsbD 0) = some { laneE with st := .stall (.syscall 5) } ∧
      (on (stuckT (.stall (.syscall 5))) laneE).dies = []) ∧
    (∀ f, f = .fault ∨ f = .alive → (on (exitedT f []) laneE).task 0 = some (exitedT f []) ∧ (on (exitedT f []) laneE).launch 0 = some (wordLaunch 3) ∧
      (exitedT f []).finished = true ∧ (exitedT f []).allExited = true ∧ (on (exitedT f []) laneE).transfers = [] ∧
      (∀ g, g < (exitedT f []).gangCount → ((exitedT f []).gang g).denials = [] ∧ ((exitedT f []).gang g).record.busy = false) ∧ (on (exitedT f []) laneE).quiet 0 = true ∧ (on (exitedT f []) laneE).noStreams 0 = true ∧
      (on (exitedT f []) laneE).pinsAwake (exitedT f []) = true ∧
      (exitedT f []).ident.spanidx = none ∧ (exitedT f []).gangCount = 1 ∧ ((exitedT f []).gang 0).denials = []) ∧
    (exitedT .alive [aDenial]).finished = true ∧ (exitedT .alive [aDenial]).allExited = true ∧ ((exitedT .alive [aDenial]).gang 0).record.busy = false ∧ (on (exitedT .alive [aDenial]) laneE).quiet 0 = true ∧ (on (exitedT .alive [aDenial]) laneE).pinsAwake (exitedT .alive [aDenial]) = true ∧ ((exitedT .alive [aDenial]).gang 0).denials = [aDenial] := by
  refine ⟨?_, ⟨by decide +kernel, rfl, rfl, rfl, by decide, by decide, rfl⟩, ⟨rfl, rfl, by decide⟩, ⟨⟨5, 0, 9, 0⟩, free_lS.toIssues, by decide, rfl, by decide +kernel⟩,
    ⟨⟨rfl, rfl, by decide⟩, rfl, by decide +kernel, rfl⟩, ⟨rfl, by decide, rfl⟩, ?_, by decide, by decide, rfl, by decide +kernel, by decide +kernel, rfl⟩
  · intro st n h
    simp only [List.mem_cons, Prod.mk.injEq, List.not_mem_nil, or_false] at h
    rcases h with ⟨rfl, -⟩ | ⟨rfl, -⟩ | ⟨rfl, -⟩ | ⟨rfl, -⟩ | ⟨rfl, -⟩ | ⟨rfl, -⟩ <;> exact ⟨rfl, rfl, by decide, rfl⟩
  · rintro f (rfl | rfl) <;> exact ⟨rfl, rfl, by decide, by decide, rfl, by decide, by decide +kernel, by decide +kernel, by decide +kernel, rfl, by decide, rfl⟩
/-! ### Bank commands and matrix streams -/

/-- The descriptor of a BKOP of FP32 on two elements, or a malformed one; and the command. -/
def bkDwords (version : Nat) : List Nat := [version, 2, 256, 264, 272, 0, 0]
def bankS (version : Nat) : State := withMem (mapping lS) ((bkDwords version).flatMap (leBytes 8))
theorem free_bankS (v : Nat) : IssuesFreely (bankS v) 0 0 laneE aT := ⟨⟨⟨rfl, rfl, by decide⟩, by decide⟩, by rfl, by decide, by decide⟩
/-- The small state with s4:s5 a misaligned pair. -/
def oddT : Task := withGang { aG with s := [(4, 32)] }
def oddS : State := on oddT laneE
def aCmd (kind : BankKind) (res : Nat) (fin : Option Finish := none) : BankCmd :=
  { id := 7, owner := .gang 0 0, ctx := 1, kind := kind, dfmt := 0, sfmtA := if kind = .op 0 then 0 else 9, sfmtB := 0, frac := 0, rmode := 0, sat := false,
    scope := 5, group := 0, count := 2, alpha := 0, dst := 4352, srcA := 4368, srcB := 4400, hasB := decide (kind = .op 0), cword := none, cval := 0, res := res, fin := fin }
def cmdS (c : BankCmd) : State := { walkS aT [] with bankCmds := [c] }
/-- The same with a write of the gang on its way. -/
def busyS (c : BankCmd) : State := { cmdS c with writes := writing.writes, nextId := 1 }
theorem plain_cmdS (c : BankCmd) (a n : Nat) : PlainRange (cmdS c) a n := by
  constructor
  · intro j _; unfold State.aliasAt; split <;> rfl
  · intro b m _ _; unfold State.guarded; rw [List.findSome?_eq_none_iff]; intro j _; rfl

theorem witness_Banks :
    (∃ i w, bankWordOf (oddT.gang 0) i = some (0, w, .op 0) ∧ IssuesFreely oddS 0 0 laneE oddT ∧ (oddT.gang 0).cbit 0 = true ∧ (oddT.gang 0).counters.bk < 63 ∧
      oddS.spair (.gang 0 0) w.toNat % 64 ≠ 0) ∧
    (∃ i w, bankWordOf aG i = some (0, w, .op 0) ∧ (∀ v, v = 1 ∨ v = 2 → IssuesFreely (bankS v) 0 0 laneE aT ∧ aG.cbit 0 = true ∧ aG.counters.bk < 63 ∧
        (bankS v).spair (.gang 0 0) w.toNat = 0 ∧ ((issued (bankS v)).readDwords 0 0 0 7).1 = .ok (bkDwords v)) ∧
      (BankKind.op 0).malformed (bkDescOf (bkDwords 2)) = some 0 ∧ (BankKind.op 0).malformed (bkDescOf (bkDwords 1)) = none ∧
      ∃ s2, ((issued (bankS 1)).readDwords 0 0 0 7).2.checkRangesBk 0 1 0 ((BankKind.op 0).ranges (bkDescOf (bkDwords 1))) = (.ok [4352, 4360, 4368], s2)) ∧
    (∀ fin, fin = none ∨ fin = some ⟨0, 9, 1⟩ → (busyS (aCmd (.op 0) 56 fin)).bankCmds.find? (fun x => x.id == 7) = some (aCmd (.op 0) 56 fin) ∧
      (busyS (aCmd (.op 0) 56 fin)).task 0 = some aT ∧ (busyS (aCmd (.op 0) 56 fin)).cmdAwake (aCmd (.op 0) 56 fin) = true ∧ (busyS (aCmd (.op 0) 56 fin)).unitReleased (.gang 0 0) 5 1 = false) ∧
    (((aCmd (.op 0) 56).perform (busyS (aCmd (.op 0) 56))).2.denials = 0 ∧ ((aCmd (.op 0) 56).perform (busyS (aCmd (.op 0) 56))).1.unitReleased
      (.gang 0 0) 5 ((aCmd (.op 0) 56).perform (busyS (aCmd (.op 0) 56))).1.nextId = false) ∧
    (∀ st, st = 0 ∨ st = 2 → (cmdS (aCmd (.op 0) 56 (some ⟨st, 9, 0⟩))).bankCmds.find? (fun x => x.id == 7) = some (aCmd (.op 0) 56 (some ⟨st, 9, 0⟩)) ∧
      (cmdS (aCmd (.op 0) 56 (some ⟨st, 9, 0⟩))).unitReleased (.gang 0 0) 5 0 = true) ∧
    (∃ s1 pa leaf, (cmdS (aCmd (.op 0) 56 (some ⟨0, 9, 0⟩))).checkWalk 1 56 4 .write = (.ok pa leaf, s1) ∧
      (cmdS (aCmd (.op 0) 56 (some ⟨0, 9, 0⟩))).asleepTable 1 = none ∧ ownHome (hDie 0) pa = true ∧ s1.guarded pa 4 = none ∧
      s1.farTakes (hDie 0) [(56, pa, s1.accessMode leaf pa 0 true, leBytes 4 9, false)] = true ∧ ∀ j, j < 4 → s1.aliasAt (pa + j) = none) ∧
    (∀ c, c = aCmd (.op 0) 56 ∨ c = aCmd (.read true) 56 → PlainRange (cmdS c) c.dst (c.count * bankSize c.dfmt) ∧
      PlainRange (cmdS c) c.srcA (c.count * bankSize c.sfmtA) ∧ PlainRange (cmdS c) c.srcB (c.count * bankSize c.dfmt) ∧
      Apart c.dst (c.count * bankSize c.dfmt) c.srcA (c.count * bankSize c.sfmtA) ∧
      Apart c.dst (c.count * bankSize c.dfmt) c.srcB (c.count * bankSize c.dfmt) ∧ 1 < c.count ∧ 0 < bankSize c.dfmt) := by
  refine ⟨⟨.bkopAdd ⟨4, 0⟩, _, rfl, ⟨⟨⟨rfl, rfl, by decide⟩, by decide⟩, by decide +kernel, by decide, by decide⟩, by decide, by decide, by decide +kernel⟩,
    ⟨.bkopAdd ⟨0, 0⟩, _, rfl, ?_, by decide +kernel, by decide +kernel, _, pair_eq (by decide +kernel)⟩, ?_, by decide +kernel, ?_,
    ⟨_, 4152, aLeaf, pair_eq (by decide +kernel), by decide +kernel, by decide +kernel, by decide +kernel, by decide +kernel, by decide +kernel⟩, ?_⟩
  · rintro v (rfl | rfl) <;> exact ⟨free_bankS _, by decide, by decide, by decide +kernel, by decide +kernel⟩
  · rintro fin (rfl | rfl) <;> exact ⟨by decide +kernel, by decide +kernel, by decide +kernel, by decide +kernel⟩
  · rintro st (rfl | rfl) <;> exact ⟨by decide +kernel, by decide +kernel⟩
  · rintro c (rfl | rfl) <;> exact ⟨plain_cmdS _ _ _, plain_cmdS _ _ _, plain_cmdS _ _ _, by unfold Apart; decide, by unfold Apart; decide, by decide, by decide⟩

/-- Element commands: their cells or slots at 4352, their sources at 4608 and 4640, as in this memory. -/
def elemCmd (kind : BankKind) : BankCmd := { aCmd kind 56 with sfmtA := 0, group := 2, srcA := 4608, srcB := 4640, hasB := true }
def elemS (m : Memory) (c : BankCmd) : State := { cmdS c with mem := m }
theorem plain_elemS (m : Memory) (c : BankCmd) (a n : Nat) : PlainRange (elemS m c) a n := plain_cmdS c a n
/-- A slot with this CELL and N, whose first list entry is index 7; a source of this score and index 7. -/
def elemMem (cell n v : Nat) : Memory :=
  Memory.writeBytes (Memory.writeBytes [] 4352 (leBytes 8 cell ++ leBytes 8 n ++ leBytes 8 (2 ^ 32 - 1 - 7))) 4608
    (leBytes 4 v ++ leBytes 28 0 ++ leBytes 4 7)

theorem witness_BankElements :
    (∀ m k, k = .red ∨ k = .rank ∨ k = .commit ∨ k = .read false ∨ k = .read true → (elemCmd k).kind = k ∧ 0 < (elemCmd k).count ∧
      0 < (elemCmd k).group ∧ (elemCmd k).sfmtA = 0 ∧ 0 < bankSize (elemCmd k).dfmt ∧ (∀ a n, PlainRange (elemS m (elemCmd k)) a n) ∧
      Apart (elemCmd k).dst ((elemCmd k).count * bankSize (elemCmd k).dfmt) (elemCmd k).srcA (8 * (elemCmd k).count) ∧
      upToElem (elemS m (elemCmd k)) (elemCmd k) 0 = (elemS m (elemCmd k), BkSum.zero)) ∧
    (fxEnterBy (Rnd.ofField 0) 0 (elemVal 0 0 (Memory.readNat (elemMem 0 0 0x7FC00000) 4608 4)) = none ∧
      fxEnterBy (Rnd.ofField 0) 0 (elemVal 0 0 (Memory.readNat (elemMem 0 0 0x40400000) 4608 4)) = some (3, false)) ∧
    (∀ v : Word, v = 0x7FC00000 ∨ v = 0x3F800000 → ∀ n, n = 0 ∨ n = 1 → Candidate (elemMem 0 n v.toNat) (elemCmd .rank) 0 v 7) ∧
    (0x7F800000 < (0x7FC00000 : Word).toNat % 2 ^ 31 ∧ (0x3F800000 : Word).toNat % 2 ^ 31 ≤ 0x7F800000) ∧
    (Suppressed (elemMem 0 1 0x3F800000) 4352 7 ∧ ¬ Suppressed (elemMem 0 0 0x3F800000) 4352 7) ∧
    (Memory.readNat (elemMem 0 0 0) 4352 8 = 0 ∧ Memory.readNat (elemMem 5 0 0) 4352 8 ≠ 0 ∧ Memory.readNat (elemMem 5 0 0) 4360 1 = 0 ∧
      Memory.readNat (elemMem 5 8 0) 4352 8 ≠ 0 ∧ Memory.readNat (elemMem 5 8 0) 4360 1 = 8) := by
  refine ⟨?_, ⟨by decide +kernel, by decide +kernel⟩, ?_, ⟨by decide, by decide⟩, ⟨⟨0, by decide, by decide +kernel, by decide +kernel⟩, ?_⟩,
    by decide +kernel, by decide +kernel, by decide +kernel, by decide +kernel, by decide +kernel⟩
  · rintro m k (rfl | rfl | rfl | rfl | rfl) <;>
      exact ⟨rfl, by decide, by decide, rfl, by decide, plain_elemS _ _, .inl (by decide), by rfl⟩
  · rintro v (rfl | rfl) n (rfl | rfl) <;> exact ⟨by decide +kernel, by decide +kernel⟩
  · rintro ⟨j, -, h, -⟩
    exact absurd (show Memory.readNat (elemMem 0 0 0x3F800000) (4352 + 8) 1 = 0 by decide +kernel) (by omega)

/-- The SEGTAB entry of segment 0 as code of a stream, with streams in use on cluster 0. -/
def mstartS (full : Bool) : State :=
  let s := withMem (mapping lS) (leBytes 8 0 ++ leBytes 8 (4 + 2 ^ 32))
  if full then { s with clusters := AList.set Cluster.reset [] 0 { s.cluster 0 with streams := (List.range 4).map fun i => (i, some aX) } } else s
theorem free_mstartS (f : Bool) : IssuesFreely (mstartS f) 0 0 laneE aT := by
  cases f <;> exact ⟨⟨⟨rfl, rfl, by decide⟩, by decide⟩, by decide +kernel, by decide, by decide⟩
/-- An MSTART that waited with what it had read. -/
def resumeE : Entry := { laneE with st := .stall (.streamSlot { seg := 0, addr := 0, len := 4, lo := 0, hi := 0 }) }
def resumeS : State := { mapping (on aT resumeE) with cur := some ⟨.gang 0 0, resumeE⟩ }
def newStream : Stream := { aX with started := false }

theorem witness_StreamsStartAndEnd :
    (∃ w : UAB, aG.cbit w.c.toNat = true ∧ (aG.sreg w.a.toNat).toNat = 0 ∧ ∀ full : Bool, IssuesFreely (mstartS full) 0 0 laneE aT ∧ laneE.st = .ready ∧ (mstartS full).inObject 0 0 = true ∧
      (mstartS full).launch 0 = some (wordLaunch 3) ∧ ∃ s1, (issued (mstartS full)).readDwords 0 0 ((wordLaunch 3).segEntryVa 0) 2 = (.ok [0, 4 + 2 ^ 32], s1) ∧
        s1.releaseDone (.gang 0 0) 3 (s1.upto laneE) = true ∧ s1.freeStream 0 = (if full then none else some 0) ∧
        s1.lehr.level < 2 ∧ (full = false → (s1.mslotFor 0 1 0 0).isSome = true)) ∧
    (∃ w : UAB, aG.cbit w.c.toNat = true ∧ IssuesFreely resumeS 0 0 resumeE aT ∧ resumeS.freeStream 0 = some 0 ∧ resumeS.lehr.level < 2 ∧
      (resumeS.mslotFor 0 1 (resumeS.kobjOf aT) 0).isSome = true) ∧
    ((segEntryOf [0, 4 + 2 ^ 32]).bad = false ∧ (segEntryOf [0, 4 + 2 ^ 32]).kind = 1) ∧
    ((onStream newStream sE).stream 0 0 = some newStream ∧ newStream.started = false ∧ (onStream newStream sE).streamLanded 0 newStream = true) ∧
    (∃ w : UC, StreamIssues (onStream aX sE) 0 0 sE aX ∧ streamBit aX w.c.toNat = true ∧ (onStream aX sE).streamDrained (.stream 0 0) = true) ∧
    ∃ t, ({ onStream aX sE with tasks := [(0, some t)] } : State).task 0 = some t ∧ t.finished = true ∧ aX.h = 0 ∧
      ({ onStream aX sE with tasks := [(0, some t)] } : State).stream 0 0 = some aX ∧ ((onStream aX sE).cluster 0).arrayQ = [] ∧ ((onStream aX sE).cluster 0).postQ = [] := by
  refine ⟨⟨⟨0, 2, 0⟩, by decide, by decide, ?_⟩, ⟨⟨0, 2, 0⟩, by decide, ⟨⟨⟨rfl, rfl, by decide⟩, by decide⟩, by decide +kernel, by decide, by decide⟩,
      by decide +kernel, by decide +kernel, by decide +kernel⟩, ⟨by decide +kernel, by decide +kernel⟩, ⟨by decide +kernel, rfl, by decide +kernel⟩,
    ⟨⟨0⟩, sIssues, by decide, by decide +kernel⟩, exitedT .alive [], rfl, by decide, rfl, by decide +kernel, by decide +kernel, by decide +kernel⟩
  intro full
  refine ⟨free_mstartS _, rfl, ?_, ?_, ((issued (mstartS full)).readDwords 0 0 ((wordLaunch 3).segEntryVa 0) 2).2, pair_eq ?_, ?_, ?_, ?_, ?_⟩ <;> cases full <;> decide +kernel

/-- A stream of a task whose descriptor memory holds an operand descriptor at 16 and a post descriptor at 32; s4-s7 name them, tile 0 is bound. -/
def mxT : Task :=
  { withGang { aG with acc := [(0, .rank (rank2 []))] } with
    mdesc := Memory.writeBytes (Memory.writeBytes [] 16 (leBytes 8 0 ++ leBytes 2 1 ++ leBytes 2 1)) 32
      (leBytes 4 1024 ++ leBytes 4 4 ++ leBytes 2 0 ++ leBytes 2 1 ++ leBytes 2 1) }
def mxX (v : Word) : Stream := { aX with s := [(4, 0x30000010), (5, 0x30000020), (6, v)], tiles := [(0, some 0)] }
def mxS (v : Word) : State :=
  { onStream (mxX v) sE with tasks := [(0, some mxT)], mem := Memory.writeBytes [] 4096 (leBytes 4 1 ++ leBytes 4 0 ++ leBytes 4 0x3F800000),
                             clusters := AList.set Cluster.reset [] 0 { (mapping (onStream (mxX v) sE)).cluster 0 with tiles := [(0, { Tile.free with owner := some 0 })] } }
theorem mxIssues (v : Word) (h : (mxS v).stream 0 0 = some (mxX v)) : MatrixIssues 0 (mxS v) 0 0 sE (mxX v) :=
  ⟨⟨rfl, h, by decide⟩, rfl, by show ((mxS v).cluster 0).outstanding 0 < 4; exact Nat.lt_of_lt_of_le (Nat.zero_lt_one) (by decide)⟩
def opBytes : List Byte := leBytes 8 0 ++ leBytes 2 1 ++ leBytes 2 1 ++ leBytes 4 0
def anOperand : OpDesc := { laddr := 0, lstr := 0, lines := 1, kb := 1, var := 0 }
def aPost : PostDesc := { dst := 1024, dstr := 4, row0 := 0, rows := 1, cols := 1, bias := 0, ridx := 0, racc := 0, rgang := 0 }
def actBytes : List Byte := leBytes 4 1 ++ leBytes 4 0 ++ leBytes 4 0x3F800000 ++ List.replicate 2052 0
def anActTable : ActTable := { lo := 0, invw := 0x3F800000, segs := List.replicate 256 (0, 0) }
/-- A word at the head of the array's queue, or of the post chain's. -/
def mxOp (w : MatrixWord) : MatrixOp := { id := 7, stream := 0, pc := 0, word := w, offered := 0 }
def headS (post : Bool) (w : MatrixWord) : State :=
  (mxS 0).modCluster 0 fun c => if post then { c with postQ := [mxOp w] } else { c with arrayQ := [mxOp w] }

theorem witness_MatrixWords :
    (∀ v : Word, v = 0 ∨ v = 8 ∨ v = 4096 → MatrixIssues 0 (mxS v) 0 0 sE (mxX v) ∧ v = (mxX v).sreg 6) ∧
    ((mxS 8).gang 0 0).record.busy = false ∧ ((mxS 8).task 0).isSome = true ∧
    ((mxS 0).descBytes 0 ((mxX 0).sreg 4) 16 = some opBytes ∧ opDescOf opBytes = some anOperand ∧ (mxS 0).descBytes 0 ((mxX 0).sreg 3) 16 = none ∧ (0 : Word).toNat / 16 % 16 ≤ anOperand.n ∧ (mxS 0).checkOp 0 anOperand = none ∧ (mxX 0).tile 0 = some 0) ∧
    ((mxX 0).tile 1 = none ∧ (tileOf (mxS 0) 0 7).owner = none) ∧
    (MatrixIssues 0 (mxS 1) 0 0 sE (mxX 1) ∧ (mxX 1).sreg 6 = 1 ∧ (mxX 1).tile 1 = none ∧ (tileOf (mxS 1) 0 7).owner = none ∧
      (mxS 1).descBytes 0 ((mxX 1).sreg 4) 16 = some opBytes ∧ (mxS 1).checkOp 0 anOperand = none ∧ ((mxS 1).gang 0 0).record.busy = false) ∧
    (∃ bs, cmdBad 0 = false ∧ (mxS 0).descBytes 0 ((mxX 0).sreg 5) 32 = some bs ∧ postDescOf 0 bs = some aPost ∧ (mxS 0).checkPost 0 0 aPost = none ∧
      cmdAct 0 = false ∧ cmdRoute 0 = false) ∧
    (∃ bs a s1, ((mxX 0).sreg 0).toNat ≤ 3 ∧ (mxS 0).spair (.stream 0 0) 0 = 0 ∧ (issued (mxS 0)).unitRead (some 0) (0 / 8) ((mxS 0).ctxOf 0) 0 2064 = (.ok bs, s1) ∧
      bs.any Prod.snd = false ∧ actTableOf (bs.map Prod.fst) = some a ∧ s1.stream 0 0 = some (mxX 0)) ∧
    (∀ w, w = .mma 0 0 0 true anOperand anOperand ∨ w = .mzero 0 → ((headS false w).cluster 0).arrayQ = [mxOp w] ∧ ((headS false w).cluster 0).postQ = [] ∧
      (headS false w).stream 0 0 = some (mxX 0) ∧ (headS false w).checkOp 0 anOperand = none) ∧
    (∀ w, w = .mact 0 anActTable ∨ w = .mpost 0 0 aPost ∨ w = .mpost 0 8 aPost → ((headS true w).cluster 0).postQ = [mxOp w] ∧ ((headS true w).cluster 0).arrayQ = [] ∧
      (headS true w).stream 0 0 = some (mxX 0) ∧ (headS true w).task 0 = some mxT) ∧
    aPost.dst + aPost.rows * aPost.dstr + 4 * aPost.cols ≤ mxT.granules.length * 4096 ∧ 4 * aPost.cols ≤ aPost.dstr ∧
    (mxT.gang 0).accum 0 = .rank (rank2 []) ∧ (rank2 []).int32 = false := by
  refine ⟨?_, by decide +kernel, by decide +kernel, ⟨by decide +kernel, by decide +kernel, by decide +kernel, by decide, by decide +kernel, rfl⟩, ⟨rfl, by decide +kernel⟩,
    ⟨mxIssues _ (by decide +kernel), by decide, rfl, by decide +kernel, by decide +kernel, by decide +kernel, by decide +kernel⟩,
    ⟨_, by decide, rfl, by decide +kernel, by decide +kernel, by decide, by decide⟩, ?_, ?_, ?_, by decide, by decide, rfl, rfl⟩
  · rintro v (rfl | rfl | rfl) <;> exact ⟨mxIssues _ (by decide +kernel), by decide⟩
  · obtain ⟨a, h⟩ := Option.isSome_iff_exists.1 (show (actTableOf ((actBytes.map fun b => (b, false)).map Prod.fst)).isSome = true by decide +kernel)
    exact ⟨actBytes.map fun b => (b, false), a, _, by decide, by decide +kernel, pair_eq (by decide +kernel), by decide +kernel, h, by decide +kernel⟩
  · rintro w (rfl | rfl) <;> exact ⟨by decide +kernel, by decide +kernel, by decide +kernel, by decide +kernel⟩
  · rintro w (rfl | rfl | rfl) <;> exact ⟨by decide +kernel, by decide +kernel, by decide +kernel, by decide +kernel⟩
/-! ### Other scratchpads, experts, rings -/

/-- A lane of an access to scratchpad offset 64 of a task on another core of the cluster, or to a core that is not there. -/
def mateHandle : Nat := space2Handle 0 0x22000040
def aRemoteLane (addr stage refused : Nat) : RemoteLane :=
  { lane := 0, addr := addr, data := [], bytes := [1, 2, 3, 4], dst := [1], stage := stage, result := [9, 0, 0, 0], bad := [], poisoned := false, refused := refused }
def aRemote (k : RemoteKind) (addr stage refused : Nat) : RemoteOp :=
  { id := 7, owner := .gang 0 0, ctx := 1, pc := 0, kind := k, spread := 0, mask := 1, dsts := [], lanes := [aRemoteLane addr stage refused] }
def remoteS (k : RemoteKind) (addr stage refused : Nat) : State :=
  { lS with remotes := [aRemote k addr stage refused], tasks := [(0, some aT), (mateHandle, some aT)] }

theorem witness_RemoteScratchpads :
    (∀ k, k = .store ∨ k = .load 4 ∨ k = .latom 0 → (remoteS k 0x22000040 0 0).remotes.find? (fun y => y.id == 7) = some (aRemote k 0x22000040 0 0) ∧
      (aRemote k 0x22000040 0 0).lanes.find? (fun y => y.lane == 0 && decide (y.stage = 0)) = some (aRemoteLane 0x22000040 0 0) ∧
      ((aRemote k 0x22000040 0 0).lanes.map RemoteLane.lane).Nodup ∧
      together (remoteS k 0x22000040 0 0) (aRemote k 0x22000040 0 0) (aRemoteLane 0x22000040 0 0) = [aRemoteLane 0x22000040 0 0] ∧ (remoteS k 0x22000040 0 0).task mateHandle = some aT ∧ mateHandle ≠ 0 ∧
      (remoteS k 0x22000040 0 0).localTarget 0 0x22000040 4 true = .scratch mateHandle 64 ∧
      (remoteS k 0x22000040 0 0).localTarget 0 0x22000040 4 false = .scratch mateHandle 64) ∧
    (ActsOn (remoteS (.latom 0) 0x22000040 0 0) (aRemote (.latom 0) 0x22000040 0 0) (aRemoteLane 0x22000040 0 0) mateHandle 64 ∧
      AList.get false aT.scratchPoison (64 / 4) = false ∧ (∀ m ∈ (aRemote (.latom 0) 0x22000040 0 0).lanes, m.addr % 4 = 0) ∧
      (remoteS (.latom 0) 0x2C000000 0 0).localTarget 0 0x2C000000 4 true = .bad 4) ∧
    ((remoteS .store 0x2C000000 0 0).localTarget 0 0x2C000000 4 true = .bad 4 ∧
      aRemoteLane 0x2C000000 0 0 ∈ together (remoteS .store 0x2C000000 0 0) (aRemote .store 0x2C000000 0 0) (aRemoteLane 0x2C000000 0 0)) ∧
    ∀ k r, k = .load 4 ∨ k = .latom 0 → r = 0 ∨ r = 4 →
      (remoteS k 0x22000040 1 r).remotes.find? (fun y => y.id == 7) = some (aRemote k 0x22000040 1 r) ∧ (aRemoteLane 0x22000040 1 r).poisoned = false ∧
      (aRemote k 0x22000040 1 r).lanes.find? (fun y => y.lane == 0 && decide (y.stage = 1)) = some (aRemoteLane 0x22000040 1 r) ∧
      (remoteS k 0x22000040 1 r).task 0 = some aT ∧ (aRemoteLane 0x22000040 1 r).refused = r ∧ (aRemoteLane 0x22000040 1 r).dst.Nodup ∧
      (aRemoteLane 0x22000040 1 r).dst.length = 4 / 4 ∧ aG.record.busy = false ∧
      (∀ q ∈ (aRemote k 0x22000040 1 r).lanes, q.lane = 0 ∨ q.stage = 2) := by
  refine ⟨?_, ⟨by unfold ActsOn; decide +kernel, by decide, by decide, by decide +kernel⟩, ⟨by decide +kernel, by decide +kernel⟩, ?_⟩
  · rintro k (rfl | rfl | rfl) <;> exact ⟨by decide +kernel, by decide +kernel, by decide, by decide +kernel, by decide +kernel, by decide +kernel, by decide +kernel, by decide +kernel⟩
  · rintro k r (rfl | rfl) (rfl | rfl) <;> exact ⟨by decide +kernel, rfl, by decide +kernel, by decide +kernel, rfl, by decide, rfl, rfl, by decide⟩

/-- A context slot of the engine with generation 3 current, in table slot 0, and generation 4 built in slot 1 where asked. -/
def aSlot (building : Bool) : PlaceSlot :=
  { PlaceSlot.reset with cen := true, ctx := 1, nexp := 8, tbl := 65536, gen := 3,
                           gens := (0, ⟨.current, 3, 2⟩) :: (if building then [(1, ⟨.building, 4, 0⟩)] else []) }
def anEngine (building : Bool) : Engine := { Engine.reset with en := true, freeze := true, slots := [(0, aSlot building)], closesSent := 1 }
/-- A task whose s4 holds an operand, and which pins these generations. -/
def pinT (v : Word) (pins : List Nat) : Task := { withGang { aG with s := [(4, v)] } with pins := pins }
def engineS (v : Word) (pins : List Nat) (b : Bool := false) : State := { on (pinT v pins) laneE with engine := anEngine b }
theorem free_engineS (v : Word) (p : List Nat) : IssuesFreely (engineS v p) 0 0 laneE (pinT v p) :=
  ⟨⟨⟨rfl, rfl, by decide⟩, by decide⟩, by rfl, Nat.le_of_ble_eq_true rfl, by decide⟩
def mergeDwords : List Nat := [1, 3 + 2 ^ 32, 0, 0, 0, 0, 0, 0]
def mergeS : State := { withMem (mapping lS) (mergeDwords.flatMap (leBytes 8)) with engine := anEngine false }
/-- An engine whose table stands in home 17, where no memory is (01 R12). -/
def farEngine : Engine := { anEngine false with slots := [(0, { aSlot false with tbl := 17 * 2 ^ 47 })] }
def aMerge : Merge :=
  { id := 7, owner := .gang 0 0, ctx := 1, pc := 0, mask := 1, dfmt := 0, sfmt := 0, frac := 0, rmode := 0, count := 1, copies := [256], primary := 512,
    desc := 2 ^ 60 - 36, cword := 0, cval := 0, fin := none }
/-- That merge, with a write of its gang on its way. -/
def mergingS : State := { walkS aT [] with merges := [aMerge], writes := writing.writes, nextId := 1 }
def expCmd (op : ExpertOp) (reply : Option (Word × Word × Nat)) : ExpertCmd :=
  { id := 7, owner := .gang 0 0, lane := 0, pc := 0, mask := 1, op := op, d := 5, ctx := 1, die := 0, reply := reply }
def expS (op : ExpertOp) (reply : Option (Word × Word × Nat)) : State :=
  { on (stuckT (.stall (.reply 7))) laneE with engine := anEngine false, experts := [expCmd op reply] }

theorem witness_Experts :
    (∃ i c, expertGuard i = some c ∧ IssuesFreely lS 0 0 laneE aT ∧ aG.cbit c.toNat = true ∧ lS.placeSlot 1 = none) ∧
    (∀ v p, IssuesFreely (engineS v p) 0 0 laneE (pinT v p) ∧ laneE.st = .ready ∧ (engineS v p).placeSlot 1 = some 0) ∧
    (∃ w : UDA, ∀ v p, ((pinT v p).gang 0).cbit w.c.toNat = true ∧ v = ((pinT v p).gang 0).sreg w.a.toNat) ∧
    (∃ w : UR, w.a = 4 ∧ w.b = 0 ∧ w.c = 0 ∧ (0x00020005 : Word).toNat / 4096 % 16 = 0 ∧ (0 : Word).toNat < 65536) ∧
    ((engineS 0 []).pinCount 0 < 8 ∧ ¬ (engineS 0 [3, 3, 3, 3, 3, 3, 3, 3]).pinCount 0 < 8) ∧
    ((3 : Word).toNat ∈ (pinT 3 [3]).pins ∧ (3 : Word).toNat ∉ (pinT 3 []).pins ∧ ((pinT 3 [3]).gang 0).counters.rg < 63) ∧
    (∃ (w : UA) (s1 : State), IssuesFreely mergeS 0 0 laneE aT ∧ aG.cbit w.c.toNat = true ∧ mergeS.placeSlot 1 = some 0 ∧ mergeS.slotAwake 0 = true ∧
      laneE.st.issued = false ∧ (aSlot false).recsIn 0 (mergeDescOf mergeDwords).expert = true ∧
      (farEngine.slot 0).recsIn 0 (mergeDescOf mergeDwords).expert = false ∧ (farEngine.slot 0).liveSlotOf (mergeDescOf mergeDwords).gen = some 0 ∧
      (∀ k, k < 3 → ((aSlot false).genAt k).st = .free ∨ ((aSlot false).genAt k).gen ≠ (mergeDescOf [1, 4 + 2 ^ 32, 0, 0, 0, 0, 0, 0]).gen) ∧
      mergeBad (aSlot false).nexp [1, 4 + 2 ^ 32, 0, 0, 0, 0, 0, 0] = false ∧ mergeBad (aSlot false).nexp (mergeDwords.map (· + 2 ^ 63)) = true ∧
      mergeS.spair (.gang 0 0) w.a.toNat = 0 ∧ (issued mergeS).readDwords 0 0 0 8 = (.ok mergeDwords, s1) ∧ mergeBad (mergeS.engine.slot 0).nexp mergeDwords = false ∧
      (mergeS.engine.slot 0).liveSlotOf (mergeDescOf mergeDwords).gen = some 0) ∧
    (∀ op ∈ [ExpertOp.ecnt 7 true, .ecnt 8 false, .look 7 65535 3, .pin, .unpin 3], Arriving (expS op none) 7 0 (expCmd op none)) ∧
    (aSlot false).recsIn 0 7 = true ∧ (farEngine.slot 0).recsIn 0 7 = false ∧ inHome (((expS (.look 7 65535 3) none).engine.slot 0).cell 0 7) 4 = true ∧ ((expS .pin none).engine.slot 0).slotOfGen 3 = some 0 ∧ 1 < (((expS .pin none).engine.slot 0).genAt 0).refs ∧
    (∀ c, c = 0 ∨ c = 42 → (expS (.ecnt 7 true) (some (1, 0, c))).experts.find? (fun y => y.id == 7) = some (expCmd (.ecnt 7 true) (some (1, 0, c))) ∧
      ((stuckT (.stall (.reply 7))).gang 0).frontier.find? (fun y => y.st == .stall (.reply 7)) = some { laneE with st := .stall (.reply 7) } ∧
      ((stuckT (.stall (.reply 7))).gang 0).record.busy = false) ∧
    ∃ s1, mergingS.merges.find? (fun y => y.id == 7) = some aMerge ∧ mergingS.task 0 = some aT ∧ mergingS.mergeAwake aMerge = true ∧ mergingS.asleepTable 1 = none ∧
      aMerge.check mergingS = (none, s1) ∧ ((List.range aMerge.count).foldl aMerge.elem (s1, BkSum.zero)).2.denials = 0 ∧
      ((List.range aMerge.count).foldl aMerge.elem (s1, BkSum.zero)).1.unitReleased (.gang 0 0) 5
        ((List.range aMerge.count).foldl aMerge.elem (s1, BkSum.zero)).1.nextId = false ∧
      ({ mergingS with merges := [{ aMerge with fin := some ⟨2, 0, 0⟩ }] } : State).merges.find? (fun y => y.id == 7) =
        some { aMerge with fin := some ⟨2, 0, 0⟩ } ∧
      ({ mergingS with merges := [{ aMerge with fin := some ⟨2, 0, 0⟩ }] } : State).unitReleased (.gang 0 0) 5 0 = true := by
  refine ⟨⟨.rtpin ⟨5, 0⟩, _, rfl, free_lS, by decide, by decide +kernel⟩, fun v p => ⟨free_engineS _ _, rfl, by rfl⟩, ⟨⟨5, 4, 0⟩, fun v p => ⟨rfl, rfl⟩⟩,
    ⟨⟨5, 4, 0, 0⟩, by decide⟩, ⟨by decide +kernel, by decide +kernel⟩, ⟨by decide, by decide, by decide⟩,
    ⟨⟨0, 0⟩, _, ⟨⟨⟨rfl, rfl, by decide⟩, by decide⟩, by decide +kernel, by decide, by decide⟩, by decide, by decide +kernel, by decide +kernel, rfl, by decide +kernel, by decide +kernel, by decide +kernel, by decide +kernel, by decide +kernel, by decide +kernel,
      by decide +kernel, pair_eq (by decide +kernel), by decide +kernel, by decide +kernel⟩, ?_, by decide +kernel, by decide +kernel, by decide +kernel, by decide +kernel, by decide +kernel, ?_, _, by decide +kernel, by decide +kernel, by decide +kernel, by decide +kernel, pair_eq (by decide +kernel), by decide +kernel,
    by decide +kernel, by decide +kernel, by decide +kernel⟩
  · intro op h
    simp only [List.mem_cons, List.not_mem_nil, or_false] at h
    rcases h with rfl | rfl | rfl | rfl | rfl <;> exact ⟨by decide +kernel, rfl, by decide +kernel⟩
  · rintro c (rfl | rfl) <;> exact ⟨by decide +kernel, by decide +kernel, rfl⟩

/-- A state of the engine, with copy 1 of expert 0 valid on die 1, which is offline. -/
def placeS (b : Bool) : State :=
  { engineS 0 [] b with mem := Memory.writeBytes [] (65536 + 0x1000 + 16) ({ base := 0, home := 1, flags := 1, wlen := 4 } : CopyRec).bytes,
                        dies := [(0, { Die.reset with closing := 1 }), (1, { Die.reset with online := false })] }

theorem witness_PlacementEngine :
    (placeS false).engine.en = true ∧ (placeS false).engineAwake = true ∧ (engineS 0 []).engineAwake = true ∧ (placeS false).slotAwake 0 = true ∧ (placeS true).slotAwake 0 = true ∧
    (0 < ((placeS false).die 0).closing ∧ ((placeS false).engine.slot 0).cen = true ∧ 7 < ((placeS false).engine.slot 0).nexp ∧
      (∀ i, i < 16 → i ≠ 0 → ((placeS false).engine.slot i).cen = false) ∧ inHome ((aSlot false).cell 0 7) 8 = true) ∧
    ((engineS 0 []).engine.freeze = true ∧ ∀ d, d < 4 → (engineS 0 []).engine.evaluated + ((engineS 0 []).die d).closing < (engineS 0 []).engine.closesSent) ∧
    (((aSlot true).genAt 1).st = .building ∧ (∀ k, k < 3 → k ≠ 1 → ((aSlot true).genAt k).st ≠ .building) ∧ (aSlot true).slot ≠ 1 ∧
      1 < ((aSlot true).genAt (aSlot true).slot).refs ∧ inHome (aSlot true).tbl 8 = true ∧
      (∀ k, k < 8 → (placeS true).aliasAt ((aSlot true).tbl + k) = none) ∧ (aSlot true).epoch < 65536 ∧ (aSlot true).adds = [] ∧
      { aSlot true with adds := [⟨0, 1, 1, 0, 64⟩] }.adds ≠ []) ∧
    (placeS false).engine.slot 0 = aSlot false ∧ (aSlot false).liveSlots = [0] ∧ ((placeS false).copyRec (aSlot false) 0 0 1).valid = true ∧
      ((placeS false).copyRec (aSlot false) 0 0 1).withdrawn = false ∧ ((placeS false).die (ownerDie ((placeS false).copyRec (aSlot false) 0 0 1).home)).online = false ∧
      (placeS false).aliasAt ((aSlot false).recAt 0 0 1 + 9) = none ∧
      (∀ k, k < 8 → (placeS false).aliasAt ((aSlot false).tbl + k) = none) ∧ (aSlot false).tbl + 8 ≤ (aSlot false).recAt 0 0 1 + 9 := by
  decide +kernel

/-- A ring of 4 slots of 64 bytes on die 0, held by context 1, with its positions. -/
def aRing (claim freep pubp take : Word) (claims takes : List RingHold) : Ring :=
  { Ring.reset with en := true, logn := 2, logsz := 6, ctx := 1, claim := claim, freep := freep, pubp := pubp, take := take, claims := claims, takes := takes }
def aRingCmd (op : RingOp) (arg : Word) (reply : Option (Bool × Word × Nat)) : RingCmd :=
  { id := 7, owner := .gang 0 0, lane := 0, pc := 0, mask := 1, op := op, ring := 0, arg := arg, d := 5, m := 1, ctx := 1, fromDie := 0, reply := reply }
def ringS (r : Ring) (x : RingCmd) : State :=
  { on (stuckT (.stall (.reply 7))) laneE with ringCmds := [x], dies := [(0, { Die.reset with rings := [(0, r)] })],
                                               boot := { State.reset.boot with phase := .running } }
theorem atRing (r : Ring) (op : RingOp) (n : Word) (h2 : r.en = true) (h3 : r.ctx = 1) (h4 : r.dead = false) :
    AtRing (ringS r (aRingCmd op n none)) 7 0 0 0 0 (aRingCmd op n none) r :=
  ⟨rfl, rfl, rfl, by show 0 = (0 : Word).toNat / 64 % 4; decide, by show 0 = (0 : Word).toNat % 64; decide, rfl, h2, h3, h4, .inr rfl⟩
def aHold : RingHold := ⟨8, 2, 0, false⟩
def twoRing : Ring := aRing 10 8 8 8 [aHold] []

/-- Holds at 8 (not done), 10 (done), 12 (not done), 16 (done), 18 (not done): position 8 is the head with a run behind it, 12 is out of order. -/
def manyHolds : List RingHold := [⟨8, 2, 0, false⟩, ⟨10, 2, 0, true⟩, ⟨12, 4, 0, false⟩, ⟨16, 2, 0, true⟩, ⟨18, 2, 0, false⟩]
def runClause (op : RingOp) (r : List RingHold → Ring) (f : Ring → List RingHold) : Prop :=
  (∀ n, AtRing (ringS (r manyHolds) (aRingCmd op n none)) 7 0 0 0 0 (aRingCmd op n none) (r manyHolds)) ∧ f (r manyHolds) = manyHolds ∧
  (∀ n : Word, n = 8 ∨ n = 12 → ∃ (c : RingHold) (pre run rest : List RingHold), manyHolds = pre ++ c :: run ++ rest ∧ c.done = false ∧ c.pos = n ∧
    (∀ y ∈ pre ++ run ++ rest, y.pos ≠ n) ∧ (∀ y ∈ run, y.done = true) ∧ run ≠ [] ∧ (∀ y, pre.head? = some y → y.done = false) ∧
    (∀ y, rest.head? = some y → y.done = false) ∧ (pre = [] ↔ n = 8))
theorem run_clause (op : RingOp) (r : List RingHold → Ring) (f : Ring → List RingHold) (h : (r manyHolds).en = true ∧ (r manyHolds).ctx = 1 ∧ (r manyHolds).dead = false)
    (hf : f (r manyHolds) = manyHolds) : runClause op r f := by
  refine ⟨fun n => atRing _ _ _ h.1 h.2.1 h.2.2, hf, ?_⟩
  rintro n (rfl | rfl)
  · exact ⟨⟨8, 2, 0, false⟩, [], [⟨10, 2, 0, true⟩], [⟨12, 4, 0, false⟩, ⟨16, 2, 0, true⟩, ⟨18, 2, 0, false⟩], by decide⟩
  · exact ⟨⟨12, 4, 0, false⟩, [⟨8, 2, 0, false⟩, ⟨10, 2, 0, true⟩], [⟨16, 2, 0, true⟩], [⟨18, 2, 0, false⟩], by decide⟩

/-- An entry whose RFREE or RPUB stands in its release. -/
def ringE (free : Bool) : Entry := { laneE with st := .stall (if free then .free 255 8 3 0 else .publish 255 8 3 0) }

theorem witness_Rings :
    (∃ w : URing, ∀ v p, IssuesFreely (engineS v p) 0 0 laneE (pinT v p) ∧ ((pinT v p).gang 0).cbit w.c.toNat = true ∧ v = ((pinT v p).gang 0).sreg w.a.toNat ∧
      ((pinT v p).gang 0).counters.rg < 63) ∧
    (∃ x : UAB, ∀ free, IssuesFreely (on aT (ringE free)) 0 0 (ringE free) aT ∧ x.c = 0 ∧
      (if free = true then (on aT (ringE free)).releaseDone (.gang 0 0) 3 0 else (on aT (ringE free)).writesVisible (.gang 0 0) 0 0 3 0) = true) ∧
    laneE.st.issued = false ∧
    (∃ w : UAB, ((pinT 255 []).gang 0).sreg w.a.toNat = 255 ∧ (engineS 255 []).releaseDone (.gang 0 0) ((engineS 255 []).ring 3 63).scope ((engineS 255 []).upto laneE) = true ∧
      (engineS 255 []).writesVisible (.gang 0 0) 0 0 ((engineS 255 []).ring 3 63).scope ((engineS 255 []).upto laneE) = true) ∧
    (∀ n : Word, n = 2 ∨ n = 3 → AtRing (ringS twoRing (aRingCmd .claim n none)) 7 0 0 0 0 (aRingCmd .claim n none) twoRing ∧ 0 < n.toNat ∧ n.toNat ≤ 2 ^ twoRing.logn) ∧
    ((twoRing.claim + 2 - twoRing.freep).toNat ≤ 2 ^ twoRing.logn ∧ 2 ^ twoRing.logn < (twoRing.claim + 3 - twoRing.freep).toNat ∧ twoRing.claims.length < 64) ∧
    (∀ n : Word, n = 2 ∨ n = 3 → AtRing (ringS (aRing 10 8 10 8 [] []) (aRingCmd .take n none)) 7 0 0 0 0 (aRingCmd .take n none) (aRing 10 8 10 8 [] [])) ∧
    (((aRing 10 8 10 8 [] []).take + 2 - (aRing 10 8 10 8 [] []).pubp).toInt ≤ 0 ∧ 0 < ((aRing 10 8 10 8 [] []).take + 3 - (aRing 10 8 10 8 [] []).pubp).toInt) ∧
    (AtRing (ringS twoRing (aRingCmd .pub 8 none)) 7 0 0 0 0 (aRingCmd .pub 8 none) twoRing ∧ twoRing.claims = [] ++ aHold :: [] ++ [] ∧ aHold.done = false ∧ aHold.pos = 8) ∧
    runClause .pub (fun l => aRing 20 8 8 8 l []) Ring.claims ∧ runClause .free (fun l => aRing 20 8 20 20 [] l) Ring.takes ∧
    AtRing (ringS (aRing 10 8 10 10 [] [aHold]) (aRingCmd .free 8 none)) 7 0 0 0 0 (aRingCmd .free 8 none) (aRing 10 8 10 10 [] [aHold]) ∧
    ((ringS Ring.reset (aRingCmd .pub 8 none)).ring 0 0).en = false ∧ ((ringS { twoRing with dead := true } (aRingCmd .pub 8 none)).ring 0 0).dead = true ∧
    (∀ c, c = 0 ∨ c = 1 → (ringS twoRing (aRingCmd .claim 2 (some (true, 10, c)))).ringCmds.find? (fun y => y.id == 7) = some (aRingCmd .claim 2 (some (true, 10, c))) ∧
      (ringS twoRing (aRingCmd .claim 2 (some (true, 10, c)))).task 0 = some (stuckT (.stall (.reply 7)))) ∧
    ((ringS Ring.reset (aRingCmd .pub 8 none)).booted = true ∧ (ringS Ring.reset (aRingCmd .pub 8 none)).ringValid (Ring.reset.withFields 1) = false ∧
      (ringS Ring.reset (aRingCmd .pub 8 none)).ringValid (Ring.reset.withFields (1 + 2 * 16 + 64 * 12 + 1024 * 4 + 2 ^ 32)) = true ∧
      2 ^ 25 < ((ringS Ring.reset (aRingCmd .pub 8 none)).die 0).pinned + (Ring.reset.withFields (1 + 2 * 16 + 64 * 12 + 1024 * 4 + 2 ^ 32)).bytes ∧
      (ringS Ring.reset (aRingCmd .pub 8 none)).ringValid (Ring.reset.withFields (1 + 2 * 2 + 64 * 6 + 1024 * 4 + 2 ^ 32)) = true ∧
      ((ringS Ring.reset (aRingCmd .pub 8 none)).die 0).pinned + (Ring.reset.withFields (1 + 2 * 2 + 64 * 6 + 1024 * 4 + 2 ^ 32)).bytes ≤ 2 ^ 25) ∧
    twoRing.claim ≠ twoRing.freep ∧ (aRing 8 8 8 8 [] []).claim = (aRing 8 8 8 8 [] []).freep := by
  refine ⟨⟨⟨5, 4, 0, 0, 1⟩, fun v p => ⟨free_engineS _ _, rfl, rfl, Nat.zero_lt_succ 62⟩⟩, ⟨⟨4, 0, 0⟩, fun free => ?_⟩, rfl, ⟨⟨4, 0, 0⟩, by decide, by decide +kernel, by decide +kernel⟩, ?_, by decide +kernel, ?_,
    by decide +kernel, ⟨atRing _ _ _ rfl rfl rfl, rfl, rfl, rfl⟩, run_clause _ _ _ ⟨rfl, rfl, rfl⟩ rfl, run_clause _ _ _ ⟨rfl, rfl, rfl⟩ rfl, atRing _ _ _ rfl rfl rfl, by decide +kernel, by decide +kernel, ?_,
    by decide +kernel, by decide, rfl⟩
  · cases free <;> exact ⟨⟨⟨⟨rfl, rfl, by decide⟩, by decide⟩, by decide +kernel, by decide, by decide⟩, rfl, by decide +kernel⟩
  · rintro n (rfl | rfl) <;> exact ⟨atRing _ _ _ rfl rfl rfl, by decide, by decide⟩
  · rintro n (rfl | rfl) <;> exact atRing _ _ _ rfl rfl rfl
  · rintro c (rfl | rfl) <;> exact ⟨by decide +kernel, by decide +kernel⟩
/-! ### Pre-emption, pages, errors -/

/-- A task of one lane as it stops, and as it is saved. -/
def stopT (p : TPhase) : Task := { withGang { aG with frontier := [laneE] } with phase := p }
def savedS : State := { State.reset with contexts := [(1, some (wordContext 3))], launches := [(0, some (wordLaunch 3))], tasks := [(3072, some (stopT .saved))] }

/-- The saved task, whose handler has meanwhile returned END or CONTINUE. -/
def verdictG (go : Bool) : Gang :=
  { aG with frontier := [{ laneE with st := .parked .fault }], record := { aG.record with kind := 5 }, verdict := some go }
def verdictT (go : Bool) : Task := { withGang (verdictG go) with phase := .saved }
def verdictS (go : Bool) : State := { savedS with tasks := [(3072, some (verdictT go))] }

theorem witness_Preemption :
    ((on (stopT .running) laneE).task 0 = some (stopT .running) ∧ (stopT .running).fate = .alive ∧ (stopT .running).finished = false ∧
      (stopT .running).phase = .running ∧ (stopT .running).ident.spanidx = none) ∧
    ((on (stopT .stopping) laneE).task 0 = some (stopT .stopping) ∧ (stopT .stopping).fate = .alive ∧
      (on (stopT .stopping) laneE).drainedTask 0 (stopT .stopping) = true) ∧
    savedS.task 3072 = some (stopT .saved) ∧ (stopT .saved).streams = [] ∧ savedS.restorable 0 (stopT .saved) = true ∧
      (∃ slot b, savedS.freeSlot 0 = some slot ∧ savedS.freeRun 0 (stopT .saved).variant.blocks = some b ∧ savedS.streamsOf (handleOf 0 slot) = []) ∧
    (∀ p ∈ (stopT .saved).gangs, p.2.verdict = none) ∧
    ∀ go, (verdictS go).task 3072 = some (verdictT go) ∧ (verdictT go).phase = .saved ∧ (verdictT go).streams = [] ∧ (verdictS go).restorable 0 (verdictT go) = true ∧
      (verdictS go).freeSlot 0 = some 0 ∧ (verdictS go).freeRun 0 (verdictT go).variant.blocks = some 0 ∧ (verdictS go).streamsOf (handleOf 0 0) = [] ∧
      (verdictT go).gangs.filter (fun p => p.2.verdict.isSome) = [(0, verdictG go)] ∧ (verdictT go).gang 0 = verdictG go ∧ (verdictG go).verdict = some go ∧
      (verdictG go).record.final = false ∧ (verdictG go).held = [] ∧ (∀ x ∈ (verdictG go).frontier, x.st ≠ .parked .pastEnd) ∧
      ∀ x ∈ (verdictG go).frontier, x.st = .parked .fault → x.pc.toNat % 8192 ≠ 0x1FFC := by
  refine ⟨⟨rfl, rfl, by decide, rfl, rfl⟩, ⟨rfl, rfl, by decide +kernel⟩, rfl, rfl, by decide +kernel, ⟨0, 0, by decide +kernel, by decide +kernel, by decide +kernel⟩, ?_, fun go => ?_⟩
  · intro p h
    obtain rfl := List.mem_singleton.1 h
    rfl
  · cases go <;> exact ⟨rfl, rfl, rfl, by decide +kernel, by decide +kernel, by decide +kernel, by decide +kernel, by decide +kernel, rfl, rfl, rfl, rfl, by decide +kernel, by decide +kernel⟩

def aShoot : Shoot := { id := 9, ctx := 1, base := 0, len := 4096, reply := some 64 }
/-- A move of the page at frame 1 to frame 256, its leaf at 20480. -/
def aMove (st : MoveState) : PageMove :=
  { id := 7, sd := 8, ctx := 1, va := 0, slots := [20480], size := 4096, old := 4096, new := 2 ^ 20, st := st }
def moveS (st : MoveState) : State := { walkS aT [] with dies := [(0, { Die.reset with moves := [aMove st] })] }

/-- A move of a page of two slots. -/
def twoMove (st : MoveState) : PageMove := { aMove st with slots := [20480, 20488] }
def twoMoveS (st : MoveState) : State := { walkS aT [] with dies := [(0, { Die.reset with moves := [twoMove st] })] }

theorem plain_moves (l : List PageMove) (a : Nat) :
    ({ walkS aT [] with dies := [(0, { Die.reset with moves := l })] } : State).aliasAt a = none := by
  unfold State.aliasAt; split
  · next h =>
      generalize homeOf a = n at h ⊢
      match n, h with
      | 0, _ | 1, _ | 2, _ | 3, _ => rfl
  · rfl

theorem witness_ShootdownsAndMoves :
    (({ lS with shoots := [aShoot] } : State).shoots.find? (fun y => y.id == 9) = some aShoot ∧ ({ lS with shoots := [aShoot] } : State).shootWaits aShoot = false ∧
      lS.lehr.level ≠ 4 ∧ inHome (16 * 2 ^ 47 + 64) 4 = true) ∧
    ((walkS aT []).asleepTable 1 = none ∧ (walkS aT []).walk 1 0 = .leaf aLeaf 20480 ∧ ownerDie (homeOf (pteFrame aLeaf * 4096)) = 0 ∧ homeOf (pteFrame aLeaf * 4096) ≤ 15 ∧ pteMig aLeaf = false ∧
      2 ^ 20 % pageBytes aLeaf = 0 ∧ inHome (2 ^ 20) (pageBytes aLeaf) = true ∧ ((walkS aT []).die 0).moves = [] ∧
      ((walkS aT []).die 0).evacuating = false ∧ ∀ y ∈ ((walkS aT []).die 0).moves, y.id ≠ (walkS aT []).nextId) ∧
    (∀ st ∈ [MoveState.copy, .commit], (twoMoveS st).pageMove 0 7 = some (twoMove st) ∧ (twoMove st).id = 7 ∧ 1 < (twoMove st).slots.length ∧
      (twoMove st).slots.Pairwise (fun a b => Apart a 8 b 8) ∧ (∀ a ∈ (twoMove st).slots, Apart a 8 (twoMove st).new (twoMove st).size) ∧ (twoMove st).st = st ∧ (twoMoveS st).moveAwake (twoMove st) = true ∧
      (twoMove st).size % 128 = 0 ∧ (∀ j, j < (twoMove st).size → (twoMoveS st).aliasAt ((twoMove st).new + j) = none) ∧
      (twoMoveS st).moveShot (twoMove st) = true) ∧
    ∀ st ∈ [MoveState.protect, .copy, .commit, .release, .abort], (moveS st).pageMove 0 7 = some (aMove st) ∧ (aMove st).id = 7 ∧ (aMove st).slots = [20480] ∧
      (aMove st).st = st ∧ (moveS st).moveShot (aMove st) = true ∧ (moveS st).writes = [] ∧ Apart 20480 8 (aMove st).new (aMove st).size ∧
      (moveS st).moveAwake (aMove st) = true ∧ Apart (aMove st).old (aMove st).size (aMove st).new (aMove st).size ∧ (aMove st).size % 128 = 0 ∧
      ∀ a, (moveS st).aliasAt a = none := by
  refine ⟨by decide +kernel, by decide +kernel, ?_, ?_⟩
  · intro st h
    simp only [List.mem_cons, List.not_mem_nil, or_false] at h
    rcases h with rfl | rfl <;> exact ⟨rfl, rfl, by decide, by unfold Apart; decide, by unfold Apart; decide, rfl,
      by decide +kernel, by decide, fun j _ => plain_moves _ _, by decide +kernel⟩
  intro st h
  simp only [List.mem_cons, List.not_mem_nil, or_false] at h
  rcases h with rfl | rfl | rfl | rfl | rfl <;> exact ⟨rfl, rfl, rfl, rfl, by decide +kernel, rfl, by unfold Apart; decide,
    by decide +kernel, by unfold Apart; decide, by decide, plain_moves _⟩

/-- The small state after boot. -/
def bootS : State := { lS with boot := { State.reset.boot with phase := .running } }
/-- Two windows that may be enabled and may not. -/
def aWindow2 (n : Nat) : FmtWindow := { FmtWindow.reset with enc := 2 ^ 20, alias_ := 2 ^ 30, nblk := n }
def windowS (n : Nat) : State := { bootS with dies := [(0, { Die.reset with windows := [(0, aWindow2 n)] })] }

theorem witness_WindowsAndErrors :
    (∀ n, n = 64 ∨ n = 63 → (windowS n).booted = true ∧ AList.get FmtWindow.reset ((windowS n).die 0).windows 0 = aWindow2 n ∧ (aWindow2 n).en = false) ∧
    (0xC1 : DWord).getLsbD 0 = true ∧
    FmtWindow.ok { aWindow2 64 with fmt := (0xC1 : DWord).toNat / 16 % 16 } 0 [] = true ∧ FmtWindow.ok { aWindow2 63 with fmt := 12 } 0 [] = false ∧
    inHome 4096 (List.replicate 4 (7 : Byte)).length = true ∧ lS.awake 4096 = true ∧
    (∀ k, k < (List.replicate 4 (7 : Byte)).length → lS.aliasAt (4096 + k) = none) ∧ lS.task 0 = some aT := by
  refine ⟨?_, by decide, by decide +kernel, by decide +kernel, by decide +kernel, by decide +kernel, by decide +kernel, rfl⟩
  rintro n (rfl | rfl) <;> exact ⟨by decide, by decide +kernel, rfl⟩

/-! ### Host and resident kernel -/

/-- A queue of two entries of context `ctx`, with one entry to take, whose bytes begin with `bs`. -/
def aHostQ (en : Bool) (ctx : Nat) : HostQueue := { HostQueue.reset with en := en, logn := 1, base := 4096, tail := 1, ctx := ctx }
def hostS (en : Bool) (ctx : Nat) (bs : List Byte) : State :=
  { bootS with dies := [(0, { Die.reset with hostQs := [(0, aHostQ en ctx)] })], mem := Memory.writeBytes [] (16 * 2 ^ 47 + 4096) bs }
/-- The same with a word of that entry poisoned. -/
def sickS (ctx : Nat) : State := { hostS true ctx packetBytes with memPoison := [((16 * 2 ^ 47 + 4096) / 4, true)] }
/-- A control command for context `ctx`, with its word `k` poisoned. -/
def sickControlS (k : Nat) : State :=
  { hostS true 0 (leBytes 2 0x8001 ++ leBytes 2 1 ++ leBytes 4 0 ++ leBytes 8 64) with memPoison := [((16 * 2 ^ 47 + 4096) / 4 + k, true)] }
/-- A launch with its word 9 poisoned. -/
def sickLaunchS : State := { hostS true 1 packetBytes with memPoison := [((16 * 2 ^ 47 + 4096) / 4 + 9, true)] }
/-- The first bytes of a control command with operation `op` and reply address 64. -/
def controlBytes (op : Nat) : List Byte := leBytes 2 0x8001 ++ leBytes 2 op ++ leBytes 4 0 ++ leBytes 8 64

theorem witness_HostQueues :
    (bootS.booted = true ∧ (bootS.hostQ 0 0).en = false ∧ (bootS.hostQ 3 15).en = false ∧ (5 : DWord).getLsbD 0 = true) ∧
    (hostS true 0 []).booted = true ∧ ((hostS true 0 []).hostQ 0 0).en = true ∧
    (∀ c, c = 0 ∨ c = 1 → Takes (hostS true c packetBytes) 0 0 ∧ field (headEntry (hostS true c packetBytes) (aHostQ true c)) 0 2 ≠ 0x8001 ∧
      (hostS true c packetBytes).hostQ 0 0 = aHostQ true c ∧ headPoisoned (hostS true c packetBytes) (aHostQ true c) = false ∧
      Takes (sickS c) 0 0 ∧ (sickS c).hostQ 0 0 = aHostQ true c ∧ headPoisoned (sickS c) (aHostQ true c) = true ∧
      headLost (sickS c) (aHostQ true c) 0 = true) ∧
    (Takes sickLaunchS 0 0 ∧ sickLaunchS.hostQ 0 0 = aHostQ true 1 ∧ headPoisoned sickLaunchS (aHostQ true 1) = true ∧
      field (headEntry sickLaunchS (aHostQ true 1)) 0 2 ≠ 0x8001) ∧
    (∀ k, k = 2 ∨ k = 9 → Takes (sickControlS k) 0 0 ∧ (sickControlS k).hostQ 0 0 = aHostQ true 0 ∧ headPoisoned (sickControlS k) (aHostQ true 0) = true ∧
      headLost (sickControlS k) (aHostQ true 0) 0 = false ∧ field (headEntry (sickControlS k) (aHostQ true 0)) 0 2 = 0x8001 ∧
      headLost (sickControlS k) (aHostQ true 0) 2 = decide (k = 2) ∧ headLost (sickControlS k) (aHostQ true 0) 3 = false ∧
      field (headEntry (sickControlS k) (aHostQ true 0)) 8 8 = 64) ∧
    ∀ c op, (c, op) ∈ [(0, 0), (0, 1), (0, 4), (0, 5), (0, 6), (0, 7), (1, 1)] → Takes (hostS true c (controlBytes op)) 0 0 ∧
      (hostS true c (controlBytes op)).hostQ 0 0 = aHostQ true c ∧
      headPoisoned (hostS true c (controlBytes op)) (aHostQ true c) = false ∧ field (headEntry (hostS true c (controlBytes op)) (aHostQ true c)) 0 2 = 0x8001 ∧
      field (headEntry (hostS true c (controlBytes op)) (aHostQ true c)) 2 2 = op ∧ field (headEntry (hostS true c (controlBytes op)) (aHostQ true c)) 8 8 % 4 = 0 ∧
      (controlOf op (headEntry (hostS true c (controlBytes op)) (aHostQ true c))).address % 4096 = 0 := by
  refine ⟨by decide +kernel, by decide, by decide +kernel, ?_,
    ⟨⟨by decide +kernel, by decide +kernel, by decide +kernel, by decide, by decide⟩, by decide +kernel, by decide +kernel, by decide +kernel⟩, ?_, ?_⟩
  · rintro c (rfl | rfl) <;> exact ⟨⟨by decide +kernel, by decide +kernel, by decide +kernel, by decide, by decide⟩, by decide +kernel, by decide +kernel, by decide +kernel,
      ⟨by decide +kernel, by decide +kernel, by decide +kernel, by decide, by decide⟩, by decide +kernel, by decide +kernel, by decide +kernel⟩
  · rintro k (rfl | rfl) <;> exact ⟨⟨by decide +kernel, by decide +kernel, by decide +kernel, by decide, by decide⟩, by decide +kernel, by decide +kernel,
      by decide +kernel, by decide +kernel, by decide +kernel, by decide +kernel, by decide +kernel⟩
  · intro c op h
    simp only [List.mem_cons, List.not_mem_nil, or_false, Prod.mk.injEq] at h
    rcases h with ⟨rfl, rfl⟩ | ⟨rfl, rfl⟩ | ⟨rfl, rfl⟩ | ⟨rfl, rfl⟩ | ⟨rfl, rfl⟩ | ⟨rfl, rfl⟩ | ⟨rfl, rfl⟩ <;>
      exact ⟨⟨by decide +kernel, by decide +kernel, by decide +kernel, by decide, by decide⟩, by decide +kernel, by decide +kernel, by decide +kernel, by decide +kernel,
        by decide +kernel, by decide +kernel⟩

/-- System software's command, and one that came from a queue. -/
def aControl (ctx die : Nat) (reply : Option Nat) : ControlCmd :=
  { ctx := ctx, vbase := 0, length := 4096, die := die, nonce := [], address := 4096, imageLen := 4, tolerance := 20, reply := reply }
/-- A state with a page of context 1 on die 0, a launch that is walking, one of its tasks queued, and a command of queue 0. -/
def controlS (op : Nat) (c : ControlCmd) (begun : Bool := false) (moves : List PageMove := []) (away : AList Die := []) (evacuating : Bool := false) : State :=
  { walkS aT [] with contexts := [(1, some (wordContext 3))], boot := { State.reset.boot with phase := .running }, cmds := [⟨0, op, c, begun⟩], launches := [(0, some (aLaunch .walking))],
                     dies := (0, { Die.reset with homeQ := [(0, [aQueued none])], moves := moves, evacuating := evacuating }) :: away }
/-- The other dies offline. -/
def othersOff : AList Die := [1, 2, 3].map fun d => (d, { Die.reset with online := false })

/-- A page of die 0 that the other dies have room for. -/
def pagedS : State := controlS 2 (aControl 1 0 none) false [aMove .copy]
theorem le_fold {α : Type} (f : α → Nat) (l : List α) (n : Nat) : n ≤ l.foldl (fun n t => n + f t) n ∧ ∀ a ∈ l, f a ≤ l.foldl (fun n t => n + f t) n := by
  induction l generalizing n with
  | nil => exact ⟨Nat.le_refl n, fun a h => absurd h (by simp)⟩
  | cons b t ih =>
    refine ⟨Nat.le_trans (Nat.le_add_right n (f b)) (ih _).1, fun a h => ?_⟩
    rcases List.mem_cons.1 h with rfl | h
    · exact Nat.le_trans (Nat.le_add_left _ n) (ih _).1
    · exact (ih _).2 a h
theorem evacuates : pagedS.canEvacuate 0 = true := by
  refine decide_eq_true (Nat.le_trans ?_ ((le_fold pagedS.freeBytes _ 0).2 1 (by decide +kernel)))
  decide +kernel

theorem witness_ControlCommands :
    (∀ op ∈ [1, 2, 3, 4, 5, 6], ∀ r, r = none ∨ r = some 64 → ∀ ctx, ctx = 1 ∨ ctx = 2 → ∀ d, d = 0 ∨ d = 1 → ∀ b m a e,
      Due (controlS op (aControl ctx d r) b m a e) op (aControl ctx d r)) ∧
    (controlS 1 (aControl 1 0 none)).created 1 = true ∧ (controlS 1 (aControl 1 0 none)).created 2 = false ∧
    (pagedS.pagesOn 0 ≠ [] ∧ pagedS.canEvacuate 0 = true ∧ (pagedS.die 0).evacuating = false ∧ (controlS 2 (aControl 1 0 none)).pagesOn 0 = [] ∧
      ((controlS 2 (aControl 1 0 none)).die 0).moves = []) ∧
    ((controlS 2 (aControl 1 0 none) false [aMove .copy] othersOff).pagesOn 0 ≠ [] ∧
      (controlS 2 (aControl 1 0 none) false [aMove .copy] othersOff).canEvacuate 0 = false ∧
      ((controlS 2 (aControl 1 0 none) false [aMove .copy] othersOff).die 0).evacuating = false) ∧
    ((controlS 2 (aControl 1 0 none) false [aMove .copy] [] true).pagesOn 0 ≠ [] ∧
      ((controlS 2 (aControl 1 0 none) false [aMove .copy] [] true).die 0).evacuating = true) ∧
    (∀ b : Bool, (controlS 3 (aControl 1 0 (some 64)) b).findCmd 3 (aControl 1 0 (some 64)) = some ⟨0, 3, aControl 1 0 (some 64), b⟩) ∧
    (({ controlS 3 (aControl 1 0 (some 64)) true with tasks := [] } : State).findCmd 3 (aControl 1 0 (some 64)) =
      some ⟨0, 3, aControl 1 0 (some 64), true⟩ ∧ (0, some aT) ∈ (controlS 3 (aControl 1 0 (some 64)) true).tasks ∧ aT.ctx = 1) ∧
    (controlS 1 (aControl 1 0 none)).launch 0 = some (aLaunch .walking) ∧ (aLaunch .walking).ctx = 1 ∧ (controlS 1 (aControl 1 0 none)).task 0 = some aT ∧
    (controlS 4 (aControl 1 0 none)).booted = true ∧ (controlS 4 (aControl 1 0 none)).hand.st = .running ∧
    (controlS 4 (aControl 1 0 none)).hand.st ≠ .adopting ∧ Apart 4096 384 64 4 ∧
    (lehrLatency 2 ≤ 20 ∧ ∀ m, 2 < m → m ≤ 4 → 20 < lehrLatency m) := by
  refine ⟨?_, by decide +kernel, by decide +kernel,
    ⟨by decide +kernel, evacuates, by decide +kernel, by decide +kernel, by decide +kernel⟩, by decide +kernel, by decide +kernel, fun b => by cases b <;> decide +kernel,
    ⟨by decide +kernel, List.mem_singleton.2 rfl, rfl⟩, rfl, rfl, rfl, by decide, by decide, by decide, by unfold Apart; decide, by decide, ?_⟩
  · intro op _ r hr ctx _ d _ b m a e
    rcases hr with rfl | rfl
    · exact .inl rfl
    · exact .inr (by simp [State.findCmd, controlS]; decide)
  · intro m h1 h2
    rcases (by omega : m = 3 ∨ m = 4) with rfl | rfl <;> decide

/-- A context installed with nothing of it running, and one with a task and no launch. -/
def idleS : State := { bootS with launches := [], tasks := [] }

theorem witness_RegistersAndContexts :
    (bootS.booted = true ∧ (AList.get FmtWindow.reset (bootS.die 3).windows 7).en = false ∧ (bootS.engine.slot 15).cen = false ∧ (bootS.hostQ 3 15).en = false ∧
      (2 ^ 16 + 1 : DWord).getLsbD 0 = true) ∧
    (bootS.engine.hot < 65536 ∧ bootS.engine.cold < 65536 ∧ bootS.engine.idle < 65536 ∧ bootS.engine.w < 256) ∧ lS.booted = false ∧
    (bootS.created 2 = false ∧ bootS.noTasks 2 = true ∧ (bootS.launchesOf 2 fun _ => false) = true) ∧
    idleS.context 1 = some (wordContext 3) ∧ (wordContext 3).torn = false ∧ idleS.noTasks 1 = true ∧ idleS.launchesOf 1 Launch.idleMap = true ∧
    bootS.context 1 = some (wordContext 3) ∧ bootS.noTasks 1 = false := by
  refine ⟨by decide +kernel, by decide, by decide, by decide +kernel, rfl, rfl, by decide, by decide, rfl, by decide⟩

/-- The state at reset in another phase of boot or of hand-over. -/
def phaseS (p : BootPhase) (tried : List Nat) : State := { State.reset with boot := { State.reset.boot with phase := p, tried := tried } }
def handS (st : HandState) : State := { State.reset with hand := { State.reset.hand with st := st } }

theorem witness_BootAndHandOver :
    State.reset.boot.phase = .off ∧
    (∀ p, p = .rom ∨ p = .recovery → (phaseS p [2, 0]).boot.phase = p ∧ 1 ∉ (phaseS p [2, 0]).boot.tried ∧ ∀ k, k < 1 → k ∈ (phaseS p [2, 0]).boot.tried) ∧
    (∀ st ∈ [HandState.staged, .reverted, .paused, .adopting, .accepting], (handS st).hand.st = st ∧ ∀ c ∈ (handS st).cmds, c.op ≠ 4) := by
  refine ⟨rfl, fun p hp => ⟨by rcases hp with rfl | rfl <;> rfl, by show 1 ∉ [2, 0]; decide, ?_⟩, ?_⟩
  · intro k h; obtain rfl : k = 0 := by omega
    show 0 ∈ [2, 0]; decide
  · intro st _; exact ⟨rfl, fun c h => by cases h⟩

/-- A reduction payload of one element of version 1 on port 15, which is up. -/
def aPayload : List Byte := leBytes 2 1 ++ [1, 0] ++ leBytes 8 0 ++ leBytes 2 1 ++ leBytes 2 15 ++ leBytes 8 0 ++ leBytes 8 0 ++ leBytes 8 0
def lehrS (tol level : Nat) (exit : Option Nat) : State := { State.reset with lehr := { tolerance := tol, level := level, exit := exit } }

/-- An MSTART waits for the matrix units. -/
def needS : State := { resumeS with tasks := [(0, some (withGang { aG with frontier := [resumeE] }))], lehr := { tolerance := 5000, level := 3, exit := none } }

theorem witness_LinksAndPower :
    (linkExists (.viaduct 3) = true ∧ lS.booted = false ∧ bootS.booted = true ∧ 3 ∉ bootS.edgesDown ∧ bootS.linkRuns (.viaduct 3) = true ∧ bootS.linkRuns (.fabric 15) = true) ∧
    (({ State.reset with versions := [(.fabric 15, some 1)] } : State).versions.find? (fun x => x.1 == .fabric 15) = some (.fabric 15, some 1) ∧
      payloadOk 1 aPayload = true ∧ field aPayload 14 2 = 15 ∧ (State.reset.die (15 / 4)).online = true ∧ State.reset.sameFrac aPayload = true) ∧
    (lehrLatency 4 ≤ (lehrS 5000 3 none).lehr.tolerance ∧ (lehrS 5000 3 none).lehrHolds 4 = true ∧ (lehrS 5000 3 none).lehr.level < 4 ∧
      (lehrS 5000 3 none).lehr.exit = none) ∧
    (1 < needS.lehr.level ∧ needS.lehr.exit = none ∧ (1, true) ∈ needS.lehrNeeds) ∧ (lehrS 5000 3 (some 1)).lehr.exit = some 1 := by
  refine ⟨by decide, by decide +kernel, by decide +kernel, ⟨by decide, rfl, by decide +kernel⟩, rfl⟩

/-! ### Issue, decoding, the machine -/

/-- The state at reset with one word placed; the entry that it offers, and the state that runs it. -/
def placedS (w : Nat) : State := State.reset.withFetchWord 32 w
def offeredS (w : Nat) : State := ((placedS w).tickOn.modGang 0 0 fun gg => { gg with frontier := [] })

theorem offer_placed (w : Nat) (h : isMatrixWord (BitVec.ofNat 32 (w % 2 ^ 32)) = false) :
    (placedS w).tickOn.offer 0 0 = some (aE, offeredS w) := by
  simp only [offeredS, placedS, State.withFetchWord, h]; rfl

def errOf {ε α : Type} (x : Except ε α) : Option ε := match x with
  | .error e => some e
  | .ok _ => none
theorem err_of {ε α : Type} {x : Except ε α} {e : ε} (h : errOf x = some e) : x = .error e := by
  cases x with
  | error a => cases h; rfl
  | ok a => cases h

/-- A stream whose code holds a lane word. -/
def badStreamS : State :=
  let s := placedS 0xB0800000
  { s with clusters := AList.set Cluster.reset s.clusters 0 { s.cluster 0 with mslots := (s.cluster 0).mslots.map fun p => (p.1, p.2.map fun x => { x with code := (wordSlot 0x000110C0).code }) } }

/-- uadd s1, s2, s3 at the head, while another entry of its gang waits for the reply of a ring word. -/
def uniformWaitS : State := (placedS 0x800110C0).modGang 0 0 fun gg => { gg with frontier := gg.frontier ++ [{ readyAt 4 0 2 with st := .stall (.reply 7) }] }

theorem witness_StepRunsDecoded :
    (∀ w, w = 0x000110C0 ∨ w = 0x7FE00000 → (placedS w).turn = some (.gang 0 0) ∧ (placedS w).tickOn.offer 0 0 = some (aE, offeredS w) ∧
      (offeredS w).codeSlot (.gang 0 0) aE.pc = some (wordSlot w) ∧ (wordSlot w).landed = true ∧ AList.get false (wordSlot w).poison (aE.pc.toNat % 8192 / 4) = false) ∧
    (∃ i, decodeFor ((offeredS 0x000110C0).mapOf 0) false (aE.pc.toNat % 8192) ((wordSlot 0x000110C0).word (aE.pc.toNat % 8192)) = .ok i ∧
      (offeredS 0x000110C0).awaits (.gang 0 0) aE ((wordSlot 0x000110C0).word (aE.pc.toNat % 8192)) i = false) ∧
    (∃ i s1, uniformWaitS.turn = some (.gang 0 0) ∧ uniformWaitS.tickOn.offer 0 0 = some (aE, s1) ∧ s1.codeSlot (.gang 0 0) aE.pc = some (wordSlot 0x800110C0) ∧
      (wordSlot 0x800110C0).landed = true ∧ AList.get false (wordSlot 0x800110C0).poison (aE.pc.toNat % 8192 / 4) = false ∧
      decodeFor (s1.mapOf 0) false (aE.pc.toNat % 8192) ((wordSlot 0x800110C0).word (aE.pc.toNat % 8192)) = .ok i ∧
      s1.awaits (.gang 0 0) aE ((wordSlot 0x800110C0).word (aE.pc.toNat % 8192)) i = true) ∧
    (∃ c, decodeFor ((offeredS 0x7FE00000).mapOf 0) false (aE.pc.toNat % 8192) ((wordSlot 0x7FE00000).word (aE.pc.toNat % 8192)) = .error c) ∧
    (∃ e i, (placedS 0xB0800000).turn = some (.stream 0 0) ∧ (placedS 0xB0800000).tickOn.streamOffer 0 0 = some e ∧
      (placedS 0xB0800000).tickOn.codeSlot (.stream 0 0) e.pc = some (wordSlot 0xB0800000) ∧ (wordSlot 0xB0800000).landed = true ∧
      AList.get false (wordSlot 0xB0800000).poison (e.pc.toNat % 8192 / 4) = false ∧
      decodeFor ((placedS 0xB0800000).tickOn.mapOf ((placedS 0xB0800000).tickOn.gangOf (.stream 0 0)).1) true (e.pc.toNat % 8192)
        ((wordSlot 0xB0800000).word (e.pc.toNat % 8192)) = .ok i) ∧
    (∃ e c, badStreamS.turn = some (.stream 0 0) ∧ badStreamS.tickOn.streamOffer 0 0 = some e ∧
      badStreamS.tickOn.codeSlot (.stream 0 0) e.pc = some (wordSlot 0x000110C0) ∧ (wordSlot 0x000110C0).landed = true ∧
      AList.get false (wordSlot 0x000110C0).poison (e.pc.toNat % 8192 / 4) = false ∧
      decodeFor (badStreamS.tickOn.mapOf (badStreamS.tickOn.gangOf (.stream 0 0)).1) true (e.pc.toNat % 8192)
        ((wordSlot 0x000110C0).word (e.pc.toNat % 8192)) = .error c) ∧
    ∃ i : Instr, ({ State.reset with turns := [.event i] } : State).turn = some (.event i) ∧ i.isWord = false := by
  refine ⟨?_, ⟨.iadd ⟨1, 2, 3, 0, false, false, false⟩, ok_of (by decide +kernel), by decide +kernel⟩, ⟨.uadd ⟨1, 2, 3, 0⟩, _, by decide +kernel, rfl, by decide +kernel, rfl, by decide +kernel, ok_of (by decide +kernel), by decide +kernel⟩, ⟨1, ?_⟩, ⟨sE, .mend ⟨0⟩, by decide +kernel, by decide +kernel, by decide +kernel, rfl, by decide +kernel, ok_of (by decide +kernel)⟩,
    ⟨sE, 8, by decide +kernel, by decide +kernel, by decide +kernel, rfl, by decide +kernel, err_of (by decide +kernel)⟩, .powerOn 0, rfl, rfl⟩
  · rintro w (rfl | rfl) <;> exact ⟨by decide +kernel, offer_placed _ (by decide +kernel), by decide +kernel, rfl, by decide +kernel⟩
  · exact err_of (by decide +kernel)

/-- A lane word, and a uniform word of a stream, in the last word of their segments, with the fault record free or busy. -/
def endE : Entry := { laneE with pc := 0x1FFC }
def lastX : Stream := { aX with pc := 0x1FFC }
def lastStreamS (t : Task) : State := { onStream lastX { sE with pc := 0x1FFC } with tasks := [(0, some t)] }
theorem takes_last (t : Task) (r : LaneRow) (hr : laneRow (.iadd ⟨27, 1, 2, 0, false, false, false⟩) = some r)
    (h : t = aT ∨ t = faultT 15 1 .fault) : r.Takes t 0 endE ((t.gang 0).active endE.mask r.guard) ⟨none, none⟩ := by
  cases hr
  rcases h with rfl | rfl <;>
    exact ⟨⟨rfl, rfl⟩, fun p _ _ => fun _ _ _ => ⟨rfl, rfl⟩, (fun _ h => by cases h), fun d _ _ => fun _ _ _ => rfl, (fun _ _ _ h => by cases h)⟩

theorem witness_LastWord : ∀ t, t = aT ∨ t = faultT 15 1 .fault →
    (∃ i r k, laneRow i = some r ∧ Issues (on t endE) 0 0 endE t ∧ endE.pc.toNat % 8192 = 0x1FFC ∧
      r.Takes t 0 endE ((t.gang 0).active endE.mask r.guard) k) ∧
    ∃ i r, uniformRow i = some r ∧ (lastStreamS t).cur = some ⟨.stream 0 0, { sE with pc := 0x1FFC }⟩ ∧ (lastStreamS t).stream 0 0 = some lastX ∧
      (lastStreamS t).task lastX.h = some t ∧ streamBit lastX r.guard = true ∧ sE.st.issued = false ∧ lastX.g = 0 ∧
      (t.gang 0).record.busy = decide (t = faultT 15 1 .fault) := by
  intro t h
  refine ⟨⟨.iadd ⟨27, 1, 2, 0, false, false, false⟩, _, _, rfl, ?_, by decide, takes_last t _ rfl h⟩, .uadd ⟨1, 2, 3, 0⟩, _, rfl, rfl, by rfl, rfl, by decide, rfl, rfl, ?_⟩ <;>
    rcases h with rfl | rfl
  · exact ⟨rfl, rfl, by decide⟩
  · exact ⟨rfl, rfl, by decide⟩
  · decide
  · decide

theorem witness_IssueOrder :
    (∃ s', (on (stopT .running) laneE).task 0 = some (stopT .running) ∧ (on (stopT .running) laneE).offer 0 0 = some (laneE, s') ∧ laneE.stalled = none ∧ laneE.called = false) ∧
    ((stopT .running).issues = true ∧ laneE ∈ entries (on (stopT .running) laneE) 0 0 ∧ (stopT .running).offers 0 laneE = true ∧
      ∀ y ∈ entries (on (stopT .running) laneE) 0 0, y.stalled = none) ∧
    ((on (stuckT (.stall (.reply 7))) laneE).task 0 = some (stuckT (.stall (.reply 7))) ∧
      entries (on (stuckT (.stall (.reply 7))) laneE) 0 0 = [{ laneE with st := .stall (.reply 7) }] ∧
      ({ laneE with st := .stall (.reply 7) } : Entry).called = false ∧
      (on (stuckT (.stall (.reply 7))) laneE).resumable (.gang 0 0) (.reply 7) = false) ∧
    (∃ i r, uniformRow i = some r ∧ ((faultT 15 1 .fault).gang 0).record.busy = true ∧ aG.record.busy = false ∧
      (on (faultT 15 1 .fault) { laneE with pc := 0x1FFC }).task 0 = some (faultT 15 1 .fault)) ∧
    ∃ i r, uniformRow i = some r ∧ (on aT { laneE with pc := 0x1FFC }).cur = some ⟨.gang 0 0, { laneE with pc := 0x1FFC }⟩ ∧
      (on aT { laneE with pc := 0x1FFC }).task 0 = some aT ∧ laneE.mask ≠ 0 ∧ laneE.st.issued = false := by
  refine ⟨⟨_, rfl, rfl, rfl, rfl⟩, ⟨by decide, List.mem_singleton.2 rfl, by decide, ?_⟩, ⟨rfl, rfl, rfl, by decide⟩, ⟨.uadd ⟨1, 2, 3, 0⟩, _, rfl, rfl, rfl, rfl⟩,
    .uadd ⟨1, 2, 3, 0⟩, _, rfl, rfl, rfl, by decide, rfl⟩
  intro y hy
  obtain rfl := List.mem_singleton.1 hy
  rfl

theorem witness_EncodeThenDecode : ∃ i : Instr, i.isWord = true ∧ i.wellFormed = true :=
  ⟨.iadd ⟨1, 2, 3, 7, false, true, true⟩, rfl, rfl⟩

theorem witness_DecodeThenEncode : ∃ i, decodeWord 3 0x000110C0 = .ok i := ⟨_, ok_of (v := .iadd ⟨1, 2, 3, 0, false, false, false⟩) (by decide +kernel)⟩

theorem witness_LaneFrame : ∃ i r s', laneRow i = some r ∧ aS.cur = some ⟨.gang 0 0, aE⟩ ∧ aS.task 0 = some aT ∧ exec i aS = .next s' :=
  ⟨.iadd ⟨1, 2, 3, 0, false, false, false⟩, _, _, rfl, rfl, rfl, rfl⟩

theorem witness_MemoryStaysCanonical : ∃ s s' : State, Memory.wf s.mem = true ∧ step s = .next s' :=
  ⟨{ State.reset with turns := [.event (.powerOn 0)] }, _, rfl, rfl⟩
/-! ## Ill-formed words

One term for each check of the operand fields, with the cause that refuses it (03 Table 3-7). -/

theorem test_ill_formed : ([
    (.iadd ⟨1, 28, 29, 0, false, false, false⟩, .queuePort), (.imad ⟨28, 1, 2, 0, false, false, false⟩, .queuePort),
    (.iadd ⟨1, 28, 2, 0, true, false, false⟩, .queuePort), (.iadd ⟨1, 2, 31, 0, false, false, true⟩, .queuePort),
    (.mov ⟨1, 28, 0, false, true⟩, .queuePort), (.icmpEq ⟨1, 0, 28, 28, 0, false, false, false⟩, .queuePort),
    (.movi ⟨28, 1⟩, .queuePort), (.movsr ⟨1, 0x1E, 0⟩, .immediate), (.cvt ⟨1, 2, 0x52, 0⟩, .immediate),
    (.ld32 ⟨28, 1, 6, 0, 0⟩, .queuePort), (.ld64 ⟨1, 2, 6, 0, 0⟩, .group), (.ld32 ⟨1, 2, 5, 0, 0⟩, .group),
    (.ld32 ⟨1, 2, 6, 0, 3⟩, .policy), (.st32 ⟨1, 30, 6, 0, 0, true⟩, .queuePort), (.ldaq32 ⟨1, 2, 6, 0, 7⟩, .scope),
    (.atomCas128 ⟨24, 2, 4, 0, 6, 3⟩, .group), (.atomCas128 ⟨8, 2, 4, 0, 7, 3⟩, .scope), (.pref ⟨2, 4, 0, 3⟩, .policy),
    (.fence ⟨7, 0⟩, .scope), (.lld128 ⟨2, 3, 0, 0⟩, .group), (.tebq ⟨28, 1, 0, 0, 0⟩, .queuePort), (.callr ⟨3, 0⟩, .group),
    (.jmpr ⟨28, 0⟩, .queuePort), (.join ⟨1, 3, 0⟩, .reserved), (.bara ⟨0, 96, 0⟩, .immediate),
    (.rkpush ⟨0, 28, 29, 0, false, false, false⟩, .queuePort), (.acadd ⟨0, 28, 0, false, true⟩, .queuePort),
    (.rktest ⟨1, 0, 28, 29, 0, 0⟩, .queuePort), (.uld64 ⟨3, 4, 0, 0⟩, .group), (.launch ⟨1, 3, 0⟩, .group),
    (.waitc ⟨0, 5, 0⟩, .immediate), (.umovsr ⟨1, 0x1E, 0⟩, .immediate), (.acrd ⟨3, 1, 0, 0⟩, .group)] :
      List (Instr × Reject)).all (fun p => !p.1.wellFormed && p.1.check == some p.2) = true := by decide +kernel

/-- The words of 03 Table 3-8 and 06 that are refused, each with its cause. -/
theorem test_refused_words : ([(2, 0x4F681106, 1), (3, 0x4F781106, 5), (3, 0x4F681107, 3), (3, 0x409C1180, 4), (3, 0x20C94040, 2), (3, 0xFFE00000, 1),
    (2, 0xFFE00000, 1), (3, 0x02253040, 2), (3, 0x80E531C2, 2), (3, 0x7FE00000, 1)] : List (Nat × Word × Nat)).all
      (fun p => (errOf (decodeWord p.1 p.2.1)).map Reject.cause == some p.2.2) = true := by decide +kernel

/-! ## Decoding

One word of every instruction that has one, written out from the encodings of 03: the opcode of its table, d = 8, a = 16, b = 24, sb = 12,
g = 3, and so on. -/

/-- A word is this instruction under a decode table. -/
noncomputable def reads (p : Nat × Word × Instr) : Bool := okIs (decodeWord p.1 p.2.1) p.2.2

/-- Words that 05, 06 and 07 print beside their lines. -/
theorem test_decode_printed : ([
    (3, 0x00AA4240, .imad ⟨10, 8, 9, 0, false, false, false⟩), (3, 0x02253000, .popc ⟨5, 6, 0, false, false⟩),
    (3, 0x020638D0, .sar ⟨6, 7, 3, 2, false, false, false⟩), (3, 0x04462140, .icmpLt ⟨1, 2, 4, 5, 0, false, false, false⟩),
    (3, 0x062C4200, .fcmpUno ⟨3, 0, 8, 8, 0, false, false, false⟩), (3, 0x064808C0, .pand ⟨2, 0, 1, 3, 0⟩),
    (3, 0x08273878, .andi ⟨7, 7, 15, 0⟩), (3, 0x08A62820, .shri ⟨6, 5, 4, 0⟩), (3, 0x0A231234, .movhi ⟨3, 0x1234⟩),
    (3, 0x206D4300, .ffma ⟨13, 8, 12, 0, false, false, false⟩), (3, 0x214A2140, .bfma2 ⟨10, 4, 5, 0, false, false, false⟩),
    (3, 0x22094002, .rcp ⟨9, 8, 0, false, true⟩), (3, 0x24052310, .cvt ⟨5, 4, 0x62, 0⟩), (3, 0x80E531C1, .ushr ⟨5, 6, 7, 0, true⟩),
    (3, 0x820427F8, .uaddi ⟨4, 4, 0xFF, 0⟩), (3, 0x81484A90, .usel ⟨8, 9, 10, 2⟩), (3, 0x8306FFFE, .umovi ⟨6, 0xFFFE⟩),
    (3, 0x84422140, .ucmpLt ⟨2, 4, 5, 0⟩), (3, 0xA6272800, .qstat ⟨7, 5, 0⟩)] : List (Nat × Word × Instr)).all reads = true := by
  decide +kernel

theorem test_decode_1 : ([
    (3, 0x0008861B, .iadd ⟨8, 16, 24, 3, false, true, true⟩),
    (3, 0x0028861B, .isub ⟨8, 16, 24, 3, false, true, true⟩),
    (3, 0x0048861B, .imul ⟨8, 16, 24, 3, false, true, true⟩),
    (3, 0x0068861B, .imulhi ⟨8, 16, 24, 3, false, true, true⟩),
    (3, 0x0088861B, .imulhu ⟨8, 16, 24, 3, false, true, true⟩),
    (3, 0x00A8861B, .imad ⟨8, 16, 24, 3, false, true, true⟩),
    (3, 0x00C8861B, .imin ⟨8, 16, 24, 3, false, true, true⟩),
    (3, 0x00E8861B, .imax ⟨8, 16, 24, 3, false, true, true⟩),
    (3, 0x0108861B, .iminu ⟨8, 16, 24, 3, false, true, true⟩),
    (3, 0x0128861B, .imaxu ⟨8, 16, 24, 3, false, true, true⟩),
    (3, 0x0148861B, .and ⟨8, 16, 24, 3, false, true, true⟩),
    (3, 0x0168861B, .or ⟨8, 16, 24, 3, false, true, true⟩),
    (3, 0x0188861B, .xor ⟨8, 16, 24, 3, false, true, true⟩),
    (3, 0x01A8861B, .andn ⟨8, 16, 24, 3, false, true, true⟩),
    (3, 0x01C8861B, .shl ⟨8, 16, 24, 3, false, true, true⟩),
    (3, 0x01E8861B, .shr ⟨8, 16, 24, 3, false, true, true⟩),
    (3, 0x0208861B, .sar ⟨8, 16, 24, 3, false, true, true⟩),
    (3, 0x0228801A, .popc ⟨8, 16, 3, false, true⟩),
    (3, 0x0248801A, .clz ⟨8, 16, 3, false, true⟩),
    (3, 0x0268801A, .brev ⟨8, 16, 3, false, true⟩),
    (3, 0x0288861B, .iaddsat ⟨8, 16, 24, 3, false, true, true⟩),
    (3, 0x0416861B, .icmpEq ⟨5, 2, 16, 24, 3, false, true, true⟩),
    (3, 0x0436861B, .icmpNe ⟨5, 2, 16, 24, 3, false, true, true⟩),
    (3, 0x0456861B, .icmpLt ⟨5, 2, 16, 24, 3, false, true, true⟩)] : List (Nat × Word × Instr)).all reads = true := by
  decide +kernel

theorem test_decode_2 : ([
    (3, 0x0476861B, .icmpLe ⟨5, 2, 16, 24, 3, false, true, true⟩),
    (3, 0x0496861B, .icmpGt ⟨5, 2, 16, 24, 3, false, true, true⟩),
    (3, 0x04B6861B, .icmpGe ⟨5, 2, 16, 24, 3, false, true, true⟩),
    (3, 0x04D6861B, .icmpLtu ⟨5, 2, 16, 24, 3, false, true, true⟩),
    (3, 0x04F6861B, .icmpLeu ⟨5, 2, 16, 24, 3, false, true, true⟩),
    (3, 0x0516861B, .icmpGtu ⟨5, 2, 16, 24, 3, false, true, true⟩),
    (3, 0x0536861B, .icmpGeu ⟨5, 2, 16, 24, 3, false, true, true⟩),
    (3, 0x0556861B, .fcmpEq ⟨5, 2, 16, 24, 3, false, true, true⟩),
    (3, 0x0576861B, .fcmpNe ⟨5, 2, 16, 24, 3, false, true, true⟩),
    (3, 0x0596861B, .fcmpLt ⟨5, 2, 16, 24, 3, false, true, true⟩),
    (3, 0x05B6861B, .fcmpLe ⟨5, 2, 16, 24, 3, false, true, true⟩),
    (3, 0x05D6861B, .fcmpGt ⟨5, 2, 16, 24, 3, false, true, true⟩),
    (3, 0x05F6861B, .fcmpGe ⟨5, 2, 16, 24, 3, false, true, true⟩),
    (3, 0x0616861B, .fcmpOrd ⟨5, 2, 16, 24, 3, false, true, true⟩),
    (3, 0x0636861B, .fcmpUno ⟨5, 2, 16, 24, 3, false, true, true⟩),
    (3, 0x065630D8, .pand ⟨5, 2, 6, 3, 3⟩),
    (3, 0x067630D8, .por ⟨5, 2, 6, 3, 3⟩),
    (3, 0x069630D8, .pxor ⟨5, 2, 6, 3, 3⟩),
    (3, 0x06B63018, .pnot ⟨5, 2, 6, 3⟩),
    (3, 0x06C8861B, .sel ⟨8, 16, 24, 3, false, true, true⟩),
    (3, 0x06E83018, .ballot ⟨8, 6, 3⟩),
    (3, 0x0708861B, .shfl ⟨8, 16, 24, 3, false, true, true⟩),
    (3, 0x0728861B, .shflx ⟨8, 16, 24, 3, false, true, true⟩),
    (3, 0x08088523, .iaddi ⟨8, 16, 0xa4, 3⟩)] : List (Nat × Word × Instr)).all reads = true := by
  decide +kernel

theorem test_decode_3 : ([
    (3, 0x08288523, .andi ⟨8, 16, 0xa4, 3⟩),
    (3, 0x08488523, .ori ⟨8, 16, 0xa4, 3⟩),
    (3, 0x08688523, .xori ⟨8, 16, 0xa4, 3⟩),
    (3, 0x088880AB, .shli ⟨8, 16, 21, 3⟩),
    (3, 0x08A880AB, .shri ⟨8, 16, 21, 3⟩),
    (3, 0x08C880AB, .sari ⟨8, 16, 21, 3⟩),
    (3, 0x08E88523, .imuli ⟨8, 16, 0xa4, 3⟩),
    (3, 0x0A08A5C3, .movi ⟨8, 0xa5c3⟩),
    (3, 0x0A28A5C3, .movhi ⟨8, 0xa5c3⟩),
    (3, 0x0C08801A, .mov ⟨8, 16, 3, false, true⟩),
    (3, 0x0C288018, .movs ⟨8, 16, 3⟩),
    (3, 0x0C480053, .movsr ⟨8, 10, 3⟩),
    (3, 0x0C680018, .movp ⟨8, 3⟩),
    (3, 0x0C80801A, .pmov ⟨16, 3, false, true⟩),
    (3, 0x2008861B, .fadd ⟨8, 16, 24, 3, false, true, true⟩),
    (3, 0x2028861B, .fsub ⟨8, 16, 24, 3, false, true, true⟩),
    (3, 0x2048861B, .fmul ⟨8, 16, 24, 3, false, true, true⟩),
    (3, 0x2068861B, .ffma ⟨8, 16, 24, 3, false, true, true⟩),
    (3, 0x2088861B, .fmin ⟨8, 16, 24, 3, false, true, true⟩),
    (3, 0x20A8861B, .fmax ⟨8, 16, 24, 3, false, true, true⟩),
    (3, 0x20C8801A, .fabs ⟨8, 16, 3, false, true⟩),
    (3, 0x20E8801A, .fneg ⟨8, 16, 3, false, true⟩),
    (3, 0x2108861B, .badd2 ⟨8, 16, 24, 3, false, true, true⟩),
    (3, 0x2128861B, .bmul2 ⟨8, 16, 24, 3, false, true, true⟩)] : List (Nat × Word × Instr)).all reads = true := by
  decide +kernel

theorem test_decode_4 : ([
    (3, 0x2148861B, .bfma2 ⟨8, 16, 24, 3, false, true, true⟩),
    (3, 0x2168861B, .hfma2 ⟨8, 16, 24, 3, false, true, true⟩),
    (3, 0x2208801A, .rcp ⟨8, 16, 3, false, true⟩),
    (3, 0x2228801A, .rsq ⟨8, 16, 3, false, true⟩),
    (3, 0x2248801A, .exp2 ⟨8, 16, 3, false, true⟩),
    (3, 0x2268801A, .log2 ⟨8, 16, 3, false, true⟩),
    (3, 0x2288801A, .sin ⟨8, 16, 3, false, true⟩),
    (3, 0x22A8801A, .cos ⟨8, 16, 3, false, true⟩),
    (3, 0x22C8801A, .tanh ⟨8, 16, 3, false, true⟩),
    (3, 0x24088523, .cvt ⟨8, 16, 0xa4, 3⟩),
    (3, 0x4008831C, .ld8 ⟨8, 16, 12, 3, 2⟩),
    (3, 0x4028831C, .ld8s ⟨8, 16, 12, 3, 2⟩),
    (3, 0x4048831C, .ld16 ⟨8, 16, 12, 3, 2⟩),
    (3, 0x4068831C, .ld16s ⟨8, 16, 12, 3, 2⟩),
    (3, 0x4088831C, .ld32 ⟨8, 16, 12, 3, 2⟩),
    (3, 0x40A8831C, .ld64 ⟨8, 16, 12, 3, 2⟩),
    (3, 0x40C8831C, .ld128 ⟨8, 16, 12, 3, 2⟩),
    (3, 0x4108831D, .st8 ⟨8, 16, 12, 3, 2, true⟩),
    (3, 0x4128831D, .st16 ⟨8, 16, 12, 3, 2, true⟩),
    (3, 0x4148831D, .st32 ⟨8, 16, 12, 3, 2, true⟩),
    (3, 0x4168831D, .st64 ⟨8, 16, 12, 3, 2, true⟩),
    (3, 0x4188831D, .st128 ⟨8, 16, 12, 3, 2, true⟩),
    (3, 0x4208831B, .ldaq32 ⟨8, 16, 12, 3, 3⟩),
    (3, 0x4228831B, .ldaq64 ⟨8, 16, 12, 3, 3⟩)] : List (Nat × Word × Instr)).all reads = true := by
  decide +kernel

theorem test_decode_5 : ([
    (3, 0x4248831B, .strl32 ⟨8, 16, 12, 3, 3⟩),
    (3, 0x4268831B, .strl64 ⟨8, 16, 12, 3, 3⟩),
    (3, 0x4300831C, .pref ⟨16, 12, 3, 2⟩),
    (3, 0x4808831D, .atomAdd ⟨8, 16, 12, 3, 5, 0⟩),
    (3, 0x48A8831D, .atomAdd64 ⟨8, 16, 12, 3, 5, 1⟩),
    (3, 0x4948831D, .atomFadd ⟨8, 16, 12, 3, 5, 2⟩),
    (3, 0x49E8831D, .atomImin ⟨8, 16, 12, 3, 5, 3⟩),
    (3, 0x4A08831D, .atomImax ⟨8, 16, 12, 3, 5, 0⟩),
    (3, 0x4AA8831D, .atomIminu ⟨8, 16, 12, 3, 5, 1⟩),
    (3, 0x4B48831D, .atomImaxu ⟨8, 16, 12, 3, 5, 2⟩),
    (3, 0x4BE8831D, .atomAnd ⟨8, 16, 12, 3, 5, 3⟩),
    (3, 0x4C08831D, .atomOr ⟨8, 16, 12, 3, 5, 0⟩),
    (3, 0x4CA8831D, .atomXor ⟨8, 16, 12, 3, 5, 1⟩),
    (3, 0x4D48831D, .atomXchg ⟨8, 16, 12, 3, 5, 2⟩),
    (3, 0x4DE8831D, .atomIncb ⟨8, 16, 12, 3, 5, 3⟩),
    (3, 0x4E08831D, .atomCas32 ⟨8, 16, 12, 3, 5, 0⟩),
    (3, 0x4EA8831D, .atomCas64 ⟨8, 16, 12, 3, 5, 1⟩),
    (3, 0x4F48831D, .atomCas128 ⟨8, 16, 12, 3, 5, 2⟩),
    (2, 0x5808831D, .atomAddMap2 ⟨8, 16, 12, 3, 5, 0⟩),
    (2, 0x58A8831D, .atomAdd64Map2 ⟨8, 16, 12, 3, 5, 1⟩),
    (2, 0x5948831D, .atomFaddMap2 ⟨8, 16, 12, 3, 5, 2⟩),
    (2, 0x59E8831D, .atomIminMap2 ⟨8, 16, 12, 3, 5, 3⟩),
    (2, 0x5A08831D, .atomImaxMap2 ⟨8, 16, 12, 3, 5, 0⟩),
    (2, 0x5AA8831D, .atomIminuMap2 ⟨8, 16, 12, 3, 5, 1⟩)] : List (Nat × Word × Instr)).all reads = true := by
  decide +kernel

theorem test_decode_6 : ([
    (2, 0x5B48831D, .atomImaxuMap2 ⟨8, 16, 12, 3, 5, 2⟩),
    (2, 0x5BE8831D, .atomAndMap2 ⟨8, 16, 12, 3, 5, 3⟩),
    (2, 0x5C08831D, .atomOrMap2 ⟨8, 16, 12, 3, 5, 0⟩),
    (2, 0x5CA8831D, .atomXorMap2 ⟨8, 16, 12, 3, 5, 1⟩),
    (2, 0x5D48831D, .atomXchgMap2 ⟨8, 16, 12, 3, 5, 2⟩),
    (2, 0x5DE8831D, .atomIncbMap2 ⟨8, 16, 12, 3, 5, 3⟩),
    (2, 0x5E08831D, .atomCas32Map2 ⟨8, 16, 12, 3, 5, 0⟩),
    (2, 0x5EA8831D, .atomCas64Map2 ⟨8, 16, 12, 3, 5, 1⟩),
    (2, 0x5F48831D, .atomCas128Map2 ⟨8, 16, 12, 3, 5, 2⟩),
    (3, 0x500000A3, .fence ⟨5, 3⟩),
    (3, 0x500000AB, .fenceAcq ⟨5, 3⟩),
    (3, 0x500000B3, .fenceRel ⟨5, 3⟩),
    (3, 0x5028831B, .waita ⟨8, 16, 12, 3, 3⟩),
    (3, 0x60088523, .lld8 ⟨8, 16, 0xa4, 3⟩),
    (3, 0x60288523, .lld16 ⟨8, 16, 0xa4, 3⟩),
    (3, 0x60488523, .lld32 ⟨8, 16, 0xa4, 3⟩),
    (3, 0x60688523, .lld64 ⟨8, 16, 0xa4, 3⟩),
    (3, 0x60888523, .lld128 ⟨8, 16, 0xa4, 3⟩),
    (3, 0x61088523, .lst8 ⟨8, 16, 0xa4, 3⟩),
    (3, 0x61288523, .lst16 ⟨8, 16, 0xa4, 3⟩),
    (3, 0x61488523, .lst32 ⟨8, 16, 0xa4, 3⟩),
    (3, 0x61688523, .lst64 ⟨8, 16, 0xa4, 3⟩),
    (3, 0x61888523, .lst128 ⟨8, 16, 0xa4, 3⟩),
    (3, 0x62088523, .tld8 ⟨8, 16, 0xa4, 3⟩)] : List (Nat × Word × Instr)).all reads = true := by
  decide +kernel

theorem test_decode_7 : ([
    (3, 0x62288523, .tld16 ⟨8, 16, 0xa4, 3⟩),
    (3, 0x62488523, .tld32 ⟨8, 16, 0xa4, 3⟩),
    (3, 0x63088523, .plnw ⟨8, 16, 0xa4, 3⟩),
    (3, 0x63288523, .plnr ⟨8, 16, 0xa4, 3⟩),
    (3, 0x634885B3, .tebq ⟨8, 16, 0x2d, 2, 3⟩),
    (3, 0x636885B3, .tebl ⟨8, 16, 0x2d, 2, 3⟩),
    (3, 0x64088523, .latomAdd ⟨8, 16, 0xa4, 3⟩),
    (3, 0x64288523, .latomImin ⟨8, 16, 0xa4, 3⟩),
    (3, 0x64488523, .latomImax ⟨8, 16, 0xa4, 3⟩),
    (3, 0x64688523, .latomAnd ⟨8, 16, 0xa4, 3⟩),
    (3, 0x64888523, .latomOr ⟨8, 16, 0xa4, 3⟩),
    (3, 0x64A88523, .latomXor ⟨8, 16, 0xa4, 3⟩),
    (3, 0x64C88523, .latomXchg ⟨8, 16, 0xa4, 3⟩),
    (3, 0x64E88523, .latomCas ⟨8, 16, 0xa4, 3⟩),
    (3, 0x701694DE, .bra ⟨0x5a53, 3, 6⟩),
    (3, 0x703694DE, .call ⟨0x5a53, 3, 6⟩),
    (3, 0x70408018, .callr ⟨16, 3⟩),
    (3, 0x70600018, .ret ⟨3⟩),
    (3, 0x70808018, .jmpr ⟨16, 3⟩),
    (3, 0x70A00018, .rcb ⟨3⟩),
    (3, 0x70C00018, .exit ⟨3⟩),
    (3, 0x70E0002B, .setpri ⟨5, 3⟩),
    (3, 0x71000018, .yield ⟨3⟩),
    (3, 0x71200523, .trap ⟨0xa4, 3⟩)] : List (Nat × Word × Instr)).all reads = true := by
  decide +kernel

theorem test_decode_8 : ([
    (3, 0x71400018, .brk ⟨3⟩),
    (3, 0x740087FB, .join ⟨16, 0xff, 3⟩),
    (3, 0x7420016B, .leave ⟨0, 0x2d, 3⟩),
    (3, 0x7440016B, .bara ⟨0, 0x2d, 3⟩),
    (3, 0x7460016B, .barw ⟨0, 0x2d, 3⟩),
    (3, 0x748087FB, .bars ⟨16, 0xff, 3⟩),
    (3, 0x7805861B, .rkpush ⟨5, 16, 24, 3, false, true, true⟩),
    (3, 0x7825801A, .acadd ⟨5, 16, 3, false, true⟩),
    (3, 0x7856861E, .rktest ⟨5, 2, 16, 24, 3, 6⟩),
    (3, 0x7A08831C, .bmrank ⟨8, 16, 12, 3, 2⟩),
    (3, 0x7A28831C, .bmsel ⟨8, 16, 12, 3, 2⟩),
    (3, 0x80088620, .uadd ⟨8, 16, 24, 4⟩),
    (3, 0x80288620, .usub ⟨8, 16, 24, 4⟩),
    (3, 0x80488620, .umul ⟨8, 16, 24, 4⟩),
    (3, 0x80688620, .uand ⟨8, 16, 24, 4⟩),
    (3, 0x80888620, .uor ⟨8, 16, 24, 4⟩),
    (3, 0x80A88620, .uxor ⟨8, 16, 24, 4⟩),
    (3, 0x80C88620, .ushl ⟨8, 16, 24, 4⟩),
    (3, 0x80E88621, .ushr ⟨8, 16, 24, 4, true⟩),
    (3, 0x81088621, .umin ⟨8, 16, 24, 4, true⟩),
    (3, 0x81288621, .umax ⟨8, 16, 24, 4, true⟩),
    (3, 0x81488620, .usel ⟨8, 16, 24, 4⟩),
    (3, 0x82088524, .uaddi ⟨8, 16, 0xa4, 4⟩),
    (3, 0x822880AC, .ushli ⟨8, 16, 21, 4⟩)] : List (Nat × Word × Instr)).all reads = true := by
  decide +kernel

theorem test_decode_9 : ([
    (3, 0x82488524, .uandi ⟨8, 16, 0xa4, 4⟩),
    (3, 0x8308A5C3, .umovi ⟨8, 0xa5c3⟩),
    (3, 0x8328A5C3, .umovhi ⟨8, 0xa5c3⟩),
    (3, 0x84058620, .ucmpEq ⟨5, 16, 24, 4⟩),
    (3, 0x84258620, .ucmpNe ⟨5, 16, 24, 4⟩),
    (3, 0x84458620, .ucmpLt ⟨5, 16, 24, 4⟩),
    (3, 0x84658620, .ucmpLe ⟨5, 16, 24, 4⟩),
    (3, 0x84858620, .ucmpGt ⟨5, 16, 24, 4⟩),
    (3, 0x84A58620, .ucmpGe ⟨5, 16, 24, 4⟩),
    (3, 0x84C58620, .ucmpLtu ⟨5, 16, 24, 4⟩),
    (3, 0x84E58620, .ucmpLeu ⟨5, 16, 24, 4⟩),
    (3, 0x85058620, .ucmpGtu ⟨5, 16, 24, 4⟩),
    (3, 0x85258620, .ucmpGeu ⟨5, 16, 24, 4⟩),
    (3, 0x86080054, .umovsr ⟨8, 10, 4⟩),
    (3, 0x86288020, .umov ⟨8, 16, 4⟩),
    (3, 0x88088524, .uld32 ⟨8, 16, 0xa4, 4⟩),
    (3, 0x88288524, .uld64 ⟨8, 16, 0xa4, 4⟩),
    (3, 0x88488524, .ust32 ⟨8, 16, 0xa4, 4⟩),
    (3, 0x88688524, .ust64 ⟨8, 16, 0xa4, 4⟩),
    (3, 0x901694E0, .ubra ⟨0x5a53, 4⟩),
    (3, 0x90408620, .jmpf ⟨16, 24, 4⟩),
    (3, 0x90608020, .cfetch ⟨16, 4⟩),
    (3, 0x90858020, .csegq ⟨5, 16, 4⟩),
    (3, 0xA0088020, .launch ⟨8, 16, 4⟩)] : List (Nat × Word × Instr)).all reads = true := by
  decide +kernel

theorem test_decode_10 : ([
    (3, 0xA0288020, .joinl ⟨8, 16, 4⟩),
    (3, 0xA0408620, .mstart ⟨16, 24, 4⟩),
    (3, 0xA2008020, .btcopy ⟨16, 4⟩),
    (3, 0xA2258620, .bttest ⟨5, 16, 24, 4⟩),
    (3, 0xA400025C, .waitc ⟨9, 3, 4⟩),
    (3, 0xA6028020, .qbind ⟨2, 16, 4⟩),
    (3, 0xA6288020, .qstat ⟨8, 16, 4⟩),
    (3, 0xA7088623, .rclaim ⟨8, 16, 24, 4, 3⟩),
    (3, 0xA7208620, .rpub ⟨16, 24, 4⟩),
    (3, 0xA7488623, .rtake ⟨8, 16, 24, 4, 3⟩),
    (3, 0xA7608620, .rfree ⟨16, 24, 4⟩),
    (3, 0xA8008020, .barrem ⟨16, 4⟩),
    (3, 0xAA008020, .bkopAdd ⟨16, 4⟩),
    (3, 0xAA008021, .bkopMul ⟨16, 4⟩),
    (3, 0xAA008022, .bkopMax ⟨16, 4⟩),
    (3, 0xAA008023, .bkopMin ⟨16, 4⟩),
    (3, 0xAA008024, .bkopAxpy ⟨16, 4⟩),
    (3, 0xAA008025, .bkopCvt ⟨16, 4⟩),
    (3, 0xAA208020, .bkred ⟨16, 4⟩),
    (3, 0xAA408020, .bkrank ⟨16, 4⟩),
    (3, 0xAA408021, .bkrankCommit ⟨16, 4⟩),
    (3, 0xAA608620, .bkread ⟨16, 24, 4⟩),
    (3, 0xAC05314C, .acdeclSum ⟨5, true, true, false, 0x29, 4⟩),
    (3, 0xAC05394C, .acdeclRank ⟨5, true, true, false, 0x29, 4⟩)] : List (Nat × Word × Instr)).all reads = true := by
  decide +kernel

theorem test_decode_11 : ([
    (3, 0xAC250020, .acclr ⟨5, 4⟩),
    (3, 0xAC458020, .acst ⟨5, 16, 4⟩),
    (3, 0xAC658020, .acmrg ⟨5, 16, 4⟩),
    (3, 0xAC858020, .acraise ⟨5, 16, 4⟩),
    (3, 0xACA58023, .accmp ⟨5, 16, 4, 3⟩),
    (3, 0xACC880E0, .acrd ⟨8, 16, 3, 4⟩),
    (3, 0xB0088621, .mma ⟨8, 16, 24, 4, true⟩),
    (3, 0xB0250020, .mzero ⟨5, 4⟩),
    (3, 0xB0458620, .mpost ⟨5, 16, 24, 4⟩),
    (3, 0xB0608620, .mact ⟨16, 24, 4⟩),
    (3, 0xB0800020, .mend ⟨4⟩),
    (3, 0xB4088020, .ecnt ⟨8, 16, 4⟩),
    (3, 0xB4288620, .rtlook ⟨8, 16, 24, 4⟩),
    (3, 0xB4480020, .rtpin ⟨8, 4⟩),
    (3, 0xB4608020, .rtunpin ⟨16, 4⟩),
    (3, 0xB4808020, .rtmerge ⟨16, 4⟩),
    (3, 0xB8088524, .syscall ⟨8, 16, 0xa4, 4⟩),
    (3, 0xB8200524, .utrap ⟨0xa4, 4⟩)] : List (Nat × Word × Instr)).all reads = true := by
  decide +kernel

/-! ## Single steps

The spec's own numbers where it prints them (06 Table 6-5, 04 R73, R75, 09 after R213), else worked by hand from the rule named. -/

/-- What one instruction leaves, seen through `f`. -/
noncomputable def after {α : Type} (i : Instr) (s : State) (f : State → α) : Option α :=
  match exec i s with
  | .next s' => some (f s')
  | _ => none

/-- A lane register, the lane's predicates and its sticky flags. -/
def laneOut (r : Nat) (s : State) : Word × BitVec 5 := (((s.gang 0 0).thread 0).reg 256 r, ((s.gang 0 0).thread 0).fpflags)
def predOut (s : State) : BitVec 8 := ((s.gang 0 0).thread 0).preds
/-- Lane 0 issues with v1, v2, v3 and predicates `ps`. -/
def regsS (x y z : Word) (ps : BitVec 8 := 1) : State :=
  on (withGang { aG with threads := [(0, { Thread.start with stack := [(1, x), (2, y), (3, z)], preds := ps })] }) laneE
def threeRegs (w : LR → Instr) : Instr := w ⟨3, 1, 2, 0, false, false, false⟩
def twoRegs (w : LRA → Instr) : Instr := w ⟨3, 1, 0, false, false⟩

theorem test_integer_words : ([
    (threeRegs .iadd, 0x7FFFFFF0, 0x20, 0, 0x80000010), (threeRegs .iaddsat, 0x7FFFFFF0, 0x20, 0, 0x7FFFFFFF),
    (threeRegs .sar, 0x80000000, 64, 0, 0xFFFFFFFF), (threeRegs .shl, 1, 32, 0, 0), (threeRegs .shr, 0x80000000, 31, 0, 1),
    (threeRegs .isub, 1, 2, 0, 0xFFFFFFFF), (threeRegs .imul, 0x10000, 0x10000, 0, 0), (threeRegs .imulhi, 0xFFFFFFFF, 2, 0, 0xFFFFFFFF),
    (threeRegs .imulhu, 0xFFFFFFFF, 0xFFFFFFFF, 0, 0xFFFFFFFE), (threeRegs .imad, 3, 5, 7, 22), (threeRegs .imin, 0x80000000, 1, 0, 0x80000000),
    (threeRegs .imax, 0x80000000, 1, 0, 1), (threeRegs .iminu, 0x80000000, 1, 0, 1), (threeRegs .imaxu, 0x80000000, 1, 0, 0x80000000),
    (threeRegs .andn, 0xFF, 0x0F, 0, 0xF0), (twoRegs .popc, 0x80000001, 0, 0, 2), (twoRegs .clz, 0, 0, 0, 32), (twoRegs .brev, 1, 0, 0, 0x80000000)] :
      List (Instr × Word × Word × Word × Word)).all (fun p => after p.1 (regsS p.2.1 p.2.2.1 p.2.2.2.1) (laneOut 3) == some (p.2.2.2.2, 0)) = true := by
  decide +kernel

theorem test_immediate_words : ([
    (.iaddi ⟨3, 1, 0xFD, 0⟩, 5, 0, 2), (.andi ⟨3, 1, 15, 0⟩, 0x1234, 0, 4), (.ori ⟨3, 1, 0x80, 0⟩, 1, 0, 0xFFFFFF81), (.xori ⟨3, 1, 0xFF, 0⟩, 5, 0, 0xFFFFFFFA),
    (.imuli ⟨3, 1, 0xFE, 0⟩, 3, 0, 0xFFFFFFFA), (.shli ⟨3, 1, 31, 0⟩, 3, 0, 0x80000000), (.shri ⟨3, 1, 4, 0⟩, 0x80000000, 0, 0x08000000),
    (.sari ⟨3, 1, 31, 0⟩, 0x80000000, 0, 0xFFFFFFFF), (.movi ⟨3, 0xFFFE⟩, 0, 7, 0xFFFFFFFE), (.movhi ⟨3, 0x1234⟩, 0, 0xABCD5678, 0x12345678)] :
      List (Instr × Word × Word × Word)).all (fun p => after p.1 (regsS p.2.1 0 p.2.2.1) (laneOut 3) == some (p.2.2.2, 0)) = true := by
  decide +kernel

/-- Flags: 1 invalid, 2 divide by zero, 4 overflow, 8 underflow, 16 inexact (04 R78). -/
theorem test_float_words : ([
    (threeRegs .fadd, 0x7F7FFFFF, 0x7F7FFFFF, 0, 0x7F800000, 20), (threeRegs .fmin, 0x80000000, 0, 0, 0x80000000, 0),
    (threeRegs .fmax, 0x7FC00000, 0x40000000, 0, 0x40000000, 0), (threeRegs .fmin, 0x7F800001, 0x3F800000, 0, 0x3F800000, 1),
    (threeRegs .badd2, 0x3F803F80, 0x3C003B80, 0, 0x3F813F80, 16), (threeRegs .fsub, 0x7F800000, 0x7F800000, 0, 0x7FC00000, 1),
    (threeRegs .fmul, 0x40400000, 0xC0000000, 0, 0xC0C00000, 0), (threeRegs .ffma, 0, 0x7F800000, 0x7FC00000, 0x7FC00000, 1),
    (threeRegs .ffma, 0x3F800001, 0x3F800001, 0xBF800002, 0x28800000, 0), (threeRegs .hfma2, 0x3C003C00, 0x40004000, 0x3C003C00, 0x42004200, 0),
    (twoRegs .fabs, 0xFFC00001, 0, 0, 0x7FC00001, 0), (twoRegs .fneg, 0, 0, 0, 0x80000000, 0), (twoRegs .rcp, 0x80000000, 0, 0, 0xFF800000, 2),
    (twoRegs .rcp, 0x40000000, 0, 0, 0x3F000000, 0), (twoRegs .rsq, 0x40800000, 0, 0, 0x3F000000, 0), (twoRegs .rsq, 0xBF800000, 0, 0, 0x7FC00000, 1),
    (twoRegs .exp2, 0x40400000, 0, 0, 0x41000000, 0), (twoRegs .log2, 0x41000000, 0, 0, 0x40400000, 0), (twoRegs .log2, 0, 0, 0, 0xFF800000, 2),
    (twoRegs .sin, 0x7F800000, 0, 0, 0x7FC00000, 1), (twoRegs .cos, 0, 0, 0, 0x3F800000, 0), (twoRegs .tanh, 0xFF800000, 0, 0, 0xBF800000, 0),
    (.cvt ⟨3, 1, 0x60, 0⟩, 0x3F808000, 0, 0, 0x3F80, 16)] :
      List (Instr × Word × Word × Word × Word × BitVec 5)).all (fun p =>
        after p.1 (regsS p.2.1 p.2.2.1 p.2.2.2.1) (laneOut 3) == some (p.2.2.2.2.1, p.2.2.2.2.2)) = true := by
  decide +kernel

/-- Compares and predicates: p1 = 1 before, the combine AND, OR, XOR or none. -/
theorem test_predicate_words : ([
    (.icmpLt ⟨2, 0, 1, 2, 0, false, false, false⟩, 0xFFFFFFFF, 1, 3, 7), (.icmpLtu ⟨2, 0, 1, 2, 0, false, false, false⟩, 0xFFFFFFFF, 1, 3, 3),
    (.icmpEq ⟨1, 1, 1, 2, 0, false, false, false⟩, 5, 6, 3, 1), (.icmpNe ⟨1, 3, 1, 2, 0, false, false, false⟩, 5, 6, 3, 1),
    (.icmpGe ⟨0, 0, 1, 2, 0, false, false, false⟩, 0, 1, 3, 3), (.fcmpEq ⟨2, 0, 1, 2, 0, false, false, false⟩, 0x80000000, 0, 3, 7),
    (.fcmpUno ⟨2, 0, 1, 2, 0, false, false, false⟩, 0x7FC00000, 0, 3, 7), (.fcmpNe ⟨2, 0, 1, 2, 0, false, false, false⟩, 0x7FC00000, 0, 3, 7),
    (.pand ⟨2, 0, 1, 3, 0⟩, 0, 0, 0xB, 0xF), (.pnot ⟨1, 0, 0, 0⟩, 0, 0, 3, 1), (.pxor ⟨1, 0, 1, 1, 0⟩, 0, 0, 3, 1), (.pmov ⟨1, 0, false, false⟩, 0xFE, 0, 1, 0xFF)] :
      List (Instr × Word × Word × BitVec 8 × BitVec 8)).all (fun p => after p.1 (regsS p.2.1 p.2.2.1 0 p.2.2.2.1) predOut == some p.2.2.2.2) = true := by
  decide +kernel

/-- SEL by guard, a guarded lane that is not active, MOVP, SHFL and SHFLX of a lane that is not active. -/
theorem test_move_words :
    after (.sel ⟨3, 1, 2, 1, false, false, false⟩) (regsS 7 9 0 3) (laneOut 3) = some (7, 0) ∧
    after (.sel ⟨3, 1, 2, 1, false, false, false⟩) (regsS 7 9 0 1) (laneOut 3) = some (9, 0) ∧
    after (.mov ⟨3, 1, 1, false, false⟩) (regsS 7 9 5 1) (laneOut 3) = some (5, 0) ∧
    after (.movp ⟨3, 0⟩) (regsS 0 0 0 0x85) (laneOut 3) = some (0x85, 0) ∧
    after (.ballot ⟨3, 1, 0⟩) (regsS 0 0 0 3) (laneOut 3) = some (1, 0) := by
  decide +kernel

/-- s1, s2, s3 and c of the gang. -/
def uniS (x y z : Word) (c : BitVec 8 := 1) : State := on (withGang { aG with s := [(1, x), (2, y), (3, z)].filter (fun p => p.2 ≠ 0), c := c }) laneE
def uniOut (s : State) : Word × BitVec 8 := ((s.gang 0 0).sreg 3, (s.gang 0 0).c)
def ur (w : UR → Instr) : Instr := w ⟨3, 1, 2, 0⟩

theorem test_uniform_words : ([
    (ur .uadd, 0xFFFFFFFF, 2, 1, 1, 1), (ur .usub, 1, 2, 1, 0xFFFFFFFF, 1), (ur .umul, 0x10001, 0x10000, 1, 0x10000, 1), (ur .ushl, 1, 32, 1, 0, 1),
    (.ushr ⟨3, 1, 2, 0, true⟩, 0x80000000, 40, 1, 0xFFFFFFFF, 1), (.umin ⟨3, 1, 2, 0, true⟩, 0xFFFFFFFF, 1, 1, 1, 1),
    (.umax ⟨3, 1, 2, 0, false⟩, 0xFFFFFFFF, 1, 1, 1, 1), (.usel ⟨3, 1, 2, 2⟩, 7, 9, 1, 9, 1), (.uaddi ⟨3, 1, 0xFF, 0⟩, 0, 0, 1, 0xFFFFFFFF, 1),
    (.uandi ⟨3, 1, 0xFE, 0⟩, 0xFFFF, 0, 1, 0xFFFE, 1), (.umovi ⟨3, 0xFFFE⟩, 0, 0, 1, 0xFFFFFFFE, 1), (.umovhi ⟨3, 0x1234⟩, 0, 0, 0x5678, 0x12345678, 1),
    (.ucmpLt ⟨2, 1, 2, 0⟩, 0xFFFFFFFF, 1, 1, 1, 5), (.ucmpLtu ⟨2, 1, 2, 0⟩, 0xFFFFFFFF, 1, 1, 1, 1), (.uadd ⟨3, 1, 2, 1⟩, 1, 2, 1, 1, 1),
    (.umov ⟨0, 1, 0⟩, 7, 0, 1, 1, 1)] :
      List (Instr × Word × Word × Word × Word × BitVec 8)).all (fun p =>
        after p.1 (uniS p.2.1 p.2.2.1 p.2.2.2.1) uniOut == some (p.2.2.2.2.1, p.2.2.2.2.2)) = true := by
  decide +kernel

/-- BRA by 3 words from 0 goes to 4 + 12 with the priority of its word (07 R141). -/
theorem test_branch : after (.bra ⟨3, 0, 2⟩) (regsS 0 0 0) (fun s => (s.gang 0 0).frontier.map fun e => (e.pc, e.pri, e.mask)) = some [(16, 2, 1)] := by
  decide +kernel

/-- CALL moves the window by 20 and links in the new v7 (05 R82, 07 R141). -/
theorem test_call : after (.call ⟨3, 0, 0⟩) (regsS 0 0 0) (fun s =>
    (((s.gang 0 0).thread 0).base, ((s.gang 0 0).thread 0).reg 256 7, (s.gang 0 0).frontier.map Entry.pc)) = some (20, 4, [16]) := by decide +kernel

/-- TRAP code 5 writes a record of kind 10 with the code in its detail and parks its lane (07 R146, 21 Table 21-1). -/
theorem test_trap : after (.trap ⟨5, 0⟩) (regsS 0 0 0) (fun s => ((s.gang 0 0).record.kind, (s.gang 0 0).record.detail, (s.gang 0 0).record.mask)) =
    some (kTRAP, 5, 1) := by decide +kernel

/-- A store to the scratchpad and a load of its second byte; LATOM ADD adds to the word (08 R164, R167). -/
theorem test_local_words :
    after (.lst32 ⟨2, 1, 0, 0⟩) (regsS 64 0x11223344 0) (fun s => ((s.task 0).map fun t => Memory.readNat t.scratch 65 1)) = some (some 0x33) ∧
    after (.latomAdd ⟨3, 1, 0, 0⟩) (regsS 64 0 5) (fun s => (s.task 0).map fun t => Memory.readNat t.scratch 64 4) = some (some 5) := by
  decide +kernel

/-- The block of 04 R73's worked case. -/
def tebCase : List Word := [0x40F00000, 0xC0400000, 0x3F800000, 0x3E99999A, 0, 0x80000000] ++ List.replicate 26 0
theorem test_teb_block :
    (let r := tebQuantise 2 (tebCase.map fun x => fmtF32.value x.toNat)
     (r.1.words 2, r.2.foldl (· ||| ·) 0)) = ([0x8280, 0x22, 3, 7, 9], 20) := by decide +kernel

/-- Two products of 2^−24 are added before the one rounding of a block (04 R75). -/
theorem test_mma_block :
    mmaStep 6 6 6 6 0x3F800000 ⟨128, 128, [(false, true, 32), (false, true, 32)] ++ List.replicate 30 (false, false, 0)⟩
      ⟨104, 104, [(false, true, 32), (false, true, 32)] ++ List.replicate 30 (false, false, 0)⟩ = 0x3F800001 := by decide +kernel

/-- TEBL of that block: 6.0, −4.0, 1.0, 0.5, 0 and −0 (08 after R173). -/
def teblS : State :=
  on { aT with scratch := Memory.writeBytes [] 0 (leBytes 4 0x8280 ++ leBytes 4 0x22 ++ leBytes 4 3 ++ leBytes 4 7 ++ leBytes 4 9) } aE
theorem test_tebl : after (.tebl ⟨3, 1, 0, 0, 0⟩) teblS (fun s => [0, 1, 2, 3, 4, 5].map fun i => ((s.gang 0 0).thread i).reg 256 3) =
    some [0x40C00000, 0xC0800000, 0x3F800000, 0x3F000000, 0, 0x80000000] := by decide +kernel

/-- The bitmap of 09's example: positions 3, 7, 10, 515 and 600. -/
def bitmapBytes : List Byte :=
  leBytes 4 2 ++ leBytes 4 5 ++ leBytes 120 0 ++ leBytes 64 (2 ^ 3 + 2 ^ 7 + 2 ^ 10) ++ leBytes 4 0 ++ leBytes 60 0 ++
    leBytes 64 (2 ^ 3 + 2 ^ 88) ++ leBytes 4 3 ++ leBytes 60 0
def bitmapS (v : Word) : State := withMem (mapping (regsS v 0 0)) bitmapBytes
theorem test_bitmap_words : ([(.bmrank ⟨3, 1, 6, 0, 0⟩, 7, 1), (.bmrank ⟨3, 1, 6, 0, 0⟩, 8, 0x80000002), (.bmrank ⟨3, 1, 6, 0, 0⟩, 600, 4),
    (.bmsel ⟨3, 1, 6, 0, 0⟩, 2, 10), (.bmsel ⟨3, 1, 6, 0, 0⟩, 3, 515), (.bmsel ⟨3, 1, 6, 0, 0⟩, 5, 0xFFFFFFFF)] : List (Instr × Word × Word)).all
      (fun p => after p.1 (bitmapS p.2.1) (fun s => s.loads.map LoadOp.fixed) == some [[(0, some p.2.2)]]) = true := by
  decide +kernel

/-- A step from reset with `movi v1, #42` placed: every lane's v1, and the entry at the next word. -/
theorem test_step : (match step (State.reset.withFetchWord 32 0x0A01002A) with
    | .next s => some (((s.gang 0 0).thread 31).reg 256 1, (s.gang 0 0).frontier.map Entry.pc)
    | _ => none) = some (42, [4]) := by decide +kernel

/-- QSTAT of an empty queue: 0 entries and the empty bit (05 R106). QBIND of a queue the task lacks faults with cause 2. -/
theorem test_queue_words : after (.qstat ⟨3, 1, 0⟩) (uniS 0 0 0) uniOut = some (32, 1) ∧
    after (.qbind ⟨1, 1, 0⟩) (uniS 5 0 0) (fun s => ((s.gang 0 0).record.kind, (s.gang 0 0).record.detail)) = some (12, 2 + 256 * 1) := by decide +kernel

/-- A TAIL more than 2^LOGN beyond HEAD sets ERR (23 R388); the ROM starts on the strapped die (23 R391). -/
theorem test_host_events : after (.doorbell 0 0 3) (hostS true 0 []) (fun s => (s.hostQ 0 0).err) = some true ∧
    after (.doorbell 0 0 2) (hostS true 0 []) (fun s => (s.hostQ 0 0).err) = some false ∧
    after (.powerOn 2) State.reset (fun s => (s.boot.die, s.boot.tried)) = some (2, [2]) := by decide +kernel


/-- A task of the twenty-task example takes 57,872 bytes when saved (21 after R375). -/
def twentyT : Task :=
  { aT with variant := { wordVariant with threads := 192, depth := 40, gran := 5, nq := 0, nbar := 1 }, gangs := (List.range 6).map fun g => (g, aG) }
theorem test_saved_size : (on twentyT laneE).savedBytes 0 twentyT = 57872 := by decide +kernel

/-- The digest of "abc" that FIPS 180-4 prints with its definition of SHA-256. -/
theorem test_sha256 : sha256 [97, 98, 99] = 0xba7816bf8f01cfea414140de5dae2223b00361a396177a9cb410ff61f20015ad := by decide +kernel

/-- Subnormal results of RCP and EXP2, exact, set underflow (06 R124). -/
theorem test_special_corners : ([(twoRegs .rcp, 0x7F000000, 0x00400000, 8), (twoRegs .exp2, 0xC3000000, 0x00200000, 8)] :
    List (Instr × Word × Word × BitVec 5)).all (fun p => after p.1 (regsS p.2.1 0 0) (laneOut 3) == some (p.2.2.1, p.2.2.2)) = true := by decide +kernel
end Sys2Proof.Tests
end

section
/-!
SUPPORT and PROOF. The lane words' operands, ports and results in the vocabulary of the statements, and the lane exchange (05 R99, R100).
-/
namespace Sys2Proof.Machine

open Sys2Proof Sys2Proof.Say

/-! ## Masks gathered lane by lane -/

theorem foldl_or_laneBit_getLsbD (f : Nat → Nat) (j : Nat) (l : List Nat) (hf : ∀ i ∈ l, f i < 32) (r : LaneMask) :
    (l.foldl (fun r i => r ||| laneBit (f i)) r).getLsbD j = (r.getLsbD j || l.any fun i => decide (f i = j)) := by
  induction l generalizing r with
  | nil => simp
  | cons a l ih =>
    rw [List.foldl_cons, ih fun i hi => hf i (List.mem_cons_of_mem _ hi)]
    simp [laneBit_getLsbD _ _ (hf a List.mem_cons_self), Bool.or_assoc]

/-- A mask that holds exactly the lanes `f i` of the lanes `i` of `act` is the one gathered from them. -/
theorem foldl_or_laneBit_eq {act m : LaneMask} {f : Nat → Nat} (hf : ∀ i, i < 32 → f i < 32)
    (hm : ∀ j, j < 32 → (m.getLsbD j = true ↔ ∃ i, i < 32 ∧ act.getLsbD i = true ∧ f i = j)) :
    (lanesOf act).foldl (fun r i => r ||| laneBit (f i)) 0#32 = m := by
  apply BitVec.eq_of_getLsbD_eq
  intro j hj
  rw [foldl_or_laneBit_getLsbD f j _ fun i hi => hf i (mem_lanesOf.mp hi).1, Bool.eq_iff_iff, hm j hj]
  simp [mem_lanesOf, and_assoc]

theorem shflLane_lt (x : Bool) {i : Nat} (v : Word) (hi : i < 32) : shflLane x i v < 32 := by
  have hv : v.toNat % 32 < 32 := Nat.mod_lt _ (by decide)
  cases x with
  | false => exact hv
  | true => exact Nat.xor_lt_two_pow (n := 5) hi hv

/-! ## Operands that can be taken -/

theorem isPort_of_le {r : Nat} (h : 28 ≤ r) : isPort r = true := decide_eq_true h

theorem lt_of_isPort_false {r : Nat} (h : isPort r = false) : r < 28 := Nat.not_le.mp (of_decide_eq_false h)

theorem Gang.waitDst_nil {D : Nat} {gg : Gang} {m : LaneMask} {d : BitVec 5} (h : d.toNat < 28 → gg.FullIn D m d.toNat) :
    ((dstOf d).flatMap fun k => gg.physOf D (gg.notFull D m k) k) = [] := by
  unfold dstOf
  cases p : isPort d.toNat with
  | true => rfl
  | false => simp [Gang.notFull_of _ _ _ _ (h (lt_of_isPort_false p))]

@[simp] theorem maskOf_false : (maskOf fun _ => false) = 0#32 := maskOf_eq_zero fun _ _ => rfl

theorem value_of_reg (k : Taken) (D : Nat) (gg : Gang) {r : Nat} (h : isPort r = false) (i : Nat) :
    k.value D gg r i = (gg.thread i).reg D r := if_pos (lt_of_isPort_false h)

theorem value_of_port {k : Taken} {q : Nat} {y : QEntry} {rest : List QEntry} (hk : k.pop = some (q, y, rest)) (D : Nat) (gg : Gang)
    {r : Nat} (h : isPort r = true) (i : Nat) : k.value D gg r i = AList.get 0#32 y.words i := by
  unfold Taken.value
  rw [if_neg (Nat.not_lt.mpr (of_decide_eq_true h)), hk]; rfl

/-! ## The ports of a word -/

/-- The queues that a word takes are ready: the popped one holds an entry, and the pushed one has room once the pop is done. -/
theorem queuesReady_of_ports {r : LaneRow} {t : Task} {g : Nat} {e : Entry} {k : Taken} (p : r.Ports t g e k) {l l' : List Nat}
    (hl : (k.pop.map Prod.fst).toList = l) (hl' : k.push.toList = l') : t.queuesReady l l' = true := by
  subst hl hl'
  obtain ⟨hpop, hpush⟩ := p
  have pops : ∀ q y rest, k.pop = some (q, y, rest) → t.queue q ≠ [] := by
    intro q y rest hk
    split at hpop
    · rw [hpop] at hk; cases hk
    · obtain ⟨q', y', rest', -, hq, hk'⟩ := hpop
      rw [hk'] at hk; cases hk; simp [hq]
  have pushes : ∀ q, k.push = some q →
      (t.queue q).length < 16 ∨ ((t.queue q).length = 16 ∧ ∃ x rest, k.pop = some (q, x, rest)) := by
    intro q hk
    split at hpush
    · rw [hpush] at hk; cases hk
    · split at hpush
      · rw [hpush] at hk; cases hk
      · obtain ⟨q', -, hk', room⟩ := hpush
        rw [hk'] at hk; cases hk; exact room
  simp only [Task.queuesReady, Bool.and_eq_true, List.all_eq_true]
  constructor
  · intro q hq
    obtain ⟨⟨q', y, rest⟩, hk, rfl⟩ := Option.map_eq_some_iff.mp (Option.mem_toList.mp hq)
    simp [pops _ _ _ hk]
  · intro q hq
    rcases pushes q (Option.mem_toList.mp hq) with room | ⟨full, y, rest, hk⟩
    · simp [room]
    · simp [full, hk]

/-! ## The state in which a word computes: its port popped, source a held -/

@[simp] theorem Gang.thread_hold (gg : Gang) (r : Option Nat) (m : LaneMask) (i : Nat) : (gg.hold r m).thread i = gg.thread i := by
  cases r <;> rfl

/-- A pop leaves the task's gangs and its variant. -/
theorem task_popped (k : Taken) {s : State} {h : Nat} {t : Task} (ht : s.task h = some t) :
    ∃ u, (k.popped s h t).task h = some u ∧ u.variant = t.variant ∧ ∀ g, u.gang g = t.gang g := by
  unfold Taken.popped
  cases k.pop with
  | none => exact ⟨t, ht, rfl, fun _ => rfl⟩
  | some p => exact ⟨_, State.task_setTask _ _ _, rfl, fun _ => rfl⟩

/-- A pop and a held operand leave every lane register as it was. -/
theorem task_popped_hold (k : Taken) {s : State} {h : Nat} {t : Task} (g : Nat) (r : Option Nat) (m : LaneMask) (ht : s.task h = some t) :
    ∃ u, ((k.popped s h t).modGang h g fun a => a.hold r m).task h = some u ∧ u.variant = t.variant ∧
      ∀ i, (u.gang g).thread i = (t.gang g).thread i := by
  obtain ⟨u, hu, hv, hg⟩ := task_popped k ht
  exact ⟨_, State.task_modGang _ h g _ hu, hv, fun i => by rw [Task.gang_setGang, Gang.thread_hold, hg]⟩

/-- There a source field supplies what it supplied at issue. -/
theorem State.val_eq_value {s : State} {c : LaneCtx} {k : Taken} {t u : Task} (hu : s.task c.h = some u) (hv : u.variant = t.variant)
    (hr : ∀ i, (u.gang c.g).thread i = (t.gang c.g).thread i) (hp : c.popped = k.pop.map fun p => p.2.1) (r i : Nat) :
    s.val c r i = k.value t.variant.depth (t.gang c.g) r i := by
  unfold State.val
  rw [State.gang_of_task s hu, State.depth_of_task s hu, hr, hv, hp]
  cases p : isPort r with
  | false => rw [value_of_reg k _ _ p]; rfl
  | true =>
    unfold Taken.value
    rw [if_neg (Nat.not_lt.mpr (of_decide_eq_true p))]
    cases k.pop <;> rfl

/-- A lane write is the row's: the register written in the active lanes, or an entry pushed. -/
theorem State.laneWrite_eq_putResult {s : State} {c : LaneCtx} {u : Task} {d : Nat} (hu : s.task c.h = some u)
    (hd : c.pushQ = none ↔ d < 28) (v : Nat → Word) :
    s.laneWrite c d v = putResult s c.h c.g u.variant.depth c.act d c.pushQ v := by
  unfold State.laneWrite putResult
  cases q : c.pushQ with
  | none => rw [isPort_of_lt (hd.mp q), State.depth_of_task s hu]; rfl
  | some q' =>
    have : 28 ≤ d := Nat.not_lt.mp fun l => by rw [hd.mpr l] at q; cases q
    rw [isPort_of_le this]
    unfold State.pushQueue
    rw [q]; rfl

/-- Moving the whole entry on is what `goesOn` says. -/
theorem State.laneDone_eq_goesOn (s : State) (c : LaneCtx) : s.laneDone c = goesOn s c.h c.g c.e := rfl

/-! ## SHFL and SHFLX (05 R99, R100) -/

theorem exec_exchange (w : LR) (x : Bool) (s : State) :
    exec (if x then .shflx w else .shfl w) s = s.issuing fun h g e s => s.shfl w x h g e := by
  cases x <;> rfl

/-- The port an exchange pops: source a's where it is one, else source b's. -/
theorem exchangeRow_port (w : LR) :
    (exchangeRow w).port = if isPort w.a.toNat then some w.a.toNat else if isPort w.b.toNat then some w.b.toNat else none := by
  change [w.a.toNat, w.b.toNat].find? isPort = _
  cases pa : isPort w.a.toNat with
  | true => simp [pa]
  | false => cases pb : isPort w.b.toNat <;> simp [pa, pb]

/-- What an exchange needs: its sources full and clean where they are read, its destination full, a popped entry without poison. -/
structure ExchangeReady (w : LR) (x : Bool) (t : Task) (g : Nat) (e : Entry) (k : Taken) (act m : LaneMask) (lane : Nat → Nat) : Prop where
  held : e.held = none
  ports : (exchangeRow w).Ports t g e k
  active : act = (t.gang g).active e.mask w.g.toNat
  target : ∀ i, lane i = shflLane x i (k.value t.variant.depth (t.gang g) w.b.toNat i)
  read : ∀ j, j < 32 → (m.getLsbD j = true ↔ ∃ i, i < 32 ∧ act.getLsbD i = true ∧ lane i = j)
  srcB : w.b.toNat < 28 → Good t.variant.depth (t.gang g) act w.b.toNat
  srcA : w.a.toNat < 28 → Good t.variant.depth (t.gang g) m w.a.toNat
  dst : w.d.toNat < 28 → Full t.variant.depth (t.gang g) act w.d.toNat
  words : ∀ q y rest, k.pop = some (q, y, rest) → y.poison = 0

namespace ExchangeReady

variable {w : LR} {x : Bool} {t : Task} {g : Nat} {e : Entry} {k : Taken} {act m : LaneMask} {lane : Nat → Nat}

theorem lane_lt (r : ExchangeReady w x t g e k act m lane) (i : Nat) (hi : i < 32) : lane i < 32 := by
  rw [r.target i]; exact shflLane_lt x _ hi

/-- The lanes read for source a, gathered over the active lanes. -/
theorem gathered (r : ExchangeReady w x t g e k act m lane) :
    (lanesOf act).foldl (fun r i => r ||| laneBit (lane i)) 0#32 = m := foldl_or_laneBit_eq r.lane_lt r.read

/-- The lane that an active lane reads is among the lanes read. -/
theorem mem_read (r : ExchangeReady w x t g e k act m lane) {i : Nat} (hi : i < 32) (ha : act.getLsbD i = true) :
    m.getLsbD (lane i) = true := (r.read _ (r.lane_lt i hi)).mpr ⟨i, hi, ha, rfl⟩

theorem target_reg (r : ExchangeReady w x t g e k act m lane) (p : isPort w.b.toNat = false) (i : Nat) :
    shflLane x i (((t.gang g).thread i).reg t.variant.depth w.b.toNat) = lane i := by rw [r.target, value_of_reg k _ _ p]

theorem target_port (r : ExchangeReady w x t g e k act m lane) {q : Nat} {y : QEntry} {rest : List QEntry}
    (hk : k.pop = some (q, y, rest)) (p : isPort w.b.toNat = true) (i : Nat) :
    shflLane x i (AList.get 0#32 y.words i) = lane i := by rw [r.target, value_of_port hk _ _ p]

theorem notFullB (r : ExchangeReady w x t g e k act m lane) (p : isPort w.b.toNat = false) :
    (t.gang g).notFull t.variant.depth act w.b.toNat = 0#32 :=
  Gang.notFull_of _ _ _ _ fun i hi ha => (r.srcB (lt_of_isPort_false p) i hi ha).1

theorem interlockedB (r : ExchangeReady w x t g e k act m lane) (p : isPort w.b.toNat = false) :
    (t.gang g).interlocked t.variant.depth act w.b.toNat = 0#32 :=
  Gang.interlocked_of _ _ _ _ fun i hi ha => (r.srcB (lt_of_isPort_false p) i hi ha).1

theorem poisonedB (r : ExchangeReady w x t g e k act m lane) (p : isPort w.b.toNat = false) :
    (t.gang g).poisoned t.variant.depth act w.b.toNat = 0#32 :=
  Gang.poisoned_of _ _ _ _ fun i hi ha => (r.srcB (lt_of_isPort_false p) i hi ha).2

theorem notFullA (r : ExchangeReady w x t g e k act m lane) (p : isPort w.a.toNat = false) :
    (t.gang g).notFull t.variant.depth m w.a.toNat = 0#32 :=
  Gang.notFull_of _ _ _ _ fun i hi ha => (r.srcA (lt_of_isPort_false p) i hi ha).1

theorem interlockedA (r : ExchangeReady w x t g e k act m lane) (p : isPort w.a.toNat = false) :
    (t.gang g).interlocked t.variant.depth m w.a.toNat = 0#32 :=
  Gang.interlocked_of _ _ _ _ fun i hi ha => (r.srcA (lt_of_isPort_false p) i hi ha).1

/-- No active lane's source lane has source a empty. -/
theorem no_emptyA (r : ExchangeReady w x t g e k act m lane) (p : isPort w.a.toNat = false) :
    (maskOf fun i => act.getLsbD i && ((t.gang g).thread (lane i)).regState t.variant.depth w.a.toNat != .full) = 0#32 := by
  refine maskOf_eq_zero fun i hi => ?_
  cases ha : act.getLsbD i with
  | false => rfl
  | true => simp [(r.srcA (lt_of_isPort_false p) _ (r.lane_lt i hi) (r.mem_read hi ha)).1]

/-- No active lane's source lane has source a poisoned. -/
theorem no_poisonA (r : ExchangeReady w x t g e k act m lane) (p : isPort w.a.toNat = false) :
    (maskOf fun i => act.getLsbD i && ((t.gang g).thread (lane i)).regPoison t.variant.depth w.a.toNat) = 0#32 := by
  refine maskOf_eq_zero fun i hi => ?_
  cases ha : act.getLsbD i with
  | false => rfl
  | true => simp [(r.srcA (lt_of_isPort_false p) _ (r.lane_lt i hi) (r.mem_read hi ha)).2]

/-- The source ports: none, and nothing is popped; or one, bound to the queue that is popped. -/
theorem sources (r : ExchangeReady w x t g e k act m lane) :
    (isPort w.a.toNat = false ∧ isPort w.b.toNat = false ∧ k.pop = none) ∨
    ∃ q y rest, t.queue q = y :: rest ∧ k.pop = some (q, y, rest) ∧
      ((isPort w.a.toNat = true ∧ (t.gang g).queueOf e w.a.toNat = some q) ∨
        (isPort w.a.toNat = false ∧ isPort w.b.toNat = true ∧ (t.gang g).queueOf e w.b.toNat = some q)) := by
  have hpop := r.ports.pop
  rw [exchangeRow_port] at hpop
  cases pa : isPort w.a.toNat with
  | true =>
    simp only [pa, if_true] at hpop
    obtain ⟨q, y, rest, hb, hq, hk⟩ := hpop
    exact .inr ⟨q, y, rest, hq, hk, .inl ⟨rfl, hb⟩⟩
  | false =>
    cases pb : isPort w.b.toNat with
    | true =>
      simp only [pa, pb, if_true, Bool.false_eq_true, if_false] at hpop
      obtain ⟨q, y, rest, hb, hq, hk⟩ := hpop
      exact .inr ⟨q, y, rest, hq, hk, .inr ⟨rfl, rfl, hb⟩⟩
    | false =>
      simp only [pa, pb, Bool.false_eq_true, if_false] at hpop
      exact .inl ⟨rfl, rfl, hpop⟩

/-- The destination's port, if it is one, is bound to the queue that is pushed. -/
theorem destination (r : ExchangeReady w x t g e k act m lane) :
    ((pushOf w.d).map fun p => (p, (t.gang g).queueOf e p)) = k.push.map fun q => (w.d.toNat, some q) := by
  have hpush := r.ports.push
  simp only [exchangeRow, LaneRow.dst] at hpush
  unfold pushOf
  cases p : isPort w.d.toNat with
  | false =>
    rw [if_pos (lt_of_isPort_false p)] at hpush
    rw [hpush]; rfl
  | true =>
    rw [if_neg (Nat.not_lt.mpr (of_decide_eq_true p))] at hpush
    obtain ⟨q, hb, hk, -⟩ := hpush
    rw [hk, if_pos rfl, Option.map_some, hb]; rfl

/-- Nothing is pushed exactly where d is a register. -/
theorem push_none (r : ExchangeReady w x t g e k act m lane) : k.push = none ↔ w.d.toNat < 28 := by
  have hpush := r.ports.push
  simp only [exchangeRow, LaneRow.dst] at hpush
  split at hpush
  · simp [*]
  · obtain ⟨q, -, hk, -⟩ := hpush
    simp [*]

end ExchangeReady

section

variable {w : LR} {x : Bool} {t : Task} {g : Nat} {e : Entry} {k : Taken} {act m : LaneMask} {lane : Nat → Nat}

/-- An exchange that is ready neither waits nor faults: it reads every source lane in the state with its port popped and source a held. -/
theorem State.shfl_runs (r : ExchangeReady w x t g e k act m lane) {s : State} {h : Nat} (ht : s.task h = some t) :
    s.shfl w x h g e =
      ((k.popped s h t).modGang h g fun a => a.hold (if w.h then some w.a.toNat else none) m).shflFinish w
        { h := h, g := g, e := { e with held := none }, act := act, low := lowestLane act, popped := k.pop.map fun p => p.2.1,
          pushQ := k.push } lane := by
  have waitD := Gang.waitDst_nil r.dst
  unfold State.shfl
  simp only [ht, ← r.active, r.destination, r.held]
  rcases r.sources with ⟨pa, pb, hk⟩ | ⟨q, y, rest, hq, hk, ⟨pa, hb⟩ | ⟨pa, pb, hb⟩⟩
  · -- both sources are registers
    cases hp : k.push <;>
      simp [queuesReady_of_ports r.ports, waitD, hk, hp, Taken.popped, State.popQueue, pa, pb, r.target_reg, r.gathered, r.notFullB,
        r.interlockedB, r.poisonedB, r.notFullA, r.interlockedA, r.no_emptyA, r.no_poisonA, and_allOnes]
  · -- source a is the port popped: no register of a is read
    have clean := r.words q y rest hk
    cases hp : k.push <;> cases pb : isPort w.b.toNat <;>
      simp [queuesReady_of_ports r.ports, waitD, ht, hk, hp, hq, hb, clean, Taken.popped, State.popQueue, pa, pb, r.target_reg,
        r.target_port hk, r.gathered, r.notFullB, r.interlockedB, r.poisonedB, and_allOnes]
  · -- source b is the port popped: the lanes read for a are those its entry names (R100)
    have clean := r.words q y rest hk
    cases hp : k.push <;>
      simp [queuesReady_of_ports r.ports, waitD, ht, hk, hp, hq, hb, clean, Taken.popped, State.popQueue, pa, pb, r.target_port hk,
        r.gathered, r.notFullA, r.interlockedA, r.no_emptyA, r.no_poisonA, and_allOnes]

/-- Once its sources are taken, an exchange writes in each active lane what source a supplied at issue in the lane read. -/
theorem State.shflFinish_eq {s : State} {u : Task} {c : LaneCtx} (hu : s.task c.h = some u) (hv : u.variant = t.variant)
    (hr : ∀ i, (u.gang c.g).thread i = (t.gang c.g).thread i) (hp : c.popped = k.pop.map fun p => p.2.1)
    (hq : c.pushQ = none ↔ w.d.toNat < 28) (src : Nat → Nat) :
    s.shflFinish w c src = goesOn (putResult s c.h c.g t.variant.depth c.act w.d.toNat c.pushQ fun i =>
      k.value t.variant.depth (t.gang c.g) w.a.toNat (src i)) c.h c.g c.e := by
  unfold State.shflFinish State.laneResult
  rw [State.laneDone_eq_goesOn, State.laneWrite_eq_putResult hu hq, hv]
  simp only [State.val_eq_value hu hv hr hp]

/-- A ready exchange from its issue on: no write comes before a read. -/
theorem State.shfl_eq (r : ExchangeReady w x t g e k act m lane) {s : State} {h : Nat} (ht : s.task h = some t) :
    s.shfl w x h g e =
      goesOn (putResult ((k.popped s h t).modGang h g fun a => a.hold (if w.h then some w.a.toNat else none) m) h g
        t.variant.depth act w.d.toNat k.push fun i => k.value t.variant.depth (t.gang g) w.a.toNat (lane i)) h g e := by
  obtain ⟨u, hu, hv, hr⟩ := task_popped_hold k g (if w.h then some w.a.toNat else none) m ht
  rw [State.shfl_runs r ht, State.shflFinish_eq hu hv hr rfl r.push_none]
  rfl

end

end Sys2Proof.Machine

namespace Sys2Proof.Proofs

open Sys2Proof Sys2Proof.Machine Sys2Proof.Say

/-- Settles O4: the exchange is ready (R99, R100), so `State.shfl_eq` says what it does. -/
theorem laneExchange : Obligations.LaneExchange := by
  unfold Obligations.LaneExchange
  intro w x s h g e t k act m lane ⟨hc, ht, _⟩ held ports active target read srcB srcA dst words
  have r : ExchangeReady w x t g e k act m lane := ⟨held, ports, active, target, read, srcB, srcA, dst, words⟩
  rw [exec_exchange, State.issuing_gang hc]
  exact congrArg Host.Outcome.next (State.shfl_eq r ht)

end Sys2Proof.Proofs
end

section
/-!
SUPPORT and PROOF. Uniform words by their rows: the one meaning that every word of `uniformRow` has, and what it is for a gang and for a
matrix stream (06 R126-R128, 07 R147, 16 R305).
-/
namespace Sys2Proof.Machine

open Sys2Proof Sys2Proof.Say

/-! ## The integer operations of 06 R113 and Table 6-4 as operations of bit vectors -/

theorem intShl_eq (x y : Word) : intShl x y = x <<< y.toNat := by
  unfold intShl
  split
  · rename_i big; exact (BitVec.shiftLeft_eq_zero big).symm
  · rfl

theorem intShr_eq (x y : Word) : intShr x y = x >>> y.toNat := by
  unfold intShr
  split
  · rename_i big; exact (BitVec.ushiftRight_eq_zero big).symm
  · rfl

/-- A count of 32 or more leaves copies of the sign bit. -/
theorem intSar_eq (x y : Word) : intSar x y = x.sshiftRight y.toNat := by
  unfold intSar
  split
  · rename_i big
    apply BitVec.eq_of_getLsbD_eq
    intro i hi
    have past : ¬ y.toNat + i < 32 := by omega
    rw [BitVec.getLsbD_sshiftRight, if_neg past, BitVec.msb_eq_getLsbD_last]
    cases x.getLsbD 31 with
    | false => rw [if_neg Bool.false_ne_true, BitVec.ofNat_eq_ofNat, BitVec.getLsbD_zero, Bool.and_false]
    | true => rw [if_pos rfl, BitVec.getLsbD_allOnes, decide_eq_true hi, decide_eq_false (Nat.not_le.mpr hi)]; rfl
  · rfl

/-- Two tests that differ only where both choices are one value choose alike. -/
theorem ite_eq_ite_of_imp {α : Type} {p q : Prop} [Decidable p] [Decidable q] {a b : α} (imp : q → p) (tie : p → ¬ q → a = b) :
    (if p then a else b) = if q then a else b := by
  by_cases hq : q
  · rw [if_pos hq, if_pos (imp hq)]
  · by_cases hp : p
    · rw [if_pos hp, if_neg hq, tie hp hq]
    · rw [if_neg hp, if_neg hq]

theorem toInt_le_of_slt {x y : Word} (l : x.slt y = true) : x.toInt ≤ y.toInt := Int.le_of_lt (of_decide_eq_true l)

theorem toNat_le_of_ult {x y : Word} (l : x.ult y = true) : x.toNat ≤ y.toNat := Nat.le_of_lt (of_decide_eq_true l)

theorem eq_of_toInt_le_of_not_slt {x y : Word} (l : x.toInt ≤ y.toInt) (n : ¬ x.slt y = true) : x = y :=
  BitVec.eq_of_toInt_eq (Int.le_antisymm l (Int.not_lt.mp fun g => n (decide_eq_true g)))

theorem eq_of_toNat_le_of_not_ult {x y : Word} (l : x.toNat ≤ y.toNat) (n : ¬ x.ult y = true) : x = y :=
  BitVec.eq_of_toNat_eq (Nat.le_antisymm l (Nat.not_lt.mp fun g => n (decide_eq_true g)))

theorem intMin_eq (x y : Word) : intMin x y = if x.slt y then x else y :=
  ite_eq_ite_of_imp toInt_le_of_slt eq_of_toInt_le_of_not_slt

theorem intMax_eq (x y : Word) : intMax x y = if x.slt y then y else x :=
  ite_eq_ite_of_imp toInt_le_of_slt fun l n => (eq_of_toInt_le_of_not_slt l n).symm

theorem intMinu_eq (x y : Word) : intMinu x y = if x.ult y then x else y :=
  ite_eq_ite_of_imp toNat_le_of_ult eq_of_toNat_le_of_not_ult

theorem intMaxu_eq (x y : Word) : intMaxu x y = if x.ult y then y else x :=
  ite_eq_ite_of_imp toNat_le_of_ult fun l n => (eq_of_toNat_le_of_not_ult l n).symm

theorem icmp_eq (x y : Word) : icmp .eq x y = decide (x = y) := rfl
theorem icmp_ne (x y : Word) : icmp .ne x y = decide (x ≠ y) := decide_not.symm
theorem icmp_lt (x y : Word) : icmp .lt x y = x.slt y := rfl
theorem icmp_le (x y : Word) : icmp .le x y = x.sle y := rfl
theorem icmp_gt (x y : Word) : icmp .gt x y = y.slt x := rfl
theorem icmp_ge (x y : Word) : icmp .ge x y = y.sle x := rfl
theorem icmp_ltu (x y : Word) : icmp .ltu x y = x.ult y := rfl
theorem icmp_leu (x y : Word) : icmp .leu x y = x.ule y := rfl
theorem icmp_gtu (x y : Word) : icmp .gtu x y = y.ult x := rfl
theorem icmp_geu (x y : Word) : icmp .geu x y = y.ule x := rfl

/-! ## The operations that m chooses (06 Table 6-9) -/

theorem uniShr_eq (m : Bool) (x y : Word) :
    (if m then intSar x y else intShr x y) = if m then x.sshiftRight y.toNat else x >>> y.toNat := by rw [intSar_eq, intShr_eq]

theorem uniMin_eq (m : Bool) (x y : Word) :
    (if m then intMinu x y else intMin x y) = if (if m then x.ult y else x.slt y) then x else y := by
  cases m with
  | false => exact intMin_eq x y
  | true => exact intMinu_eq x y

theorem uniMax_eq (m : Bool) (x y : Word) :
    (if m then intMaxu x y else intMax x y) = if (if m then x.ult y else x.slt y) then y else x := by
  cases m with
  | false => exact intMax_eq x y
  | true => exact intMaxu_eq x y

/-- UMOVHI joins its immediate to the low half of a word (R119, R128). -/
theorem append_low_half (v : BitVec 16) (x : Word) : v ++ x.extractLsb' 0 16 = (v.zeroExtend 32 <<< 16) ||| (x &&& 0xFFFF) := by
  have low : (x.extractLsb' 0 16).setWidth (16 + 16) = x &&& 0xFFFF := by
    apply BitVec.eq_of_toNat_eq
    have mask : (x &&& 0xFFFF).toNat = x.toNat % 2 ^ 16 := Nat.and_two_pow_sub_one_eq_mod x.toNat 16
    rw [mask, BitVec.toNat_setWidth, BitVec.extractLsb'_toNat, Nat.shiftRight_zero]
    omega
  rw [BitVec.append_def, BitVec.shiftLeftZeroExtend_eq, BitVec.setWidth'_eq, low]

/-! ## Every uniform word runs its row -/

@[simp] theorem State.cbit_zero (s : State) (w : Who) : s.cbit w 0 = true := by
  unfold State.cbit
  split
  · rfl
  · split <;> rfl

/-- Writes of an agent: a gang, or a stream. -/
def State.writeUniform (s : State) (w : Who) (f : UniformEffect) : State :=
  match f with
  | .s d v => s.setS w d (v (s.sreg w) (s.cbit w))
  | .c d v => s.setC w d (v (s.sreg w))

/-- A uniform word by its row: under its guard, or once issued, it writes; then it goes on. -/
def State.runRow (s : State) (r : UniformRow) : Out :=
  s.issuingAny fun w e s => if e.st.issued || s.cbit w r.guard then (s.writeUniform w r.effect).nextWord w e else s.nextWord w e

theorem State.runRow_unguarded (s : State) (f : UniformEffect) :
    s.runRow ⟨0, f⟩ = s.issuingAny fun w e s => (s.writeUniform w f).nextWord w e := by
  simp only [State.runRow, State.cbit_zero, Bool.or_true, if_true]

/-- A word whose operation agrees with its row's runs the row. -/
theorem uniOp_of_ur {w : UR} {f f' : Word → Word → Word} {r : UniformRow} (h : ∀ x y, f x y = f' x y) (row : ur w f' = some r)
    (s : State) : uniOp w.d w.a w.b w.c f s = s.runRow r := by
  obtain rfl : f = f' := funext fun x => funext (h x)
  cases row
  rfl

theorem uniOp_of_urm {w : URM} {f f' : Bool → Word → Word → Word} {r : UniformRow} (h : ∀ m x y, f m x y = f' m x y)
    (row : urm w f' = some r) (s : State) : uniOp w.d w.a w.b w.c (f w.m) s = s.runRow r := by
  obtain rfl : f = f' := funext fun m => funext fun x => funext (h m x)
  cases row
  rfl

theorem uniCmp_of_ucmp {w : UCab} {cond : ICond} {f : Word → Word → Bool} {r : UniformRow} (h : ∀ x y, icmp cond x y = f x y)
    (row : ucmp w f = some r) (s : State) : uniCmp w cond s = s.runRow r := by
  obtain rfl : icmp cond = f := funext fun x => funext (h x)
  cases row
  rfl

/-- The count of USHLI is below 32, and is its own value as a word. -/
theorem execUshli_eq (w : UI5) (s : State) :
    execUshli w s = s.runRow ⟨w.c.toNat, .s w.d.toNat fun r _ => r w.a.toNat <<< w.imm.toNat⟩ := by
  have count : (w.imm.setWidth 32).toNat = w.imm.toNat := BitVec.toNat_setWidth_of_le (by decide)
  unfold execUshli
  simp only [intShl_eq, count]
  rfl

theorem execUmovhi_eq (w : UW) (s : State) : execUmovhi w s =
    s.runRow ⟨0, .s w.d.toNat fun r _ => (w.imm.zeroExtend 32 <<< 16) ||| (r w.d.toNat &&& 0xFFFF)⟩ := by
  unfold execUmovhi
  simp only [append_low_half, State.runRow_unguarded]
  rfl

/-- The meaning of a word that has a row is its row's. -/
theorem exec_eq_runRow {i : Instr} {r : UniformRow} (row : uniformRow i = some r) (s : State) : exec i s = s.runRow r := by
  cases i with
  | uadd w => exact uniOp_of_ur (fun _ _ => rfl) row s
  | usub w => exact uniOp_of_ur (fun _ _ => rfl) row s
  | umul w => exact uniOp_of_ur (fun _ _ => rfl) row s
  | uand w => exact uniOp_of_ur (fun _ _ => rfl) row s
  | uor w => exact uniOp_of_ur (fun _ _ => rfl) row s
  | uxor w => exact uniOp_of_ur (fun _ _ => rfl) row s
  | ushl w => exact uniOp_of_ur intShl_eq row s
  | ushr w => exact uniOp_of_urm uniShr_eq row s
  | umin w => exact uniOp_of_urm uniMin_eq row s
  | umax w => exact uniOp_of_urm uniMax_eq row s
  | usel w => cases row; rw [State.runRow_unguarded]; rfl
  | uaddi w => cases row; rfl
  | uandi w => cases row; rfl
  | ushli w => cases row; exact execUshli_eq w s
  | umovi w => cases row; rw [State.runRow_unguarded]; rfl
  | umovhi w => cases row; exact execUmovhi_eq w s
  | umov w => cases row; rfl
  | ucmpEq w => exact uniCmp_of_ucmp icmp_eq row s
  | ucmpNe w => exact uniCmp_of_ucmp icmp_ne row s
  | ucmpLt w => exact uniCmp_of_ucmp icmp_lt row s
  | ucmpLe w => exact uniCmp_of_ucmp icmp_le row s
  | ucmpGt w => exact uniCmp_of_ucmp icmp_gt row s
  | ucmpGe w => exact uniCmp_of_ucmp icmp_ge row s
  | ucmpLtu w => exact uniCmp_of_ucmp icmp_ltu row s
  | ucmpLeu w => exact uniCmp_of_ucmp icmp_leu row s
  | ucmpGtu w => exact uniCmp_of_ucmp icmp_gtu row s
  | ucmpGeu w => exact uniCmp_of_ucmp icmp_geu row s
  | _ => cases row

/-- A word with a row, issued under a true guard, writes and goes on. -/
theorem exec_row_true {i : Instr} {r : UniformRow} (row : uniformRow i = some r) {s : State} {w : Who} {e : Entry}
    (cur : s.cur = some ⟨w, e⟩) (guard : (issued s).cbit w r.guard = true) :
    exec i s = .next (((issued s).writeUniform w r.effect).nextWord w e) := by
  rw [exec_eq_runRow row, State.runRow, State.issuingAny_some cur]
  exact congrArg Host.Outcome.next (if_pos (Bool.or_eq_true_iff.mpr (.inr guard)))

/-- Under a false guard, not yet issued, it only goes on. -/
theorem exec_row_false {i : Instr} {r : UniformRow} (row : uniformRow i = some r) {s : State} {w : Who} {e : Entry}
    (cur : s.cur = some ⟨w, e⟩) (guard : (issued s).cbit w r.guard = false) (fresh : e.st.issued = false) :
    exec i s = .next ((issued s).nextWord w e) := by
  rw [exec_eq_runRow row, State.runRow, State.issuingAny_some cur]
  exact congrArg Host.Outcome.next (if_neg (Bool.eq_false_iff.mp (Bool.or_eq_false_iff.mpr ⟨fresh, guard⟩)))

/-! ## The state at issue -/

@[simp] theorem task_issued (s : State) (h : Nat) : (issued s).task h = s.task h := rfl
@[simp] theorem stream_issued (s : State) (k j : Nat) : (issued s).stream k j = s.stream k j := rfl
@[simp] theorem cluster_issued (s : State) (k : Nat) : (issued s).cluster k = s.cluster k := rfl

/-! ## The writes of a gang -/

theorem State.modGang_congr {s : State} {h g : Nat} {t : Task} (ht : s.task h = some t) {f f' : Gang → Gang}
    (hf : f (t.gang g) = f' (t.gang g)) : s.modGang h g f = s.modGang h g f' := by
  simp only [State.modGang, State.modTask, ht, hf]

theorem State.cbit_gang {s : State} {h : Nat} {t : Task} (ht : s.task h = some t) (g : Nat) : s.cbit (.gang h g) = (t.gang g).cbit :=
  funext fun n => congrArg (Gang.cbit · n) (State.gang_of_task s ht)

theorem State.sreg_gang {s : State} {h : Nat} {t : Task} (ht : s.task h = some t) (g : Nat) : s.sreg (.gang h g) = (t.gang g).sreg :=
  funext fun n => congrArg (Gang.sreg · n) (State.gang_of_task s ht)

/-- What a row writes of a gang. -/
theorem State.writeUniform_gang {s : State} {h g : Nat} {t : Task} (ht : s.task h = some t) (f : UniformEffect) :
    s.writeUniform (.gang h g) f = s.modGang h g f.onGang := by
  cases f with
  | s d v =>
    simp only [State.writeUniform, State.setS, State.sreg_gang ht, State.cbit_gang ht]
    exact State.modGang_congr ht rfl
  | c d v =>
    simp only [State.writeUniform, State.setC, State.sreg_gang ht]
    refine State.modGang_congr ht ?_
    by_cases z : d = 0
    · simp only [UniformEffect.onGang, Gang.setC, setBit8, if_pos z]
    · simp only [UniformEffect.onGang, Gang.setC, setBit8, if_neg z]; rfl

/-! ## The writes of a stream -/

theorem State.modStream_congr {s : State} {k j : Nat} {x : Stream} (hx : s.stream k j = some x) {f f' : Stream → Stream}
    (hf : f x = f' x) : s.modStream k j f = s.modStream k j f' := by
  unfold State.stream State.cluster at hx
  simp only [State.modStream, State.modCluster, AList.modify, hx, hf]

theorem State.cbit_stream {s : State} {k j : Nat} {x : Stream} (hx : s.stream k j = some x) : s.cbit (.stream k j) = streamBit x :=
  funext fun n => by simp only [State.cbit, hx, streamBit]

theorem State.sreg_stream {s : State} {k j : Nat} {x : Stream} (hx : s.stream k j = some x) : s.sreg (.stream k j) = x.sreg :=
  funext fun n => by simp only [State.sreg, hx]

/-- What a row writes of a stream. -/
theorem State.writeUniform_stream {s : State} {k j : Nat} {x : Stream} (hx : s.stream k j = some x) (f : UniformEffect) :
    s.writeUniform (.stream k j) f = s.modStream k j f.onStream := by
  cases f with
  | s d v =>
    simp only [State.writeUniform, State.setS, State.sreg_stream hx, State.cbit_stream hx]
    exact State.modStream_congr hx rfl
  | c d v =>
    simp only [State.writeUniform, State.setC, State.sreg_stream hx]
    refine State.modStream_congr hx ?_
    by_cases z : d = 0
    · simp only [UniformEffect.onStream, setBit8, if_pos z]
    · simp only [UniformEffect.onStream, setBit8, if_neg z]; rfl

/-- Changing a stream leaves the other clusters alone. -/
theorem State.cluster_modStream_other (s : State) {k k' : Nat} (j : Nat) (f : Stream → Stream) (n : k' ≠ k) :
    (s.modStream k j f).cluster k' = s.cluster k' := AList.get_set_other _ _ _ n

/-- Within a segment a stream stands ready at the next word. -/
theorem State.nextWord_stream (s : State) (k j : Nat) {e : Entry} (word : e.pc.toNat % 8192 ≠ 0x1FFC) :
    s.nextWord (.stream k j) e = s.modStream k j fun x => { x with pc := e.pc + 4, st := .ready } := if_neg word

end Sys2Proof.Machine

namespace Sys2Proof.Proofs

open Sys2Proof Sys2Proof.Machine Sys2Proof.Say

/-- The gang's part of O28. -/
theorem uniformWords : Say.UniformWords := by
  intro i r row s h g e t ⟨cur, task, _⟩
  have task' := (task_issued s h).trans task
  have bit : (issued s).cbit (.gang h g) r.guard = (t.gang g).cbit r.guard := congrFun (State.cbit_gang task' g) _
  constructor
  · intro guard
    rw [exec_row_true row cur (bit.trans guard), State.writeUniform_gang task']
    rfl
  · intro guard fresh
    exact exec_row_false row cur (bit.trans guard) fresh

/-- The stream's part of O28: what is written and the move to the next word both change the one stream. -/
theorem uniformWordsOfStreams : Say.UniformWordsOfStreams := by
  intro i r row s k j e x ⟨cur, stream, word⟩ ready
  have stream' := (stream_issued s k j).trans stream
  have bit : (issued s).cbit (.stream k j) r.guard = streamBit x r.guard := congrFun (State.cbit_stream stream') _
  cases guard : streamBit x r.guard with
  | true =>
    have runs := exec_row_true row cur (bit.trans guard)
    rw [State.writeUniform_stream stream', State.nextWord_stream _ _ _ word] at runs
    refine ⟨_, runs, ?_, rfl, fun k' n => ?_⟩
    · rw [State.stream_modStream, State.stream_modStream, stream']; rfl
    · rw [State.cluster_modStream_other _ _ _ n, State.cluster_modStream_other _ _ _ n, cluster_issued]
  | false =>
    have runs := exec_row_false row cur (bit.trans guard) (ready.resolve_left (Bool.eq_false_iff.mp guard))
    rw [State.nextWord_stream _ _ _ word] at runs
    refine ⟨_, runs, ?_, rfl, fun k' n => ?_⟩
    · rw [State.stream_modStream, stream']; rfl
    · rw [State.cluster_modStream_other _ _ _ n, cluster_issued]

/-- Settles O28: every word with a row has its row's meaning (`exec_eq_runRow`). -/
theorem uniformArithmetic : Obligations.UniformArithmetic := ⟨uniformWords, uniformWordsOfStreams⟩

end Sys2Proof.Proofs
end
